-- ==== Sys2Proof/Word.lean ====
section
/-!
DEFINITION. The word types and the sparse table that every large piece of state is held in.
-/
namespace Sys2Proof

/-- One byte (R2: byte 0 of a structure holds bits 7:0). -/
abbrev Byte := BitVec 8

/-- A 32-bit and a 64-bit register value (R3). -/
abbrev W32 := BitVec 32
abbrev W64 := BitVec 64

/-- A sparse table by number: entries with strictly rising keys, none equal to the table's default value
(Machine/Tab.lean reads and writes it; an unlisted key holds the default). -/
abbrev Tab (α : Type) := List (Nat × α)

end Sys2Proof
end

