-- ==== Sys2Proof/Syntax.lean ====
section
/-!
DEFINITION. The commands of the block: one constructor of Instr for each row of spec/opcode_table.json, with the unit
it acts on and the values it carries. Numbers of units are as in 00_scope.md: function f (0 PF, 1 to 1,024 VFn,
1,025 PFB), ring r, fetched command c, Saffron core n, bank or Clove g, partition p, stack st, far port q, port pt.
-/
namespace Sys2Proof

/-- A flit as it arrives at a port or leaves it (R391, R392): the header's fields, the payload in the clear, and the trailer as it stands on
the link. `fec`: the FEC corrected it or found no error; `fixed`: codewords that it corrected; `count` is the 64-bit count of an IDLE or
NAK flit. -/
structure Flit where
  seq : Nat := 0
  ack : Nat := 0
  credit : Nat := 0
  cvc : Nat := 0
  vc : Nat := 0
  typ : Nat := 0
  plen : Nat := 0
  poison : Bool := false
  pay : List Byte := []
  count : Nat := 0
  fec : Bool := true
  fixed : Nat := 0
  trailer : List Byte := []
  deriving DecidableEq, Repr

/-- Parameters of PART_CREATE: the 128 bytes of R485, byte 0 first, with Sumac's own choice of physical chunks, each with its KV
bit: those of CHUNKS, then those of POOL. -/
structure PartParams where
  block : List Byte
  choice : List (Nat × Bool) := []
  deriving DecidableEq, Repr

/-- A management request's header (R482) and the session it came in (R480): `sess` is the session's number on the
PF's DOE, or on the function's own DOE for BIND_FUNCTION. The constructor of the request is its OP; `len` is LENGTH and `rest` the reserved
bytes 15:12. -/
structure Req where
  sess : Nat
  seq : W32
  len : Nat := 0
  rest : W32 := 0
  deriving DecidableEq, Repr

/-- A firmware image as it arrives: the 1,024-byte header and the payload (R473), with the public key it names. -/
structure Image where
  bytes : List Byte
  key : List Byte
  deriving DecidableEq, Repr

/-- FABRIC_CFG's parameters (R484): what it writes of STW_DEVICE, STW_ROUTE, STW_PART_DOMAIN and the port settings. -/
inductive FabricCfg where
  | device (id : Nat)
  | route (id : Nat) (valid : Bool) (port : Nat) (altValid : Bool) (alt : Nat)
  | domain (p : Nat) (d : Nat)
  | port (pt : Nat) (en : Bool) (dim : Nat) (dateline : Bool)
  deriving DecidableEq, Repr

/-- What a detecting block finds (R457, R459, R460): the KIND, UNIT and DETAIL of its record, DETAIL, and whether
the check's own handling, a retry or a correction, hid it. -/
structure FaultInfo where
  kind : Nat
  unit : Nat
  detail : W64
  masked : Bool := false
  deriving DecidableEq, Repr

/-- Who raised an idle state's end (R442). -/
inductive WakeCause where
  | doorbell | barWrite | flit | source (s : Nat)
  deriving DecidableEq, Repr

/-- A waiter named by INHERIT_BUDGET_EXPIRED: a SEM_WAIT command or the WAIT word of a core (R377). -/
inductive WaitName where
  | command (c : Nat)
  | word (c i : Nat)
  deriving DecidableEq, Repr

/-- A read that begins at the offset of a 64-bit register (R4): 32 bits of its low half, or all 64 bits. -/
structure ReadAt where
  at_ : Nat
  whole : Bool := false
  deriving DecidableEq, Repr

/-- A command of the block: one constructor for each row of the table. -/
inductive Instr where
  -- register accesses (R3 to R7)
  | registerWrite (f off width : Nat) (v : W64)
  | badSizeAccess (f bar off size : Nat)
  | halfReadLow (f : Nat) (off : ReadAt)
  | halfReadHigh (f off : Nat)
  | halfWriteLow (f off : Nat) (v : W32)
  | halfWriteHigh (f off : Nat) (v : W32)
  | readDroppedDb (f : Nat)
  | readBadAccess (f : Nat)
  -- functions, rings, bounce buffers, messages (10)
  | fnEnable (f : Nat)
  | fnDisable (f : Nat)
  | flr (f : Nat)
  | fnShutdownComplete (f : Nat)
  | ringEnable (f r : Nat) (v : W32)
  | ringDisable (f r : Nat) (v : W32)
  | ringStopComplete (f r : Nat)
  | sqTailDoorbell (f r : Nat) (v : W32)
  | cqHeadDoorbell (f r : Nat) (v : W32)
  | hostAccessFailed (f r : Nat) (write : Bool)
  | bbRegister (f b : Nat) (v : W32)
  | bbDeregister (f b : Nat) (v : W32)
  | ringSchedWrite (f r : Nat) (v : W32)
  | msixUnmask (f v : Nat)
  | msixCoalesceTimeout (f r : Nat)
  | descriptorFetch (f r : Nat)
  | commandStart (c : Nat)
  | commandComplete (c : Nat)
  | groupEnd (f r : Nat)
  -- command classes (R337)
  | copy (c : Nat)
  | run (c : Nat)
  | bankRun (c : Nat)
  | step (c : Nat)
  | kvAlloc (c : Nat)
  | kvFork (c : Nat)
  | kvCommit (c : Nat)
  | kvFree (c : Nat)
  | adapterLoad (c : Nat)
  | adapterEvict (c : Nat)
  | modelSwap (c : Nat)
  | semSignal (c : Nat)
  | semWait (c : Nat)
  | fence (c : Nat)
  | fabricSend (c : Nat)
  | fabricRecv (c : Nat)
  | fabricCollective (c : Nat)
  | quotaSet (c : Nat)
  | evict (c : Nat)
  -- control words at the head of core n's queue (R81)
  | nop (n : Nat)
  | agSet (n : Nat)
  | anchorLoad (n : Nat)
  | tileMac (n : Nat)
  | tileDrain (n : Nat)
  | tileLoad (n : Nat)
  | vec (n : Nat)
  | signal (n : Nat)
  | wait (n : Nat)
  | acquire (n : Nat)
  | yieldPoint (n : Nat)
  | jump (n : Nat)
  | endWord (n : Nat)
  | streamFetch (n : Nat)
  | yieldGraceExpired (n : Nat)
  | coreSaveComplete (n : Nat)
  -- Clove g's instruction at its program counter (R219, R226)
  | cloveScalarInstruction (g : Nat)
  | cloveCsrWrite (g : Nat)
  | bvLd (g : Nat)
  | bvSt (g : Nat)
  | bvLdm (g : Nat)
  | bvStm (g : Nat)
  | bvPf (g : Nat)
  | bvAcq (g : Nat)
  | bankLoadArrives (g : Nat)
  | bvAdd (g : Nat)
  | bvSub (g : Nat)
  | bvMul (g : Nat)
  | bvMax (g : Nat)
  | bvMin (g : Nat)
  | bvExp2 (g : Nat)
  | bvExp2sub (g : Nat)
  | bvRcp (g : Nat)
  | bvMix2 (g : Nat)
  | bvCvt (g : Nat)
  | bvLimit (g : Nat)
  | bvMaskb (g : Nat)
  | bvBcast (g : Nat)
  | bvExt (g : Nat)
  | bvIns (g : Nat)
  | bvRmax (g : Nat)
  | bvEmax (g : Nat)
  | bvEmaxl (g : Nat)
  | bvMv (g : Nat)
  | bvDoth (g : Nat)
  | bvMacl (g : Nat)
  | bvSumh (g : Nat)
  | bvAncset (g : Nat)
  | bvAccrd (g : Nat)
  | bvAccrdk (g : Nat)
  | bvAccrda (g : Nat)
  | bvAccclr (g : Nat)
  | bvYield (g : Nat)
  | bvEnd (g : Nat)
  | cloveForcedYield (g : Nat)
  | cloveProgramAdmit (g : Nat)
  | cloveImageLoaded (c st : Nat)
  -- stacks and far memory (06)
  | stackOrdinaryAccess (p g off : Nat) (write : Option (BitVec 512))
  | refreshOperation (g : Nat)
  | scrubRead (g off : Nat)
  | eccReadback (g off : Nat) (data : W64) (check : Byte)
  | retireMoveComplete (chunk : Nat)
  | bankLocalRetire (chunk : Nat)
  | bwWindowRollover (st : Nat)
  | eccTestRawWrite (st : Nat) (v : W32)
  | eccTestRawRead (st : Nat)
  | farLinkDown (q : Nat)
  | farLinkRestored (q : Nat) (wide : Bool)
  | farRetrainTimeout (q : Nat)
  -- scheduling (11)
  | sliceExpired (p : Nat)
  | waitHoldTimeout (c : Nat)
  | jobStopComplete (f r : Nat)
  | pendingStopTaken (p : Nat)
  | jobResume (f r : Nat)
  | inheritBudgetExpired (w : WaitName)
  | grantWaitTimeout (c : Nat)
  -- Stawa (12)
  | portTrained (pt : Nat) (rx tx : Nat)
  | trainingAttemptTimeout (pt : Nat)
  | linkSessionEstablished (pt : Nat) (chainOk : Bool) (peerState : Nat) (peerBlock10 : Nat)
  | laneFailure (pt lane : Nat)
  | retrainComplete (pt : Nat) (txFail : Byte)
  | flitSend (pt : Nat)
  | flitRxSequenced (pt : Nat) (x : Flit)
  | flitRxIdle (pt : Nat) (x : Flit)
  | flitRxNak (pt : Nat) (x : Flit)
  | flitRxMgmt (pt : Nat) (x : Flit)
  | replayTimeout (pt : Nat)
  | linkKeyUpdate (pt : Nat)
  | packetDataRx
  | packetReqRx
  | packetAckRx
  | packetRejectRx
  | packetCollRx
  | packetBarrierRx
  | packetAbortRx
  | packetAckTimeout (c off : Nat)
  -- power, thermal, reset (13, 16, 17)
  | powerSample (watts : Nat)
  | energyInterval (total : Nat) (parts : List (Nat × Nat)) (rings : List (Nat × Nat × Nat))
  | powerControlStep
  | pwrCtrlWrite (v : W32)
  | throttleStep
  | throttleRecovery
  | sensorSample (n : Nat) (t : BitVec 16)
  | sensorSelfCheck (n : Nat) (ok : Bool)
  | sensorStaleTimeout (n : Nat)
  | coolantOkDeassert
  | coolantOkTimeout
  | coolantOkAssert
  | stoppedSensorPoll (readings : List (Nat × Option (BitVec 16)))
  | thermalRestart
  | powerOn (straps : BitVec 5) (readings : List (Nat × Option (BitVec 16)))
  | undervoltageStop
  | powerLossClear
  | railsGood
  | resetRelease (straps : BitVec 5)
  | perstAssert (second : Bool)
  | perstDeassert (second : Bool)
  | idleStateEntry
  | idleWake (w : WakeCause)
  | pwrIdleCtrlWrite (v : W32)
  | wakeInAssert
  -- event controller (14): agent or target t is AC t below 32, Sumac for 32
  | evcPendSet (t k : Nat) (v : W32)
  | evcPendClr (t k : Nat) (v : W32)
  | evcMaskSet (t k : Nat) (v : W32)
  | evcMaskClr (t k : Nat) (v : W32)
  | evcClaim (t : Nat)
  | evcComplete (t : Nat) (v : W32)
  | evcSeqCountRead (t : Nat)
  | eventHoldoffExpired (k : Nat)
  | evcStateMismatch (k : Nat) (mask2 : W32) (target : Option Nat)
  -- faults, watchdogs, recovery (14)
  | faultDetected (fi : FaultInfo)
  | saffronWatchdog (n : Nat)
  | moverWatchdog (m : Nat)
  | stackControllerWatchdog (st : Nat)
  | cloveHangWatchdog (g : Nat)
  | heartbeatTimeout (ac p : Nat)
  | groupRecovery (p : Nat)
  | sumacLockstepRestart
  | runtimeReady (p : Nat)
  -- management requests (R484)
  | partCreate (q : Req) (a : PartParams)
  | partTeardown (q : Req) (p : Nat)
  | partGrow (q : Req) (p : Nat) (cores : W64) (chunks saveSlots : Nat) (choice : List (Nat × Bool))
  | partShrink (q : Req) (p : Nat) (cores : W64)
  | fnAssign (q : Req) (p firstVf nvf : Nat) (pf pfb remove : Bool)
  | planeMode (q : Req) (v : W64)
  | fabricCfg (q : Req) (a : FabricCfg)
  | eccTest (q : Req) (p st chunk : Nat) (opening : Bool)
  | fwUpdate (q : Req) (images : List Image)
  | fwActivate (q : Req) (slotB commit : Bool) (revoke : Option Nat)
  | lifecycle (q : Req) (target : Nat)
  | reset (q : Req)
  | ownerInstall (q : Req) (key : List Byte)
  | certInstall (q : Req) (chain : List Byte) (keyMatches : Bool)
  | bindFunction (q : Req) (f : Nat)
  -- SPDM requests on the DOE of function f (R480)
  | getVersion (f : Nat)
  | getCapabilities (f : Nat)
  | negotiateAlgorithms (f : Nat) (offered : List Byte)
  | getDigests (f : Nat)
  | getCertificate (f slot off len : Nat)
  | getMeasurements (f index : Nat) (nonce : List Byte)
  | keyExchange (f : Nat) (owner : Bool) (exchange : List Byte)
  | finish (f sess : Nat) (requesterOk : Bool)
  | heartbeat (f sess : Nat)
  | spdmHeartbeatTimeout (f sess : Nat)
  | keyUpdate (f sess : Nat)
  | endSession (f sess : Nat)
  -- claim table and SMBus (16)
  | clmClaim (v : W32)
  | clmRelease (v : W32)
  | smbusReadByte (code : Nat)
  | smbusReadWord (code : Nat)
  | smbusBlockRead (code : Nat)
  -- the rows the table ends with
  | reservedControlWord (n : Nat)
  | pfReady
  | teardownComplete (p : Nat)
  | coolantOkQualified
  | referenceClockLoss (input : Nat)
  | idleFlitSend (pt : Nat)
  | configurationRequest (f : Nat) (d3hot : Option Bool)
  | coreAlternationTimeout (p : Nat)
  deriving DecidableEq, Repr

end Sys2Proof
end

