-- ==== Sys2Proof/Decode.lean ====
section
/-!
DEFINITION. What a word spells by the table's bits. The table of this block gives no row any bits (its rows list no
fields), so no word spells a command: commands arrive as terms in the queue.
-/
namespace Sys2Proof

/-- The command that the word `w` of `nbits` bits spells: none, since no row of the table has bits. -/
def decodeTableWord (_nbits _w : Nat) : Option Instr := none

end Sys2Proof
end

