-- ==== Sys2Proof/Config.lean ====
section
/-!
DEFINITION. What an implementation fixes and the spec leaves open: constants with no body, of which nothing can be
evaluated or proved. Each is a free value (assumption log 3, 4, 5, 12, 15).
-/
namespace Sys2Proof.Config

/-- Fresh free value number `k`; the machine draws them in turn through the plain counter State.freeCtr (log 3). -/
opaque freeNat : Nat → Nat

/-- The byte at a far address of a sector that nothing has written, at draw `k` (R213, log 12). -/
opaque freeByte : (k addr : Nat) → Byte

/-! What a model image's own programs compute (R289): no rule describes those programs. Each is a function of the image's sections,
given by ROLE with their bytes, and of what the row itself has produced, so that nothing else of a STEP can reach a result (R300,
log 25). Rows of numbers are F32 codes. `rnd` is the STEP's rounding (R292): its mode, and for mode 4 the seed, the stream number and
the row's number (R63). -/

/-- The row that enters a model's first layer for a token. -/
opaque embedRow : (model : List (Nat × List Byte)) → (rnd : List Nat) → (token pos : Nat) → List Nat

/-- The input row of projection `proj` (R303) of a layer, from the layer's input and what the row has produced in it. -/
opaque inputRow : (model : List (Nat × List Byte)) → (rnd : List Nat) → (layer proj pos : Nat) → (hidden : List Nat) →
    (done : List (List Nat)) → List Nat

/-- Column `j` of a projection's shared weight, scales applied. -/
opaque weightCol : (model : List (Nat × List Byte)) → (layer proj j : Nat) → List Nat

/-- The fixed-grid anchor of a projection's operand pair (R50), or none where the pair's anchors are tight. -/
opaque pairAnchor : (model : List (Nat × List Byte)) → (layer proj : Nat) → Option Int

/-- Output width and output format code of a projection; 7 stands for the attention output. -/
opaque outWidth : (model : List (Nat × List Byte)) → (layer proj : Nat) → Nat
opaque outFormat : (model : List (Nat × List Byte)) → (layer proj : Nat) → Nat

/-- The elementwise passes over a projection's output, position encoding included. -/
opaque passRow : (model : List (Nat × List Byte)) → (rnd : List Nat) → (layer proj pos : Nat) → List Nat → List Nat

/-- The factor applied to the scores of a layer, σ of R67. -/
opaque scoreScale : (model : List (Nat × List Byte)) → (layer : Nat) → Nat

/-- The layer's output row, from its input and what the row has produced in it. -/
opaque layerRow : (model : List (Nat × List Byte)) → (rnd : List Nat) → (layer : Nat) → (hidden : List Nat) → (done : List (List Nat)) →
    List Nat

/-- The final hidden state h and the output weight row E_v of R316. -/
opaque finalRow : (model : List (Nat × List Byte)) → (rnd : List Nat) → List Nat → List Nat
opaque tokenRow : (model : List (Nat × List Byte)) → (token : Nat) → List Nat

/-- The ROLE numbers of the sections that hold the output weights. -/
opaque outputRoles : (model : List (Nat × List Byte)) → List Nat

/-- Numeric flags that the model's own passes add for a row (R65). -/
opaque passFlags : (model : List (Nat × List Byte)) → (rnd : List Nat) → List Nat → Nat

/-- The row number that counts elements under R63 for a batch row that is no return row: R300 states none. -/
opaque restRow : (request row : Nat) → Nat

/-- The bits of a vector function whose accuracy alone is stated (R71): function code, result format code, operand bits.
One fixed algorithm, so a function of its operand (log 4). -/
opaque approx : (func fmt bits : Nat) → Nat

/-- The scale that the other devices' sums would give a block that a chunk's end splits (R62, R415): a function of the collective's
fields and of the sums (log 85). -/
opaque splitScale : (fields : List Byte) → (sums : List Nat) → (block : Nat) → Nat

/-- SHA-512 of a byte string, as a number (R471; the standard's function, log 15). -/
opaque sha512 : List Byte → Nat

/-- Whether an RSA-4096 signature verifies over a byte string under a public key (R473, R478; log 15). -/
opaque rsaVerify : (key msg sig : List Byte) → Bool

/-- AES-256-GCM under the key of that name: deciphered bytes from IV and ciphertext (R345; log 15). -/
opaque gcmPlain : (key iv : Nat) → List Byte → List Byte

/-- AES-256-GCM encryption (R345; log 15). -/
opaque gcmCipher : (key iv : Nat) → List Byte → List Byte

/-- The AES-256-GCM tag of ciphertext and additional data (R346 to R348; log 15). -/
opaque gcmTag : (key iv : Nat) → (cipher aad : List Byte) → List Byte

/-- HKDF-Expand with SHA-512 of a session's export master secret, by its name, over an info string (R488; log 15). -/
opaque derive : (secret : Nat) → (info : List Byte) → Nat

/-- The keys and salts of a link session (R399; log 15): the secret's name, 2 for a key and 3 for a salt, and port and direction. -/
opaque deriveLink : (secret label n : Nat) → Nat

/-- Whether the algorithms that a requester offers take in RSASSA-PSS-4096, SHA-512, P-384 and AES-256-GCM (R480; log 15). -/
opaque offersAlgorithms : List Byte → Bool

/-- The AES-256 key that the hub die's physically unclonable circuit gives (R478; log 15). -/
opaque hubKey : Nat

/-- The bits a signature, certificate or SPDM answer carries beyond what R480 and R481 define (log 15). -/
opaque spdmBytes : (kind : Nat) → List Byte → List Byte

/-- The module's board data: the signing-key hashes fused at manufacture (R474; log 14). -/
opaque fusedKeyHash : Nat → Nat

/-- The bytes of firmware image `t` that the device left the factory with (R473; log 14). -/
opaque factoryImage : Nat → List Byte

end Sys2Proof.Config
end

