-- ==== Sys2Proof/Machine/State.lean ====
section
/-!
DEFINITION. The state of the module as plain data, block by block (INVENTORY.md, '## State', names the rule of each
piece), the reasons a command can stop the model, and the state right after reset release.
-/
namespace Sys2Proof.Machine

/-- Completion status codes (R8). -/
inductive Status where
  | ok | okReplayed | alignFault | boundsFault | formatFault | descFault | poisonConsumed | unrecovered
  | quotaExceeded | resourceBusy | semInheritExpired | functionReset | cancelled
  deriving DecidableEq, Repr

/-- Format codes of control words and tensor descriptors (R83). -/
inductive Fmt where
  | f32 | bf16 | f16 | f8e4 | f8e5 | f6e3 | f6e2 | f4 | i32 | i8 | i4 | t2 | s8 | w128 | f64 | e16
  deriving DecidableEq, Repr

/-- An exact number n / d, d above 0. -/
structure Ex where
  n : Int
  d : Nat
  deriving DecidableEq, Repr

/-- An operand's value. −0 and +0 are both zero on input (R39). -/
inductive Val where
  | nan
  | inf (neg : Bool)
  | fin (x : Ex)
  deriving DecidableEq, Repr

/-- A scratchpad or the staging buffer: bytes, and per sector its written bit (R180) and poison mark (R145). `restored` lists the
64 KiB segments that a resume wrote back, every sector of which counts as written (R181). -/
structure Space where
  bytes : List Host.Cell := []
  written : Tab Bool := []
  restored : List Nat := []
  poison : Tab Bool := []
  deriving DecidableEq, Repr

/-- An anchor (R50, R56): none latched, EMPTY, or finite. -/
inductive Anchor where
  | none | empty | fin (a : Int)
  deriving DecidableEq, Repr

/-- An accumulator: the 133-bit integer of R56 (5-bit wrap over a 128-bit value), the special flags of R53, the latched
anchor, and a poison mark (R120, R247). -/
structure Acc where
  acc : BitVec 133 := 0
  nan : Bool := false
  pinf : Bool := false
  ninf : Bool := false
  anc : Anchor := .none
  poison : Bool := false
  deriving DecidableEq, Repr

/-! ### Saffron cores (03) -/

/-- A MAC tile (R75, R78). -/
structure Tile where
  empty : Bool := true
  shape : Nat := 0
  cells : Tab Acc := []
  deriving DecidableEq, Repr

/-- An address generator (R84); level l is entry l of each list. -/
structure Ag where
  loaded : Bool := false
  base : Nat := 0
  fmt : Fmt := .f32
  counts : List Nat := []
  strides : List Int := []
  idx : List Nat := []
  deriving DecidableEq, Repr

/-- An anchor register (R79): source tag SCAN or SUMMARY, 64 entries; an unlisted entry is EMPTY (0x8000); `poison` marks one
loaded from a poisoned sector (R120). -/
structure AncReg where
  loaded : Bool := false
  scan : Bool := false
  poison : Bool := false
  e : Tab (BitVec 16) := []
  deriving DecidableEq, Repr

/-- A control word in the queue, with its byte offset from the start of the stream segment (R122). -/
structure QWord where
  w : BitVec 512
  off : Nat
  deriving DecidableEq, Repr

inductive CoreState where
  | idle | running | suspended | deconfigured
  deriving DecidableEq, Repr

/-- A Saffron core's own state; its scratchpad stands in `Saffron.spads`. `run` is the RUN's command, `pidx` the partition
core index it serves; the stream fields are the fetch unit's (R114); `wstep` is the step count of the word at the head, not yet
retired, and `red` what a reduction's group has read so far, with `redPoison` (R117). -/
structure Core where
  state : CoreState := .idle
  tiles : Tab Tile := []
  ags : Tab Ag := []
  ancs : Tab AncReg := []
  queue : List QWord := []
  wstep : Nat := 0
  red : List (List Val × List Val) := []
  redPoison : Bool := false
  run : Nat := 0
  pidx : Nat := 0
  part : Nat := 0
  seed : W64 := 0
  stream : W64 := 0
  fetchHost : Bool := false
  fetchAddr : Nat := 0
  fetchOff : Nat := 0
  fetchLeft : Nat := 0
  done : Bool := false
  held : Bool := false
  suspendReq : Bool := false
  grace : Nat := 0
  graceRun : Bool := false
  keepWait : Bool := false
  semSeen : Nat := 0
  saving : Bool := false
  hinted : Bool := false
  saveSeg : BitVec 48 := 0
  accLive : Bool := false
  poisoned : Bool := false
  flags : BitVec 4 := 0
  lastStatus : Byte := 0
  faultStatus : Byte := 0
  faultOp : Byte := 0
  faultCause : BitVec 12 := 0
  faultPos : W64 := 0
  cycles : W64 := 0
  steps : W64 := 0
  deriving DecidableEq, Repr

/-- A core as a save image holds it (R117), with the scratchpad it saved. -/
structure CoreImage where
  core : Core := {}
  spad : Space := {}
  deriving DecidableEq, Repr

/-- A 64-byte line of an application core's cache (R30): its space (1 staging, 2 device, 3 far), partition and sector. -/
structure CacheLine where
  space : Nat
  part : Nat
  sector : Nat
  data : BitVec 512
  dirty : Bool
  deriving DecidableEq, Repr

/-- The application cores' caches (R30): first-level lines by core 0 to 31, last-level lines by compute die. -/
structure AppCaches where
  l1 : Tab (List CacheLine) := []
  llc : Tab (List CacheLine) := []
  deriving DecidableEq, Repr

structure Saffron where
  cores : Tab Core := []
  spads : Tab Space := []
  deriving DecidableEq, Repr

/-! ### Movers (04) -/

inductive UnitState where
  | idle | busy | suspended | deconfigured
  deriving DecidableEq, Repr

/-- A mover's status block (R148); COPY commands in progress on it are counted where it is read (`movOpen`). -/
structure Mover where
  state : UnitState := .idle
  lastStatus : Byte := 0
  faultStatus : Byte := 0
  faultSide : Nat := 0
  faultCause : BitVec 12 := 0
  faultElem : W64 := 0
  bytes : W64 := 0
  cycles : W64 := 0
  deriving DecidableEq, Repr

/-! ### Stack and far memory (06) -/

/-- A chunk-map entry (R190). -/
structure CtEntry where
  valid : Bool := false
  bankLocal : Bool := false
  kv : Bool := false
  retired : Bool := false
  pchunk : Nat := 0
  deriving DecidableEq, Repr

/-- A retired unit (R200, R203): a frame by frame number or a physical chunk. -/
inductive RetUnit where
  | frame (n : Nat) | chunk (n : Nat)
  deriving DecidableEq, Repr

/-- A stack's ECC_TEST window (R197 to R199, R209); `rawWrite` and `rawRead` say what the raw access does that waits while `busy`
(R198). -/
structure EccTest where
  en : Bool := false
  busy : Bool := false
  rawWrite : Bool := false
  rawRead : Bool := false
  pchunk : Nat := 0
  part : Nat := 0
  addr : BitVec 18 := 0
  data : W64 := 0
  check : Byte := 0
  syndrome : Byte := 0
  ce : BitVec 16 := 0
  due : BitVec 16 := 0
  deriving DecidableEq, Repr

/-- A word rewritten after an error and awaiting its read-back (R196). -/
structure Rewrite where
  g : Nat
  off : Nat
  correctable : Bool
  deriving DecidableEq, Repr

/-- A chunk move of R201 in progress: map entry and target chunk. -/
structure ChunkMove where
  chunk : Nat
  entry : Nat
  target : Nat
  deriving DecidableEq, Repr

/-- An ordinary sector access, or the scrub of one word, that waits: deferred by an EXCLUSIVE program (R195, R239), or for the
next window of its stack (R207). -/
structure Deferred where
  part : Nat
  off : Nat
  write : Option (BitVec 512)
  scrub : Bool := false
  deriving DecidableEq, Repr

/-- What a read that had to wait returned: partition, bank, offset, sector and poison, as it was served. -/
structure Returned where
  part : Nat
  g : Nat
  off : Nat
  data : BitVec 512
  poison : Bool
  deriving DecidableEq, Repr

/-- A far port (R215, R217). -/
structure FarPort where
  link : Bool := false
  present : Bool := false
  capacity : Nat := 0
  width : Nat := 0
  retries : BitVec 16 := 0
  poisonReads : BitVec 16 := 0
  retraining : Bool := false
  dead : Bool := false
  record : Option Nat := none
  deriving DecidableEq, Repr

/-- Stack and far memory (06). `bwUsed` counts the sectors of partition p in the window of stack st, under st × 64 + p (R206), and
`bwHeld` holds a stack's accesses that wait for the next window (R207), by bank. `deferred` holds a bank's deferred accesses (R239),
`returned` what reads that waited have returned, and `asked` the banks that a command or a core still waits for, whose accesses are
deferred (by 2 × command, or 2 × core + 1), and `serving` those whose accesses a bank's yield has come to, so that its program goes on
only after them (R239). `farWritten` is the number of the key under which a far sector was last written, 0 for
none (R212, R213), and `farKeys` the number of keys made. -/
structure Memory where
  dram : List Host.Cell := []
  dramCheck : List Host.Cell := []
  planeMode : W64 := 0x00000000FFFFFFFF#64
  ct : Tab CtEntry := []
  retired : List RetUnit := []
  retiredNow : List RetUnit := []
  ce : Tab W64 := []
  due : Tab W32 := []
  poisonReads : Tab W32 := []
  errLast : Tab W64 := []
  band : Tab Nat := []
  bankBand : Tab Nat := []
  shareNow : Tab Nat := []
  bwUsed : Tab Nat := []
  bwHeld : Tab (List (Nat × Deferred)) := []
  sectors : Tab W64 := []
  ecc : Tab EccTest := []
  rewrites : List Rewrite := []
  moves : List ChunkMove := []
  localRetire : List Nat := []
  deferred : Tab (List Deferred) := []
  returned : List Returned := []
  asked : Tab (Option (List Nat)) := []
  serving : Tab (List Nat) := []
  far : List Host.Cell := []
  farWritten : Tab Nat := []
  farKeys : Nat := 0
  farPoison : Tab Bool := []
  interleave : Bool := false
  farPorts : Tab FarPort := []
  deriving DecidableEq, Repr

/-! ### Semaphores (05, 11) -/

/-- A wait that has arrived and is not satisfied (R174); its budget's end arrives as INHERIT_BUDGET_EXPIRED (R377). `kept`
marks a WAIT word that stays registered while its job is WAITING (R365). -/
structure Waiter where
  sem : Nat
  value : Nat
  consume : Bool
  who : WaitName
  fn : Nat
  ring : Nat
  kept : Bool := false
  deriving DecidableEq, Repr

/-- A job holding a semaphore (R375). -/
structure Holder where
  sem : Nat
  fn : Nat
  ring : Nat
  deriving DecidableEq, Repr

structure Sems where
  values : Tab W32 := []
  waiters : List Waiter := []
  holders : List Holder := []
  deriving DecidableEq, Repr

/-! ### Clove engines (07) -/

/-- A save image that a switched-out program left in its save area (R242, R243): how many bytes of data memory are live, whether
the accumulators are, the draw `free` that gave the bytes of the regions whose layout the spec leaves open, and whether the errors of
its read have been reported. -/
structure SavedImage where
  live : Nat
  accs : Bool
  free : Nat
  noted : Bool := false
  deriving DecidableEq, Repr

/-- A program on a Clove (R221, R223, R232). `loaded`: its image has been written (R235); `started`: it has run. `dmem` and
`imem` are its data and instruction memory, keyed from 0; `readBuf` the sector copies its bank read buffer holds, by sector
number, in the order of `readBufKeys` (R229); `saved` the save image that it resumes from; `outstanding` the sectors on their way, and `stalled` that the instruction at
`pc` waits for one (R219). -/
structure CloveProg where
  cmd : Nat := 0
  launch : Nat := 0
  part : Nat := 0
  fn : Nat := 0
  excl : Bool := false
  wbase : Nat := 0
  wlim : Nat := 0
  arg : Nat := 0
  save : Nat := 0
  seed : W64 := 0
  stream : W64 := 0
  loaded : Bool := false
  started : Bool := false
  pc : W32 := 0
  x : Tab W32 := []
  xPoison : Tab Bool := []
  v : Tab (BitVec 512) := []
  vPoison : Tab Byte := []
  accs : Tab Acc := []
  imem : List Host.Cell := []
  dmem : List Host.Cell := []
  dPoison : Tab Bool := []
  bvfmt : W32 := 0
  bvc0 : W32 := 0
  bvc1 : W32 := 0
  lidx : BitVec 48 := 0
  numflags : BitVec 4 := 0
  poisonSeen : Bool := false
  cycle : W64 := 0
  instret : W64 := 0
  readBuf : Tab (BitVec 512) := []
  readBufKeys : List Nat := []
  readBufPoison : Tab Byte := []
  outstanding : List Nat := []
  stalled : Bool := false
  storedPoison : Bool := false
  savedOnce : Bool := false
  saved : Option SavedImage := none
  suspended : Bool := false
  deriving DecidableEq, Repr

inductive CloveState where
  | idle | running | yielding | off
  deriving DecidableEq, Repr

/-- A Clove (R218, R235, R252): `progs` are the admitted programs, the running one first; `waiting` those in order of
arrival. -/
structure Clove where
  state : CloveState := .idle
  progs : List CloveProg := []
  waiting : List CloveProg := []
  deconfigured : Bool := false
  lastStatus : Byte := 0
  poison : Bool := false
  faultStatus : Byte := 0
  faultCause : BitVec 12 := 0
  faultPc : W32 := 0
  yields : W64 := 0
  forced : W32 := 0
  switches : W32 := 0
  deferredCount : W64 := 0
  forcedPending : Bool := false
  deriving DecidableEq, Repr

structure Cloves where
  clove : Tab Clove := []
  stackMode : Byte := 0
  deriving DecidableEq, Repr

/-! ### Frame table (08) -/

inductive FrameState where
  | free | held | moving
  deriving DecidableEq, Repr

/-- A frame-table entry (R257). -/
structure Frame where
  seq : W32 := 0
  farslot : W32 := 0
  refcnt : Nat := 0
  vf : Nat := 0
  owner : Nat := 0
  tokens : Nat := 0
  spilled : Bool := false
  retired : Bool := false
  spec : Bool := false
  state : FrameState := .free
  deriving DecidableEq, Repr

/-- The frame table (R256, R287). `gold` is the model's own: byte by byte of the frames, what STEPs first wrote, which is what
a recomputation from the token journal gives (R467, log 127). -/
structure FrameTable where
  frames : Tab Frame := []
  ready : Bool := false
  sel : BitVec 24 := 0
  faultStatus : Byte := 0
  faultCause : BitVec 12 := 0
  faultPos : W64 := 0
  wipes : Tab W32 := []
  gold : Tab (Option Byte) := []
  retireEvents : List (Nat × W32) := []
  deriving DecidableEq, Repr

/-! ### Host interface (10, 11) -/

/-- What a STEP's admission decided of a request (R296, R318): its index and record, STATUS, FILLED and the adapter slot. -/
structure StepDecision where
  ix : Nat
  record : Nat
  status : Nat
  filled : Bool
  slot : Nat
  deriving DecidableEq, Repr

inductive CmdPhase where
  | none | fetched | running | done | reported
  deriving DecidableEq, Repr

/-- What a COPY read at its start, once (R159): its source and destination descriptors, and the entries of their index tensors. -/
structure Fetched where
  src : List Byte
  dst : List Byte := []
  sidx : List Int := []
  didx : List Int := []
  deriving DecidableEq, Repr

/-- A fetched command: the device's own copy of its descriptor (R331), its place in its ring and group, and, once `done`,
what its completion record says (R342). A `reported` command stays until its group ends, for a replay (R464). `applied`
records effects that a replay does not repeat (R177, R275, R411), `semDone` per partition core index how many
semaphore operations of its words have been applied (R177); `waiting` an unsatisfied SEM_WAIT, FENCE or fabric wait;
`cores` the cores a RUN uses as (partition core index, physical core); `noRecord` that no record is to be written; `startNo` its
place in the order of starts; `windows` the banks and windows of a BANK_RUN that has started (R202); `decisions` and `spilled` what the first run of a STEP's admission decided (R301);
`fetched` what a COPY has read at its start. -/
structure Cmd where
  phase : CmdPhase := .none
  fn : Nat := 0
  ring : Nat := 0
  count : Nat := 0
  desc : BitVec 512 := 0
  group : Nat := 0
  last : Bool := false
  authFailed : Bool := false
  overLong : Bool := false
  notAlone : Bool := false
  status : Status := .ok
  cause : Nat := 0
  result : Nat := 0
  index : Nat := 0
  flags : BitVec 4 := 0
  replayed : Bool := false
  applied : Bool := false
  waiting : Bool := false
  waitFor : List Nat := []
  cores : List (Nat × Nat) := []
  faults : List (Nat × Status × Nat) := []
  poisoned : Bool := false
  noRecord : Bool := false
  semDone : Tab Nat := []
  startNo : Nat := 0
  windows : List (Nat × Nat × Nat) := []
  decisions : List StepDecision := []
  spilled : List Nat := []
  fetched : Option Fetched := none
  deriving DecidableEq, Repr

inductive RingState where
  | off | active | error | stopping
  deriving DecidableEq, Repr

/-- Job states (R362). -/
inductive JobState where
  | idle | ready | running | waiting | suspending | suspended
  deriving DecidableEq, Repr

/-- A ring and its job (R327, R328, R330, R384, R444). The counts are the free-running counts extended by their wraps
(R346); `curGroup` is the group that runs or runs next, `fetchGroup` the group being fetched and `fetchLen` how many of
its descriptors have been fetched; `failed` and `drained` concern `curGroup` (R153, R179); `runs` counts its runs (R466). `countUsed` is COUNT as it stood at the last record (R352). `recover`: a
recovery of it is due (R461), `faulted` for a fault other than poison; `lost` lists the words found poisoned, by bank and
offset, or 4,096 and a far address, whether the group consumed them and which command did, or 0; `recOutcome` is the outcome so far (R459). `wrote` lists
the byte ranges that the current group wrote (R463), by kind (0 a partition device address, 1 a far address, 2 a bank's byte), start
and length. -/
structure Ring where
  sqBase : W64 := 0
  cqBase : W64 := 0
  sqTag : W64 := 0
  cqTag : W64 := 0
  size : BitVec 5 := 0
  en : Bool := false
  state : RingState := .off
  err : Byte := 0
  time : BitVec 10 := 0
  count : Byte := 0
  tail : Nat := 0
  head : Nat := 0
  cqCount : Nat := 0
  cqHead : Nat := 0
  sinceMsg : Nat := 0
  countUsed : Byte := 0
  cls : BitVec 2 := 2
  inherited : Option (BitVec 2) := none
  slice : Byte := 10
  job : JobState := .idle
  submitted : W64 := 0
  completed : W64 := 0
  preempted : W64 := 0
  energy : W64 := 0
  curGroup : Nat := 0
  fetchGroup : Nat := 0
  fetchLen : Nat := 0
  failed : Bool := false
  drained : Bool := false
  runs : Nat := 1
  recover : Bool := false
  faulted : Bool := false
  lost : List (Nat × Nat × Bool × Nat) := []
  recOutcome : Nat := 0
  wrote : List (Nat × Nat × Nat) := []
  deriving DecidableEq, Repr

/-- A bounce buffer's registration (R344). -/
structure Buffer where
  addr : W64 := 0
  len : W64 := 0
  sealAt : W64 := 0
  valid : Bool := false
  access : BitVec 2 := 0
  deriving DecidableEq, Repr

/-- An MSI-X vector (R350); vectors are masked at reset (log 10). -/
structure Vector16 where
  addr : W64 := 0
  data : W32 := 0
  masked : Bool := true
  pending : Bool := false
  deriving DecidableEq, Repr

inductive FnState where
  | disabled | enabled | disabling
  deriving DecidableEq, Repr

/-- A function (R327, R354). -/
structure Fn where
  state : FnState := .disabled
  enableHeld : Bool := false
  assigned : Bool := false
  part : Nat := 0
  enc : Bool := false
  keyH2d : Nat := 0
  keyD2h : Nat := 0
  droppedDb : W32 := 0
  badAccess : W32 := 0
  devCtr : W64 := 0
  writeRecords : Bool := false
  rings : Tab Ring := []
  bufs : Tab Buffer := []
  msix : Tab Vector16 := []
  deriving DecidableEq, Repr

/-- An MSI-X message sent (R351). -/
structure Msg where
  fn : Nat
  vector : Nat
  addr : W64
  data : W32
  deriving DecidableEq, Repr

structure HostIf where
  fn : Tab Fn := []
  cmds : Tab Cmd := []
  nextCmd : Nat := 0
  starts : Nat := 0
  mem : List Host.Cell := []
  latch : Tab (Option W32) := []
  wbuf : Tab (Option W32) := []
  msgs : List Msg := []
  deriving DecidableEq, Repr

/-! ### Partitions and serving (09, 11) -/

inductive PartState where
  | none | creating | active | teardown
  deriving DecidableEq, Repr

inductive SlotState where
  | empty | loading | ready
  deriving DecidableEq, Repr

/-- A section of a model image (R289): its place in the image, KIND, and the ROLE by which programs name it. -/
structure Section where
  off : Nat
  size : Nat
  kind : Nat
  role : Nat
  reserved : Bool
  deriving DecidableEq, Repr

/-- A model slot (R288 to R290) with what its load description says (R289), and the partition chunks that hold its sections:
`place` for KIND 0 and 2, `localPlace` for KIND 1, the sections of each in order. -/
structure ModelSlot where
  state : SlotState := .empty
  tag : W32 := 0
  image : Nat := 0
  size : Nat := 0
  layers : Nat := 0
  qheads : Nat := 0
  kvheads : Nat := 0
  dim : Nat := 0
  kvfmt : Byte := 0
  bstream : Nat := 0
  slices : Bool := false
  vocab : Nat := 0
  hidden : Nat := 0
  sections : List Section := []
  place : List Nat := []
  localPlace : List Nat := []
  deriving DecidableEq, Repr

/-- An adapter directory entry (R302). -/
structure DirEntry where
  image : Nat := 0
  size : Nat := 0
  tag : Nat := 0
  rank : Nat := 0
  fmt : Nat := 0
  ufmt : Nat := 0
  valid : Bool := false
  alpha : Nat := 0
  deriving DecidableEq, Repr

/-- A target entry of an adapter image (R303). -/
structure Target where
  layer : Nat
  proj : Nat
  reserved : Bool
  aOff : Nat
  bOff : Nat
  dIn : Nat
  dOut : Nat
  deriving DecidableEq, Repr

/-- An adapter slot (R304): the part of the adapter pool that its factors take, and the directory entry and targets it was
loaded from (R308). The started commands that use it are counted from the commands themselves (log 23). -/
structure AdapterSlot where
  state : SlotState := .empty
  dir : Nat := 0
  pin : Bool := false
  lastUse : Nat := 0
  at_ : Nat := 0
  bytes : Nat := 0
  entry : DirEntry := {}
  targets : List Target := []
  deriving DecidableEq, Repr

/-- A sequence that STEPs have named (R381): record address, function, last class, order of last naming. -/
structure Named where
  record : Nat
  fn : Nat
  cls : Nat
  order : Nat
  deriving DecidableEq, Repr

/-- A job's image in a save slot (R368, R369). -/
structure JobImage where
  fn : Nat
  ring : Nat
  cores : List CoreImage
  staging : Space
  deriving DecidableEq, Repr

/-- A token-journal entry (R467). -/
structure JournalEntry where
  record : Nat
  pos : Nat
  token : W32
  deriving DecidableEq, Repr

/-- A partition (R357 to R371, R485). `next` is a job chosen to be resumed; `pendingStop` a stop that waits for a save
slot (R368): 0 none, 1 for a more urgent job, 2 for the end of a slice; `pendingHold` that a stop for a wait does;
`pendingWait` that the stop in progress makes the job WAITING (R365), `woken` that its wait has ended meanwhile. `coreList` lists the cores in order of partition core index (R358), `leaving` the
functions whose shut-down a teardown awaits (R361). -/
structure Part where
  state : PartState := .none
  cores : W64 := 0
  coreList : List Nat := []
  leaving : List Nat := []
  lent : List (Nat × Nat) := []
  orphans : List (Nat × Nat) := []
  swapped : List (Nat × CoreImage) := []
  ctBase : Nat := 0
  ctCount : Nat := 0
  poolBase : Nat := 0
  poolChunks : Nat := 0
  farBase : Nat := 0
  farSize : Nat := 0
  farKey : Nat := 0
  journal : Nat := 0
  semBase : Nat := 0
  semCount : Nat := 0
  semQuota : Nat := 0
  kvQuota : Nat := 0
  slotQuota : Nat := 0
  dircap : Nat := 0
  share : Nat := 0
  cap : Bool := false
  saveSlots : Nat := 0
  ibudget : Nat := 0
  staging : W64 := 0
  domain : Nat := 0
  pfAttached : Bool := false
  fnFirst : Nat := 0
  fnCount : Nat := 0
  acs : List Nat := []
  epoch : W64 := 0
  running : Option (Nat × Nat) := none
  next : Option (Nat × Nat) := none
  pendingStop : Nat := 0
  pendingHold : Bool := false
  pendingWait : Bool := false
  woken : Bool := false
  ran : List (Nat × Nat) := []
  lastRun : Tab (Nat × Nat) := []
  images : List JobImage := []
  hinted : W32 := 0
  full : W32 := 0
  energy : W64 := 0
  models : Tab ModelSlot := []
  adapters : Tab AdapterSlot := []
  useOrder : Nat := 0
  named : List Named := []
  heldRecords : List (Nat × Nat) := []
  tokens : List JournalEntry := []
  kvRecords : List Nat := []
  deriving DecidableEq, Repr

/-! ### Stawa fabric (12) -/

inductive PortState where
  | down | training | keying | active | retrain | failed
  deriving DecidableEq, Repr

/-- A packet (R393); `poison` lists the byte ranges (start, length) of its data whose flits carried POISON. -/
structure Packet where
  kind : Nat := 0
  dst : Nat := 0
  src : Nat := 0
  domain : Nat := 0
  channel : Nat := 0
  mseq : Nat := 0
  offset : Nat := 0
  nbytes : Nat := 0
  info : Nat := 0
  data : List Byte := []
  poison : List (Nat × Nat) := []
  deriving DecidableEq, Repr

/-- A flit kept for sending or sending again (R397): how often it has been sent, and the tag of its stream. -/
structure TxFlit where
  flit : Flit
  sent : Nat := 0
  tag : Nat := 0
  deriving DecidableEq, Repr

/-- A Stawa port (R388 to R399, R420). Credits and buffers are per virtual channel; `txFree` are credits held,
`rxUsed` receive-buffer entries in use, `rxFreed` credits to return. `queue` holds flits to be sent, each with the tag
of the stream it belongs to (0 the device's own, 1 + 4 × port + channel a packet being forwarded, 64 + c a packet of command c); `openTag` is, per
channel, one more than the tag of the packet being sent (R392); `fwd` is, per receive channel, where the packet being
received goes: 0 to this device, 1 discarded, 2 + 4 × port + channel forwarded. -/
structure Port where
  state : PortState := .down
  en : Bool := false
  dim : Nat := 0
  dateline : Bool := false
  txWidth : Nat := 0
  rxWidth : Nat := 0
  txFail : Byte := 0
  rxFail : Byte := 0
  enc : Bool := false
  keyTx : Nat := 0
  keyRx : Nat := 0
  saltTx : W32 := 0
  saltRx : W32 := 0
  keyRxOld : Option Nat := none
  keyedSeq : Nat := 0
  keyedIdle : Nat := 0
  attempts : Nat := 0
  recentRetrains : Nat := 0
  txSeq : Nat := 0
  rxSeq : Nat := 0
  ackIn : Nat := 0
  idleTx : Nat := 0
  idleRx : Nat := 0
  nakSent : Bool := false
  replay : List TxFlit := []
  queue : List (Nat × Flit) := []
  openTag : Tab Nat := []
  fwd : Tab Nat := []
  txFree : Tab Nat := []
  rxUsed : Tab Nat := []
  rxFreed : Tab Nat := []
  partial_ : Tab (List Flit) := []
  refClock : Bool := true
  txFlits : W64 := 0
  rxFlits : W64 := 0
  fecCorr : W64 := 0
  fecUncorr : W32 := 0
  retry : W32 := 0
  authFail : W32 := 0
  retrains : W32 := 0
  deriving DecidableEq, Repr

structure Route where
  valid : Bool := false
  port : Nat := 0
  altValid : Bool := false
  alt : Nat := 0
  deriving DecidableEq, Repr

/-- A message being sent (R406 to R409), or a step of a collective (`coll`, R415): `head` is the record that a step sends
before its data; `req` is the data of a message's REQ, which `asked` says has been sent; `granted` data packets are admitted;
`sends` counts per offset how often a packet was sent. -/
structure SendCtx where
  cmd : Nat
  part : Nat
  domain : Nat
  dest : Nat
  channel : Nat
  mseq : Nat
  coll : Bool := false
  head : List Byte := []
  req : List Byte := []
  asked : Bool := false
  data : List Byte := []
  poison : List (Nat × Nat) := []
  granted : Nat := 0
  sends : Tab Nat := []
  acked : List Nat := []
  deriving DecidableEq, Repr

/-- A FABRIC_RECV (R406, R407) with the 128 bytes of its descriptor. `closed`: 0 in progress, 1 completed, 2 failed; a closed
one stays to answer further packets of its message (R403, R412) until its message number is used again. `poison`: the offsets of
packets that came poisoned and have not come clean since (R410). -/
structure RecvCtx where
  cmd : Nat
  part : Nat
  domain : Nat
  source : Nat
  channel : Nat
  desc : List Byte := []
  closed : Nat := 0
  msg : Option (Nat × Nat) := none
  total : Nat := 0
  granted : Nat := 0
  got : List Nat := []
  poison : List Nat := []
  deriving DecidableEq, Repr

/-- A collective in progress (R413 to R417): ring position, step, and of the step's incoming chunk the message number, the
grants, the packets and the bytes received; `sums` holds the device's W128 partials by element. For a BARRIER, `passes` counts the token's passes.
`again`: the command goes on when it is issued again; `begun`: its first accesses are done; `owed`: a stop cancelled its token (R373). -/
structure CollCtx where
  cmd : Nat
  part : Nat
  domain : Nat
  collId : Nat
  op : Nat
  ndev : Nat
  pos : Nat
  ids : List Nat
  head : List Byte := []
  ecount : Nat := 0
  src : List Byte := []
  dst : List Byte := []
  step : Nat := 0
  passes : Nat := 0
  msg : Option Nat := none
  granted : Nat := 0
  got : List Nat := []
  rx : Tab Byte := []
  rxPoison : List (Nat × Nat) := []
  sums : Tab Acc := []
  flags : BitVec 4 := 0
  poison : Bool := false
  again : Bool := false
  begun : Bool := false
  owed : Bool := false
  deriving DecidableEq, Repr

structure Fabric where
  devId : BitVec 16 := 0
  devValid : Bool := false
  routes : Tab Route := []
  ports : Tab Port := []
  noroute : W32 := 0
  resends : W32 := 0
  inbox : List Packet := []
  waiting : List Packet := []
  sends : List SendCtx := []
  recvs : List RecvCtx := []
  colls : List CollCtx := []
  mseqs : Tab Nat := []
  collLast : Tab Nat := []
  deriving DecidableEq, Repr

/-! ### Power and thermal (13, 16, 17) -/

/-- Where the module stands between power-off and running (R437, R475, R500). -/
inductive ModulePhase where
  | off | waitCoolant | rails | inReset | booting | running | stopped | hibernate
  deriving DecidableEq, Repr

inductive SensorState where
  | normal | warning | throttle | broken
  deriving DecidableEq, Repr

/-- A temperature sensor (R431, R443). -/
structure Sensor where
  valid : Bool := false
  state : SensorState := .normal
  temp : BitVec 16 := 0
  missed : Nat := 0
  checkFailed : Bool := false
  deriving DecidableEq, Repr

inductive IdleState where
  | active | idle1 | idle2 | idle3 | hibernate
  deriving DecidableEq, Repr

structure Power where
  cap : BitVec 11 := 0x5DC
  fixed : Bool := false
  capNext : Option (BitVec 11 × Bool) := none
  freq0 : Nat := 600
  freq1 : Nat := 600
  gating : Nat := 0
  capOver : Bool := false
  tl : Option Nat := none
  samples : List Nat := []
  avg1 : BitVec 11 := 0
  avg10 : BitVec 11 := 0
  devEnergy : W64 := 0
  energyRest : Nat := 0
  unattrib : W64 := 0
  throttleEvents : W32 := 0
  latency : W32 := 0
  idle : IdleState := .active
  idleRes : Tab W64 := []
  d3hot : Bool := false
  deriving DecidableEq, Repr

structure Thermal where
  sensors : Tab Sensor := []
  sdCause : Nat := 0
  sdSensor : Byte := 0
  sdCount : Byte := 0
  restarts : Nat := 0
  coolantOk : Bool := true
  coolQualified : Bool := true
  refMissing : List Nat := []
  deriving DecidableEq, Repr

/-! ### Event controller and fault log (14) -/

/-- An event group (R448, R449, R455). -/
structure EvGroup where
  pend : W32 := 0
  mask : W32 := 0xFFFFFFFF#32
  wake : W32 := 0
  hold : BitVec 10 := 0
  held : Bool := false
  deriving DecidableEq, Repr

/-- A target of the event controller (R450, R455). -/
structure EvTarget where
  insvc : Option Nat := none
  seqCount : BitVec 16 := 0
  seqLast : BitVec 11 := 0
  deriving DecidableEq, Repr

/-- A fault record (R459, R460). `affects` are the jobs whose recovery it has started and that has not ended, `best` the
highest outcome of those that have. -/
structure FaultRec where
  outcome : Nat := 0
  kind : Nat := 0
  source : Nat := 0
  unit : Nat := 0
  runs : Nat := 0
  part : Nat := 0
  time : W64 := 0
  detail : W64 := 0
  affects : List (Nat × Nat) := []
  best : Nat := 0
  deriving DecidableEq, Repr

structure Events where
  groups : Tab EvGroup := []
  route : Tab (BitVec 6) := []
  targets : Tab EvTarget := []
  flogCount : Nat := 0
  flog : Tab FaultRec := []
  unitFaults : List (Nat × Nat × Nat × Nat) := []
  deriving DecidableEq, Repr

/-! ### Sumac (15) -/

/-- A firmware slot: its images by type, and whether the last FW_UPDATE left it valid (R471, R477). -/
structure FwSlot where
  images : List Image := []
  valid : Bool := false
  deriving DecidableEq, Repr

/-- An SPDM session (R480, R482). -/
structure Session where
  fn : Nat
  num : Nat
  owner : Bool := false
  finished : Bool := false
  bound : Bool := false
  keyGen : Nat := 0
  period : Nat := 0
  secret : Nat := 0
  deriving DecidableEq, Repr

/-- Negotiation of a DOE before a session (R480): version, capabilities, algorithms agreed. -/
structure Doe where
  version : Bool := false
  caps : Bool := false
  algs : Bool := false
  deriving DecidableEq, Repr

/-- STATUS of a management response (R486). -/
inductive MgmtStatus where
  | done | denied | invalid | noResource | busy
  deriving DecidableEq, Repr

/-- The stored response of the last request an owner completed (R483). -/
structure Response where
  op : Nat := 0
  seq : W32 := 0
  status : MgmtStatus := .done
  result : W64 := 0
  deriving DecidableEq, Repr

/-- A request accepted and not answered yet, with its journal (R483, R487): PART_CREATE and PART_TEARDOWN answer when the
partition reaches its state. -/
structure OpenReq where
  op : Nat
  seq : W32
  part : Nat
  deriving DecidableEq, Repr

/-- Sumac. `identity` names the wrapped identity key, `hubKey` is the key that wraps it, in the key store from boot to power-off (R478);
`queue` holds the management requests that wait (R483), `sent` the responses sent, in order; `acDown` the application
cores out of service (R466). -/
structure Sumac where
  lc : BitVec 2 := 2
  releases : BitVec 4 := 15
  revoked : BitVec 4 := 0
  ownerKey : Option (List Byte) := some []
  cert1 : List Byte := []
  serial : W64 := 0
  minSvn : Tab (BitVec 6) := []
  slotA : FwSlot := { valid := true }
  slotB : FwSlot := {}
  bootB : Bool := false
  identity : Option Nat := some 0
  hubKey : Option Nat := none
  bootSlotB : Bool := false
  fallback : Bool := false
  recovery : Bool := false
  bootError : Byte := 0
  failType : BitVec 3 := 0
  version : Tab W32 := []
  bootedSvn : Tab (BitVec 6) := []
  restarts : BitVec 16 := 0
  queue : List Instr := []
  sent : List Response := []
  openReq : Option OpenReq := none
  stored : Option Response := none
  sessions : List Session := []
  does : Tab Doe := []
  nextSess : Nat := 0
  wipeDone : Bool := false
  wipePercent : BitVec 7 := 0
  epoch : W64 := 0
  pfReady : Bool := false
  acDown : List Nat := []
  deriving DecidableEq, Repr

/-! ### Reset, pins and the claim table (16) -/

/-- A claim-table entry (R511, R517). -/
structure Claim where
  func : Nat := 0
  owner : Nat := 0
  part : Nat := 0
  deriving DecidableEq, Repr

structure ResetBlk where
  phase : ModulePhase := .booting
  cause : BitVec 3 := 0
  count : Byte := 0
  nextCause : BitVec 3 := 0
  straps : BitVec 5 := 0
  sscPending : BitVec 6 := 0x3F
  sscActive : BitVec 6 := 0x3F
  perst : Bool := false
  perst1 : Bool := false
  railsGood : Bool := true
  poweringUp : Bool := false
  inputLost : Bool := false
  claims : Tab Claim := []
  clmResult : W32 := 0
  gpioOut : Byte := 0xFF
  gpioOe : Byte := 0
  pinIn : Byte := 0xFF
  deriving DecidableEq, Repr

/-- What the last command returned to its sender. -/
inductive Reply where
  | nothing
  | notTaken
  | data (v : Nat)
  | nack
  | bytes (b : List Byte)
  | retryStatus
  | deviceReady
  | smbus (data : List Byte) (pec : Byte)
  | mgmt (r : Response)
  | spdm (b : List Byte)
  | spdmBusy
  | spdmError
  | flit (x : Flit)
  | flits (xs : List Flit)
  | sector (v : BitVec 512) (poison : Bool)
  deriving DecidableEq, Repr

/-- The machine. `pending` is the queue of commands, first in first out; `reply` and `freeCtr` are the model's own. -/
structure State where
  hif : HostIf := {}
  mem : Memory := {}
  sem : Sems := {}
  saf : Saffron := {}
  app : AppCaches := {}
  mov : Tab Mover := []
  staging : Space := {}
  clv : Cloves := {}
  kvt : FrameTable := {}
  parts : Tab Part := []
  stw : Fabric := {}
  pwr : Power := {}
  thm : Thermal := {}
  evc : Events := {}
  sec : Sumac := {}
  rst : ResetBlk := {}
  reply : Reply := .nothing
  freeCtr : Nat := 0
  pending : List Instr := []
  deriving DecidableEq, Repr

/-- Why a command stops the model: nothing does. Every command answers a next state; one that names a unit the part does not
have is not taken (log 17). -/
inductive Fault where
  deriving DecidableEq, Repr

/-- Why a command has no meaning in the model. -/
inductive Refusal where
  /-- Raised by an arm of exec whose meaning is not written yet. Safe: no claim about that command can be proved. -/
  | notModelled (mnemonic : String)
  deriving DecidableEq, Repr

/-- The module at reset release (R499): registers at their reset values, storage wiped (R494), boot under way with the
PF not ready (R475), fuses as log 14 chooses, straps open (R503), the queue empty. The claim table holds Sumac's
permanent timers (R515); PF_READY adds the far-port modes, at enumeration (R511). -/
def State.reset : State :=
  { rst := { claims := [(0x40, ⟨0, 2, 0⟩), (0x41, ⟨0, 2, 0⟩)] } }

end Sys2Proof.Machine
end

