-- ==== Sys2Proof/Machine/Tab.lean ====
section
/-!
DEFINITION. Reading and writing the sparse tables: tabGet answers the default for an unlisted key, tabSet keeps the keys
rising and lists no default. Memories of bytes are such tables (Host.Cell).
-/
namespace Sys2Proof

/-- The value at key `k`, the default `d` where it is not listed. -/
def tabGet {α : Type} (d : α) : Tab α → Nat → α
  | [], _ => d
  | (i, v) :: t, k => if i = k then v else tabGet d t k

/-- The table without key `k`. -/
def tabErase {α : Type} : Tab α → Nat → Tab α
  | [], _ => []
  | (i, v) :: t, k => if i = k then tabErase t k else (i, v) :: tabErase t k

/-- The table with `v` listed at `k`, keys rising. -/
def tabPut {α : Type} : Tab α → Nat → α → Tab α
  | [], k, v => [(k, v)]
  | (i, w) :: t, k, v =>
    if i = k then (k, v) :: t else if k < i then (k, v) :: (i, w) :: t else (i, w) :: tabPut t k v

/-- The table with `v` at `k`: a default value is not listed. -/
def tabSet {α : Type} [DecidableEq α] (d : α) (t : Tab α) (k : Nat) (v : α) : Tab α :=
  if v = d then tabErase t k else tabPut t k v

/-- The table with the value at `k` changed by `f`. -/
def tabMod {α : Type} [DecidableEq α] (d : α) (t : Tab α) (k : Nat) (f : α → α) : Tab α :=
  tabSet d t k (f (tabGet d t k))

/-- Keys strictly rising, all at least `lo`. -/
def tabSorted {α : Type} : Nat → Tab α → Bool
  | _, [] => true
  | lo, (i, _) :: t => decide (lo ≤ i) && tabSorted (i + 1) t

/-- The canonical form: keys strictly rising and no entry equal to the default. -/
def tabWf {α : Type} [DecidableEq α] (d : α) (t : Tab α) : Bool :=
  tabSorted 0 t && t.all fun e => decide (e.2 ≠ d)

/-- Every entry whose key satisfies `p` returned to the default. -/
def tabDrop {α : Type} (t : Tab α) (p : Nat → Bool) : Tab α :=
  t.filter fun e => !p e.1

/-- Every listed value changed by `f`, keyed; one that becomes the default is dropped. -/
def tabMap {α : Type} [DecidableEq α] (d : α) (t : Tab α) (f : Nat → α → α) : Tab α :=
  t.filterMap fun e => if f e.1 e.2 = d then none else some (e.1, f e.1 e.2)

/-- Bytes `a` to `a + n - 1` of a byte table, lowest address first. -/
def bytesAt (d : Byte) (t : Tab Byte) (a : Nat) : Nat → List Byte
  | 0 => []
  | n + 1 => tabGet d t a :: bytesAt d t (a + 1) n

/-- A byte table with the bytes `bs` written from address `a` upwards. -/
def putBytes (d : Byte) (t : Tab Byte) (a : Nat) : List Byte → Tab Byte
  | [] => t
  | b :: bs => putBytes d (tabSet d t a b) (a + 1) bs

/-- The number little-endian bytes hold (R2). -/
def leNat : List Byte → Nat
  | [] => 0
  | b :: bs => b.toNat + 256 * leNat bs

/-- `n` little-endian bytes of a number (R2). -/
def natLe : Nat → Nat → List Byte
  | 0, _ => []
  | n + 1, x => BitVec.ofNat 8 x :: natLe n (x / 256)

/-- Bits `lo` upwards of a number, `w` of them. -/
def bits (x lo w : Nat) : Nat := x / 2 ^ lo % 2 ^ w

/-- One bit of a number. -/
def bit (x i : Nat) : Bool := x / 2 ^ i % 2 = 1

/-- `b` as 0 or 1. -/
def b01 (b : Bool) : Nat := if b then 1 else 0

/-- Two's-complement reading of the low `w` bits. -/
def signed (w x : Nat) : Int :=
  let m := x % 2 ^ w
  if m < 2 ^ (w - 1) then (m : Int) else (m : Int) - (2 ^ w : Nat)

/-- The low `w` bits of a two's-complement number. -/
def unsigned (w : Nat) (x : Int) : Nat := (x % ((2 ^ w : Nat) : Int)).toNat

/-- A count that stays at its top value (saturating counters). -/
def satAdd (w : Nat) (x : BitVec w) (n : Nat) : BitVec w :=
  if x.toNat + n < 2 ^ w then BitVec.ofNat w (x.toNat + n) else BitVec.allOnes w

/-- `a` divided by `b`, rounded up. -/
def ceilDiv (a b : Nat) : Nat := (a + b - 1) / b

/-- The numbers lo, lo + 1, …, `n` of them. -/
def rangeFrom (lo : Nat) : Nat → List Nat
  | 0 => []
  | n + 1 => lo :: rangeFrom (lo + 1) n

/-- The first number below `lo + n`, from `lo`, that satisfies `p`. -/
def findFrom (p : Nat → Bool) (lo : Nat) : Nat → Option Nat
  | 0 => none
  | n + 1 => if p lo then some lo else findFrom p (lo + 1) n

/-- The first `n` numbers from `lo`, within `fuel`, that satisfy `p`. -/
def takeWhere (p : Nat → Bool) (lo : Nat) : (fuel n : Nat) → List Nat
  | 0, _ => []
  | _, 0 => []
  | f + 1, n + 1 => if p lo then lo :: takeWhere p (lo + 1) f n else takeWhere p (lo + 1) f (n + 1)

/-- No element twice. -/
def noDup : List Nat → Bool
  | [] => true
  | a :: t => !t.contains a && noDup t

/-- `f` applied to the numbers lo, …, lo + n - 1 in turn, from `a`. -/
def iter {α : Type} (f : Nat → α → α) (lo : Nat) : Nat → α → α
  | 0, a => a
  | n + 1, a => iter f (lo + 1) n (f lo a)

end Sys2Proof
end

