-- ==== Sys2Proof/WellFormed.lean ====
section
/-!
DEFINITION. Which commands name something the part has: unit, function, ring, vector, group and field numbers inside
the ranges of 00_scope.md and of the register tables; and whether the parameters of a management request fit their fields.
-/
namespace Sys2Proof

/-- A PCIe function: PF 0, VFn n, PFB 1,025 (R325). -/
def fnNum (f : Nat) : Bool := decide (f ≤ 1025)

def fnRing (f r : Nat) : Bool := fnNum f && decide (r < 16)

/-- A value field of `w` bits. -/
def fits (w v : Nat) : Bool := decide (v < 2 ^ w)

/-- The fields of a flit (R391, R392). -/
def Flit.wf (x : Flit) : Bool :=
  fits 12 x.seq && fits 12 x.ack && fits 8 x.credit && fits 2 x.cvc && fits 2 x.vc && fits 4 x.typ && fits 8 x.plen
    && decide (x.pay.length ≤ 240) && fits 64 x.count && decide (x.trailer.length ≤ 8)

/-- The parameters of PART_CREATE fill their 128 bytes (R485). -/
def PartParams.fieldsOk (a : PartParams) : Bool := a.block.length = 128

/-- The fields of FABRIC_CFG (R423). -/
def FabricCfg.fieldsOk : FabricCfg → Bool
  | .device id => fits 16 id
  | .route id _ p _ a => fits 16 id && fits 3 p && fits 3 a
  | .domain p d => decide (p < 64) && fits 16 d
  | .port pt _ dim _ => decide (pt < 8) && fits 2 dim

/-- The fault kinds of R460. -/
def faultKinds : List Nat :=
  [0x01, 0x02, 0x10, 0x11, 0x12, 0x13, 0x14, 0x15, 0x20, 0x21, 0x22, 0x23, 0x24, 0x30, 0x31, 0x32]

/-- The unit of a fault record, by KIND (R460): below this number, or for a stack interface 0x100 + stack. -/
def FaultInfo.unitOk (i : FaultInfo) : Bool :=
  match i.kind with
  | 0x01 => decide (i.unit < 4096) && decide (i.detail.toNat < 2 ^ 27) && i.detail.toNat % 8 = 0
  | 0x02 => decide (i.unit < 4096) && decide (i.detail.toNat < 2 ^ 27) && i.detail.toNat % 8 = 0
  | 0x10 => decide (i.unit < 256)
  | 0x11 => decide (i.unit < 256)
  | 0x12 => decide (i.unit < 32 ∨ (0x100 ≤ i.unit ∧ i.unit < 0x108))
  | 0x13 => decide (i.unit < 4096)
  | 0x14 => decide (i.unit < 4096)
  | 0x15 => decide (i.unit < 2)
  | 0x22 => decide (i.unit < 32)
  | 0x32 => decide (i.unit < 2)
  | _ => fits 16 i.unit

def FaultInfo.wf (i : FaultInfo) : Bool := faultKinds.contains i.kind && i.unitOk

def WakeCause.wf : WakeCause → Bool
  | .source s => decide (s < 2048)
  | _ => true

def WaitName.wf : WaitName → Bool
  | .word _ i => decide (i < 256)
  | .command _ => true

/-- The number of one sensor and what it reads, if it answers. -/
def readingsOk (l : List (Nat × Option (BitVec 16))) : Bool := l.all fun e => decide (e.1 < 186)

/-- Whether the command names only things the part has. -/
def Instr.wf : Instr → Bool
  | .registerWrite f off width _ => (fnNum f || f = 1026) && (width = 32 || width = 64) && decide (off % (width / 8) = 0)
  | .badSizeAccess f bar _ size =>
    fnNum f && (bar = 0 || bar = 2) && decide (0 < size)
  | .halfReadLow f off => fnNum f && off.at_ % 8 = 0
  | .halfReadHigh f off => fnNum f && off % 8 = 0
  | .halfWriteLow f off _ => fnNum f && off % 8 = 0
  | .halfWriteHigh f off _ => fnNum f && off % 8 = 0
  | .readDroppedDb f => fnNum f
  | .readBadAccess f => fnNum f
  | .fnEnable f => fnNum f
  | .fnDisable f => fnNum f
  | .flr f => fnNum f
  | .fnShutdownComplete f => fnNum f
  | .ringEnable f r v => fnRing f r && v.getLsbD 0
  | .ringDisable f r v => fnRing f r && !v.getLsbD 0
  | .ringStopComplete f r => fnRing f r
  | .sqTailDoorbell f r _ => fnRing f r
  | .cqHeadDoorbell f r _ => fnRing f r
  | .hostAccessFailed f r _ => fnRing f r
  | .bbRegister f b v => fnNum f && decide (b < 256) && v.getLsbD 0
  | .bbDeregister f b v => fnNum f && decide (b < 256) && !v.getLsbD 0
  | .ringSchedWrite f r _ => fnRing f r
  | .msixUnmask f v => fnNum f && decide (v < 17)
  | .msixCoalesceTimeout f r => fnRing f r
  | .descriptorFetch f r => fnRing f r
  | .commandStart _ => true
  | .commandComplete _ => true
  | .groupEnd f r => fnRing f r
  | .copy _ => true
  | .run _ => true
  | .bankRun _ => true
  | .step _ => true
  | .kvAlloc _ => true
  | .kvFork _ => true
  | .kvCommit _ => true
  | .kvFree _ => true
  | .adapterLoad _ => true
  | .adapterEvict _ => true
  | .modelSwap _ => true
  | .semSignal _ => true
  | .semWait _ => true
  | .fence _ => true
  | .fabricSend _ => true
  | .fabricRecv _ => true
  | .fabricCollective _ => true
  | .quotaSet _ => true
  | .evict _ => true
  | .nop n => decide (n < 256)
  | .agSet n => decide (n < 256)
  | .anchorLoad n => decide (n < 256)
  | .tileMac n => decide (n < 256)
  | .tileDrain n => decide (n < 256)
  | .tileLoad n => decide (n < 256)
  | .vec n => decide (n < 256)
  | .signal n => decide (n < 256)
  | .wait n => decide (n < 256)
  | .acquire n => decide (n < 256)
  | .yieldPoint n => decide (n < 256)
  | .jump n => decide (n < 256)
  | .endWord n => decide (n < 256)
  | .streamFetch n => decide (n < 256)
  | .yieldGraceExpired n => decide (n < 256)
  | .coreSaveComplete n => decide (n < 256)
  | .cloveScalarInstruction g => decide (g < 4096)
  | .cloveCsrWrite g => decide (g < 4096)
  | .bvLd g => decide (g < 4096)
  | .bvSt g => decide (g < 4096)
  | .bvLdm g => decide (g < 4096)
  | .bvStm g => decide (g < 4096)
  | .bvPf g => decide (g < 4096)
  | .bvAcq g => decide (g < 4096)
  | .bankLoadArrives g => decide (g < 4096)
  | .bvAdd g => decide (g < 4096)
  | .bvSub g => decide (g < 4096)
  | .bvMul g => decide (g < 4096)
  | .bvMax g => decide (g < 4096)
  | .bvMin g => decide (g < 4096)
  | .bvExp2 g => decide (g < 4096)
  | .bvExp2sub g => decide (g < 4096)
  | .bvRcp g => decide (g < 4096)
  | .bvMix2 g => decide (g < 4096)
  | .bvCvt g => decide (g < 4096)
  | .bvLimit g => decide (g < 4096)
  | .bvMaskb g => decide (g < 4096)
  | .bvBcast g => decide (g < 4096)
  | .bvExt g => decide (g < 4096)
  | .bvIns g => decide (g < 4096)
  | .bvRmax g => decide (g < 4096)
  | .bvEmax g => decide (g < 4096)
  | .bvEmaxl g => decide (g < 4096)
  | .bvMv g => decide (g < 4096)
  | .bvDoth g => decide (g < 4096)
  | .bvMacl g => decide (g < 4096)
  | .bvSumh g => decide (g < 4096)
  | .bvAncset g => decide (g < 4096)
  | .bvAccrd g => decide (g < 4096)
  | .bvAccrdk g => decide (g < 4096)
  | .bvAccrda g => decide (g < 4096)
  | .bvAccclr g => decide (g < 4096)
  | .bvYield g => decide (g < 4096)
  | .bvEnd g => decide (g < 4096)
  | .cloveForcedYield g => decide (g < 4096)
  | .cloveProgramAdmit g => decide (g < 4096)
  | .cloveImageLoaded _ st => decide (st < 8)
  | .stackOrdinaryAccess p g off _ => decide (p < 64) && decide (g < 4096) && decide (off < 2 ^ 27) && off % 64 = 0
  | .refreshOperation g => decide (g < 4096)
  | .scrubRead g off => decide (g < 4096) && decide (off < 2 ^ 27) && off % 8 = 0
  | .eccReadback g off _ _ => decide (g < 4096) && decide (off < 2 ^ 27) && off % 8 = 0
  | .retireMoveComplete chunk => decide (chunk < 262144)
  | .bankLocalRetire chunk => decide (chunk < 262144)
  | .bwWindowRollover st => decide (st < 8)
  | .eccTestRawWrite st v => decide (st < 8) && v.getLsbD 0
  | .eccTestRawRead st => decide (st < 8)
  | .farLinkDown q => decide (q < 2)
  | .farLinkRestored q _ => decide (q < 2)
  | .farRetrainTimeout q => decide (q < 2)
  | .sliceExpired p => decide (p < 64)
  | .waitHoldTimeout _ => true
  | .jobStopComplete f r => fnRing f r
  | .pendingStopTaken p => decide (p < 64)
  | .jobResume f r => fnRing f r
  | .inheritBudgetExpired w => w.wf
  | .grantWaitTimeout _ => true
  | .portTrained pt rx tx => decide (pt < 8) && decide (rx < 4) && decide (tx < 4)
  | .trainingAttemptTimeout pt => decide (pt < 8)
  | .linkSessionEstablished pt _ st _ => decide (pt < 8) && decide (st < 4)
  | .laneFailure pt lane => decide (pt < 8) && decide (lane < 8)
  | .retrainComplete pt _ => decide (pt < 8)
  | .flitSend pt => decide (pt < 8)
  | .flitRxSequenced pt x => decide (pt < 8) && x.wf && decide (1 ≤ x.typ ∧ x.typ ≤ 4)
  | .flitRxIdle pt x => decide (pt < 8) && x.wf && x.typ = 0
  | .flitRxNak pt x => decide (pt < 8) && x.wf && x.typ = 5
  | .flitRxMgmt pt x => decide (pt < 8) && x.wf && x.typ = 6
  | .replayTimeout pt => decide (pt < 8)
  | .linkKeyUpdate pt => decide (pt < 8)
  | .packetDataRx => true
  | .packetReqRx => true
  | .packetAckRx => true
  | .packetRejectRx => true
  | .packetCollRx => true
  | .packetBarrierRx => true
  | .packetAbortRx => true
  | .packetAckTimeout _ _ => true
  | .powerSample _ => true
  | .energyInterval _ parts rings =>
    parts.all (fun e => decide (e.1 < 64)) && rings.all (fun e => fnRing e.1 e.2.1)
  | .powerControlStep => true
  | .pwrCtrlWrite _ => true
  | .throttleStep => true
  | .throttleRecovery => true
  | .sensorSample n _ => decide (n < 186)
  | .sensorSelfCheck n _ => decide (n < 186)
  | .sensorStaleTimeout n => decide (n < 186)
  | .coolantOkDeassert => true
  | .coolantOkTimeout => true
  | .coolantOkAssert => true
  | .stoppedSensorPoll l => readingsOk l
  | .thermalRestart => true
  | .powerOn _ l => readingsOk l
  | .undervoltageStop => true
  | .powerLossClear => true
  | .railsGood => true
  | .resetRelease _ => true
  | .perstAssert _ => true
  | .perstDeassert _ => true
  | .idleStateEntry => true
  | .idleWake w => w.wf
  | .pwrIdleCtrlWrite _ => true
  | .wakeInAssert => true
  | .evcPendSet t k _ => decide (t < 33) && decide (k < 64)
  | .evcPendClr t k _ => decide (t < 33) && decide (k < 64)
  | .evcMaskSet t k _ => decide (t < 33) && decide (k < 64)
  | .evcMaskClr t k _ => decide (t < 33) && decide (k < 64)
  | .evcClaim t => decide (t < 33)
  | .evcComplete t _ => decide (t < 33)
  | .evcSeqCountRead t => decide (t < 33)
  | .eventHoldoffExpired k => decide (k < 64)
  | .evcStateMismatch k _ target => decide (k < 64) && (match target with | none => true | some t => decide (t < 33))
  | .faultDetected i => i.wf
  | .saffronWatchdog n => decide (n < 256)
  | .moverWatchdog m => decide (m < 32)
  | .stackControllerWatchdog st => decide (st < 8)
  | .cloveHangWatchdog g => decide (g < 4096)
  | .heartbeatTimeout ac p => decide (ac < 32) && decide (p < 64)
  | .groupRecovery p => decide (p < 64)
  | .sumacLockstepRestart => true
  | .runtimeReady p => decide (p < 64)
  | .partCreate _ _ => true
  | .partTeardown _ _ => true
  | .partGrow _ _ _ _ _ _ => true
  | .partShrink _ _ _ => true
  | .fnAssign _ _ _ _ _ _ _ => true
  | .planeMode _ _ => true
  | .fabricCfg _ _ => true
  | .eccTest _ _ _ _ _ => true
  | .fwUpdate _ _ => true
  | .fwActivate _ _ _ _ => true
  | .lifecycle _ _ => true
  | .reset _ => true
  | .ownerInstall _ _ => true
  | .certInstall _ _ _ => true
  | .bindFunction _ f => fnNum f
  | .getVersion f => fnNum f
  | .getCapabilities f => fnNum f
  | .negotiateAlgorithms f _ => fnNum f
  | .getDigests f => fnNum f
  | .getCertificate f slot _ _ => fnNum f && decide (slot < 8)
  | .getMeasurements f index _ => fnNum f && fits 8 index
  | .keyExchange f _ _ => fnNum f
  | .finish f _ _ => fnNum f
  | .heartbeat f _ => fnNum f
  | .spdmHeartbeatTimeout f _ => fnNum f
  | .keyUpdate f _ => fnNum f
  | .endSession f _ => fnNum f
  | .clmClaim _ => true
  | .clmRelease _ => true
  | .smbusReadByte code => fits 8 code
  | .smbusReadWord code => fits 8 code
  | .smbusBlockRead code => fits 8 code
  | .reservedControlWord n => decide (n < 256)
  | .pfReady => true
  | .teardownComplete p => decide (p < 64)
  | .coolantOkQualified => true
  | .referenceClockLoss input => decide (input < 4)
  | .idleFlitSend pt => decide (pt < 8)
  | .configurationRequest f _ => fnNum f
  | .coreAlternationTimeout p => decide (p < 64)

end Sys2Proof
end

