-- ==== Sys2Proof/Machine/Ops.lean ====
section
/-!
DEFINITION. The shared operations: the one shape of a meaning, one reader and one modifier per table of State, free
values, raising an event, writing a fault record.
-/
namespace Sys2Proof.Machine

/-- The reply of the last command (log 2). -/
def setReply (r : Reply) (s : State) : State := { s with reply := r }

/-- A step whose own condition does not hold changes nothing, and says so in its reply (log 18). -/
def notTaken (s : State) : State := setReply .notTaken s

/-- The shape of every meaning: a command that names something the part does not have finds nothing that could act and is
not taken; any other is taken, with an empty reply until its effect gives one (log 2, log 17). -/
def take (c : Instr) (s : State) (f : State → State) : Host.Outcome State Fault Refusal :=
  .next (if c.wf then f (setReply .nothing s) else notTaken s)

/-- `f s` where `b` holds, otherwise not taken. -/
def when (b : Bool) (s t : State) : State := if b then t else notTaken s

/-- A fresh free value (log 3). -/
def draw (s : State) : Nat × State := (Config.freeNat s.freeCtr, { s with freeCtr := s.freeCtr + 1 })

/-! ### Readers and modifiers -/

def fnOf (s : State) (f : Nat) : Fn := tabGet {} s.hif.fn f
def modFn (f : Nat) (g : Fn → Fn) (s : State) : State :=
  { s with hif := { s.hif with fn := tabMod {} s.hif.fn f g } }

def ringOf (s : State) (f r : Nat) : Ring := tabGet {} (fnOf s f).rings r
def modRing (f r : Nat) (g : Ring → Ring) (s : State) : State :=
  modFn f (fun x => { x with rings := tabMod {} x.rings r g }) s

def bufOf (s : State) (f b : Nat) : Buffer := tabGet {} (fnOf s f).bufs b
def modBuf (f b : Nat) (g : Buffer → Buffer) (s : State) : State :=
  modFn f (fun x => { x with bufs := tabMod {} x.bufs b g }) s

def vecOf (s : State) (f v : Nat) : Vector16 := tabGet {} (fnOf s f).msix v
def modVec (f v : Nat) (g : Vector16 → Vector16) (s : State) : State :=
  modFn f (fun x => { x with msix := tabMod {} x.msix v g }) s

def cmdOf (s : State) (c : Nat) : Cmd := tabGet {} s.hif.cmds c
def modCmd (c : Nat) (g : Cmd → Cmd) (s : State) : State :=
  { s with hif := { s.hif with cmds := tabMod {} s.hif.cmds c g } }

def partOf (s : State) (p : Nat) : Part := tabGet {} s.parts p
def modPart (p : Nat) (g : Part → Part) (s : State) : State := { s with parts := tabMod {} s.parts p g }

def coreOf (s : State) (n : Nat) : Core := tabGet {} s.saf.cores n
def modCore (n : Nat) (g : Core → Core) (s : State) : State :=
  { s with saf := { s.saf with cores := tabMod {} s.saf.cores n g } }

def spadOf (s : State) (n : Nat) : Space := tabGet {} s.saf.spads n
def modSpad (n : Nat) (g : Space → Space) (s : State) : State :=
  { s with saf := { s.saf with spads := tabMod {} s.saf.spads n g } }

def moverOf (s : State) (m : Nat) : Mover := tabGet {} s.mov m
def modMover (m : Nat) (g : Mover → Mover) (s : State) : State := { s with mov := tabMod {} s.mov m g }

def cloveOf (s : State) (g : Nat) : Clove := tabGet {} s.clv.clove g
def modClove (g : Nat) (h : Clove → Clove) (s : State) : State :=
  { s with clv := { s.clv with clove := tabMod {} s.clv.clove g h } }

def frameOf (s : State) (n : Nat) : Frame := tabGet {} s.kvt.frames n
def modFrame (n : Nat) (g : Frame → Frame) (s : State) : State :=
  { s with kvt := { s.kvt with frames := tabMod {} s.kvt.frames n g } }

def portOf (s : State) (pt : Nat) : Port := tabGet {} s.stw.ports pt
def modPort (pt : Nat) (g : Port → Port) (s : State) : State :=
  { s with stw := { s.stw with ports := tabMod {} s.stw.ports pt g } }

def groupOf (s : State) (k : Nat) : EvGroup := tabGet {} s.evc.groups k
def modGroup (k : Nat) (g : EvGroup → EvGroup) (s : State) : State :=
  { s with evc := { s.evc with groups := tabMod {} s.evc.groups k g } }

def targetOf (s : State) (t : Nat) : EvTarget := tabGet {} s.evc.targets t
def modTarget (t : Nat) (g : EvTarget → EvTarget) (s : State) : State :=
  { s with evc := { s.evc with targets := tabMod {} s.evc.targets t g } }

def routeOf (s : State) (k : Nat) : Nat := (tabGet 0x20#6 s.evc.route k).toNat
def setEvRoute (k : Nat) (v : Nat) (s : State) : State :=
  { s with evc := { s.evc with route := tabSet 0x20#6 s.evc.route k (BitVec.ofNat 6 v) } }

def sensorOf (s : State) (n : Nat) : Sensor := tabGet {} s.thm.sensors n
def modSensor (n : Nat) (g : Sensor → Sensor) (s : State) : State :=
  { s with thm := { s.thm with sensors := tabMod {} s.thm.sensors n g } }

def farPortOf (s : State) (q : Nat) : FarPort := tabGet {} s.mem.farPorts q
def modFarPort (q : Nat) (g : FarPort → FarPort) (s : State) : State :=
  { s with mem := { s.mem with farPorts := tabMod {} s.mem.farPorts q g } }

def eccOf (s : State) (st : Nat) : EccTest := tabGet {} s.mem.ecc st
def modEcc (st : Nat) (g : EccTest → EccTest) (s : State) : State :=
  { s with mem := { s.mem with ecc := tabMod {} s.mem.ecc st g } }

def claimOf (s : State) (id : Nat) : Claim := tabGet {} s.rst.claims id
def setClaim (id : Nat) (c : Claim) (s : State) : State :=
  { s with rst := { s.rst with claims := tabSet {} s.rst.claims id c } }

/-- `f` applied for each element of a list in turn. -/
def foldState {α : Type} (l : List α) (f : α → State → State) (s : State) : State := l.foldl (fun s a => f a s) s

/-! ### Strap, phase and reach -/

/-- Far port 1 is a second host link (R216, R324). -/
def far1Host (s : State) : Bool := s.rst.straps.getLsbD 0

/-- The functions that exist: PFB only in second-host-link mode (R324), and in recovery the PF alone (R476). -/
def fnExists (s : State) (f : Nat) : Bool :=
  decide (f ≤ 1025) && (f != 1025 || far1Host s) && (f = 0 || !s.sec.recovery)

/-- The functions on the second host link (R324). -/
def onFar1 (s : State) (f : Nat) : Bool := far1Host s && decide (513 ≤ f)

/-- The link that carries a function is not held in reset and has its reference (R501, R505). -/
def hostLink (s : State) (f : Nat) : Bool :=
  !(if onFar1 s f then s.rst.perst1 || s.thm.refMissing.contains 2 else s.rst.perst || s.thm.refMissing.contains 0)

/-- An access to host memory of a function waits: the link that carries it is down (R505). -/
def hostHeld (s : State) (f : Nat) (uses : Bool) : Bool := uses && !(hostLink s f)

/-- The device runs and a function takes register and doorbell traffic (R475, R501). -/
def hostUp (s : State) (f : Nat) : Bool := s.rst.phase = .running && s.sec.pfReady && fnExists s f && hostLink s f

def running (s : State) : Bool := s.rst.phase = .running

/-- The power controller runs: from step 3 of the boot on (R475); the whole of the boot counts as after that (log 164). -/
def controllerRuns (s : State) : Bool := s.rst.phase = .running || s.rst.phase = .booting

/-! ### Events (R445 to R455) -/

/-- Source `k` occurs: its pending bit is set (R445). In HIBERNATE only sources 62 and 63 can (R453). -/
def raise (k : Nat) (s : State) : State :=
  if s.rst.phase = .hibernate ∧ k ≠ 62 ∧ k ≠ 63 then s
  else modGroup (k / 32) (fun g => { g with pend := g.pend ||| BitVec.ofNat 32 (2 ^ (k % 32)) }) s

/-- The hold-off of a group: fixed at 0 in groups 0 and 1 (R449). -/
def holdOf (s : State) (k : Nat) : Nat := if k < 2 then 0 else (groupOf s k).hold.toNat

/-- Source `k` is deliverable: pending, unmasked and in an OPEN group (R449). -/
def deliverable (s : State) (k : Nat) : Bool :=
  let g := groupOf s (k / 32)
  g.pend.getLsbD (k % 32) && !g.mask.getLsbD (k % 32) && !g.held

/-- EVC_CLAIM of target `t`: the offer (R450). -/
def offer (s : State) (t : Nat) : Option Nat :=
  if (targetOf s t).insvc.isSome then none
  else findFrom (fun k => deliverable s k && routeOf s k = t) 0 2048

/-! ### Fault records (R459, R460) -/

/-- Outcome codes of a fault record (R460). -/
def outPending : Nat := 0
def outMasked : Nat := 1
def outNoEffect : Nat := 2
def outReplayed : Nat := 3
def outRestored : Nat := 4
def outDeconfigured : Nat := 5
def outPoison : Nat := 6
def outUnrecovered : Nat := 7

/-- A fault affects the group that partition `p` runs (R461): its recovery is due, source 576 + p says so. `hard`: a fault
other than poison. -/
def startRecovery (hard : Bool) (p : Nat) (s : State) : State :=
  match (partOf s p).running with
  | none => s
  | some j => if 64 ≤ p then s
    else raise (576 + p) (modRing j.1 j.2 (fun q => { q with recover := true, faulted := q.faulted || hard }) s)

/-- A word found poisoned, noted for the group that partition `p` runs; `consumed` when the group has read it (R461). -/
def loseWord (p g off : Nat) (consumed : Bool) (s : State) : State :=
  match (partOf s p).running with
  | none => s
  | some j => if 64 ≤ p then s
    else modRing j.1 j.2 (fun q => if q.lost.contains (g, off, consumed, 0) then q
      else { q with lost := q.lost ++ [(g, off, consumed, 0)] }) s

/-- The words read since are those that command `c` consumed (R465). -/
def lostTo (c : Nat) (s : State) : State :=
  let x := cmdOf s c
  modRing x.fn x.ring (fun q => { q with lost := q.lost.map fun e => if e.2.2.1 && e.2.2.2 = 0 then (e.1, e.2.1, true, c) else e }) s

/-- A record written into slot `count mod 256`, then its source raised (R459). TIME is a free value (log 20). -/
def writeRecordOf (r : FaultRec) (s : State) : State :=
  let (t, s) := draw s
  raise r.source { s with evc := { s.evc with
    flog := tabSet {} s.evc.flog (s.evc.flogCount % 256) { r with time := BitVec.ofNat 64 t }
    flogCount := s.evc.flogCount + 1 } }

/-- The kinds of fault that are poison or lead to it (R460, R461). -/
def poisonKind (kind : Nat) : Bool := kind = 0x01 || kind = 0x02 || kind = 0x32

/-- A record that affects the groups which the partitions of a list run (R460, R461): PENDING until their recovery ends,
NO_EFFECT when none of them runs a group. -/
def faultAffects (kind source unit : Nat) (detail : W64) (ps : List Nat) (s : State) : State :=
  let hits := ps.filter fun p => decide (p < 64) && (partOf s p).running.isSome
  let jobs := hits.filterMap fun p => (partOf s p).running
  let runs := match jobs with | [j] => (ringOf s j.1 j.2).runs | _ => 0
  let s := writeRecordOf { outcome := if hits = [] then outNoEffect else outPending, kind := kind, source := source
                           unit := unit, runs := runs, part := (match hits with | [p] => p | _ => 0x7F), detail := detail
                           affects := jobs } s
  foldState hits (startRecovery (!(poisonKind kind))) s

/-- A record of a fault that its check's handling settles at once (R457, R459). -/
def faultSettled (kind source unit : Nat) (detail : W64) (outcome : Nat) (s : State) : State :=
  writeRecordOf { outcome := outcome, kind := kind, source := source, unit := unit, part := 0x7F, detail := detail } s

/-- The outcome of record number `k`, raised to `out` when a higher code applies (R459), while its slot still holds it. -/
def settleRecord (k out : Nat) (s : State) : State :=
  if s.evc.flogCount ≤ k + 256 then
    { s with evc := { s.evc with flog := tabMod {} s.evc.flog (k % 256) fun r => { r with outcome := Nat.max r.outcome out } } }
  else s

/-- The outcome of the records that a job was being recovered for (R459): the highest code that applies, once no other job's
recovery is open. -/
def settleRecords (j : Nat × Nat) (out : Nat) (s : State) : State :=
  { s with evc := { s.evc with
    flog := tabMap {} s.evc.flog fun _ r =>
      if r.affects.contains j then
        let l := r.affects.filter fun q => q != j
        let b := Nat.max r.best out
        { r with affects := l, best := b, outcome := if l = [] then b else outPending }
      else r } }

/-- The recovery of a job's group is over (R459, R470): its records are settled, nothing of it is left due. -/
def endRecovery (j : Nat × Nat) (out : Nat) (s : State) : State :=
  settleRecords j out (modRing j.1 j.2 (fun q => { q with recover := false, faulted := false, lost := [], recOutcome := 0 }) s)

/-! ### Functions and partitions -/

/-- The home of a function's jobs: its partition, or number 64 for an enabled function of none, the detached PF. -/
def homeOf (s : State) (f : Nat) : Nat := if (fnOf s f).assigned then (fnOf s f).part else 64

/-- The functions assigned to partition `p`. -/
def fnsOf (s : State) (p : Nat) : List Nat :=
  (s.hif.fn.filter fun e => e.2.assigned && e.2.part = p).map (·.1)

/-- Physical cores of a core-group mask, ascending (R358). -/
def coresOfMask (m : W64) : List Nat :=
  (rangeFrom 0 256).filter fun n => m.getLsbD (n / 4)

/-- The physical core that serves partition core index `i` (R358): a lent core (R466) takes its index over, an orphaned
index runs on another core of the partition. -/
def physCore (s : State) (p i : Nat) : Option Nat :=
  let q := partOf s p
  match q.lent.find? (fun e => e.1 = i) with
  | some e => some e.2
  | none =>
    match q.orphans.find? (fun e => e.1 = i) with
    | some e => some e.2
    | none => q.coreList[i]?

/-- Every physical core the partition holds, lent cores included (R179). -/
def partCores (s : State) (p : Nat) : List Nat :=
  (partOf s p).coreList ++ (partOf s p).lent.map (·.2)

/-- The partition that holds core `n`, lent cores included. -/
def coreHolder (s : State) (n : Nat) : Option Nat :=
  findFrom (fun p => (partOf s p).state != .none && (partCores s p).contains n) 0 64

/-- The job running in partition `p`. -/
def runningJob (s : State) (p : Nat) : Option (Nat × Nat) := (partOf s p).running

/-- Commands that are fetched and not reported, with their numbers, oldest first. -/
def cmdsWhere (s : State) (q : Cmd → Bool) : List Nat :=
  (s.hif.cmds.filter fun e => e.2.phase != .none && q e.2).map (·.1)

/-- Codes of the completion statuses (R8). -/
def statusCode : Status → Nat
  | .ok => 0x00 | .okReplayed => 0x01 | .alignFault => 0x10 | .boundsFault => 0x11 | .formatFault => 0x12
  | .descFault => 0x13 | .poisonConsumed => 0x20 | .unrecovered => 0x21 | .quotaExceeded => 0x30
  | .resourceBusy => 0x31 | .semInheritExpired => 0x32 | .functionReset => 0x40 | .cancelled => 0x41

/-- The status as it is reported: OK_REPLAYED for an OK of a command that has been run again (R464). -/
def okStatus (replayed : Bool) (st : Status) : Status := if st = .ok ∧ replayed then .okReplayed else st

/-- The rank of R10: a smaller number is reported first. -/
def statusRank : Status → Nat
  | .functionReset => 0 | .cancelled => 1 | .descFault => 2 | .formatFault => 3 | .alignFault => 4
  | .boundsFault => 5 | .quotaExceeded => 6 | .resourceBusy => 7 | .semInheritExpired => 8 | .unrecovered => 9
  | .poisonConsumed => 10 | .ok => 11 | .okReplayed => 11

def statusOk : Status → Bool
  | .ok => true | .okReplayed => true | _ => false

end Sys2Proof.Machine
end

