-- ==== Sys2Proof/Machine/MemOps.lean ====
section
/-!
DEFINITION. Memory: the SEC-DED code, words of stack memory with their check bytes, the chunk map, scratchpads and the
staging buffer with written bits and poison marks, far memory, and host memory through its registrations.
-/
namespace Sys2Proof.Machine

/-! ### SEC-DED (R191, R192) -/

/-- How many of the low eight bits are set. -/
def popcount8 (x : Nat) : Nat := ((rangeFrom 0 8).filter fun i => bit x i).length

/-- The columns of data bits 0 to 63 (R191). -/
def eccColumns : List Nat :=
  ((rangeFrom 0 256).filter fun x => popcount8 x = 3) ++ [0x1F, 0x2F, 0x37, 0x3B, 0x3D, 0x3E, 0x4F, 0x57]

def eccFold : List Nat → Nat → Nat → Nat
  | [], _, acc => acc
  | c :: cs, x, acc => eccFold cs (x / 2) (if x % 2 = 1 then acc ^^^ c else acc)

/-- The check byte of a 64-bit word (R191). -/
def eccCheck (x : Nat) : Nat := eccFold eccColumns x 0

/-- The syndrome of a stored word. -/
def eccSyndrome (x check : Nat) : Nat := check ^^^ eccCheck x

/-- What a read of a word finds (R192). -/
inductive WordKind where
  | clean | corrected | poisoned | failed
  deriving DecidableEq, Repr

/-- A stored word decoded: the data delivered and what was found. -/
def eccDecode (x check : Nat) : Nat × WordKind :=
  let y := eccSyndrome x check
  if y = 0 then (x, .clean)
  else if y = 0x7F then (x, .poisoned)
  else if popcount8 y = 1 then (x, .corrected)
  else match eccColumns.findIdx? (· = y) with
    | some i => (x ^^^ 2 ^ i, .corrected)
    | none => (x, .failed)

/-- Delivered poisoned (R192). -/
def kindPoison : WordKind → Bool
  | .poisoned => true | .failed => true | _ => false

/-! ### Words of the stacks -/

/-- The key of byte `off` of bank `g`. -/
def dramKey (g off : Nat) : Nat := g * 2 ^ 27 + off

/-- The word at bank offset `off` (a multiple of 8) as stored: data and check byte. -/
def rawWord (s : State) (g off : Nat) : Nat × Nat :=
  (leNat (bytesAt 0 s.mem.dram (dramKey g off) 8), (tabGet 0 s.mem.dramCheck (dramKey g off / 8)).toNat)

def readWord (s : State) (g off : Nat) : Nat × WordKind :=
  let (x, c) := rawWord s g off
  eccDecode x c

/-- Data and check byte stored without encoding. -/
def putRaw (g off x check : Nat) (s : State) : State :=
  { s with mem := { s.mem with
    dram := putBytes 0 s.mem.dram (dramKey g off) (natLe 8 x)
    dramCheck := tabSet 0 s.mem.dramCheck (dramKey g off / 8) (BitVec.ofNat 8 check) } }

/-- A whole word stored with fresh check bits (R194). -/
def putWord (g off x : Nat) (s : State) : State := putRaw g off x (eccCheck x) s

/-- A word stored poisoned (R194). -/
def putPoison (g off x : Nat) (s : State) : State := putRaw g off x (eccCheck x ^^^ 0x7F) s

/-- The physical chunk of a BANK_LOCAL slot, and the stack whose open ECC_TEST window it is (R197). -/
def testWindow (s : State) (g off : Nat) : Bool :=
  let e := eccOf s (g / 512)
  e.en && e.pchunk = off / 2 ^ 21 * 4096 + g

/-- A read reported to the stack controller (R196, R199): the error registers, the rewrite and its read-back to come, the
event and the fault record; a word read poisoned affects the group that reads it (R461). `part` is the partition read for. -/
def noteWord (part : Nat) (g off : Nat) (s : State) : State :=
  let st := g / 512
  let (x, k) := readWord s g off
  match k with
  | .clean => s
  | k =>
    if testWindow s g off then
      modEcc st (fun e => if k = .corrected then { e with ce := satAdd 16 e.ce 1 } else { e with due := satAdd 16 e.due 1 }) s
    else match k with
      | .corrected =>
        let n := satAdd 64 (tabGet 0 s.mem.ce st) 1
        let s := putWord g off x s
        let s := { s with mem := { s.mem with
          ce := tabSet 0 s.mem.ce st n
          errLast := tabSet 0 s.mem.errLast st (BitVec.ofNat 64 (2 ^ 40 + g * 2 ^ 28 + off))
          rewrites := s.mem.rewrites ++ [⟨g, off, true⟩] } }
        if n.toNat % 4096 = 0 then raise (32 + st) s else s
      | .failed =>
        let s := putPoison g off x s
        let s := { s with mem := { s.mem with
          due := tabSet 0 s.mem.due st (satAdd 32 (tabGet 0 s.mem.due st) 1)
          errLast := tabSet 0 s.mem.errLast st (BitVec.ofNat 64 (2 * 2 ^ 40 + g * 2 ^ 28 + off))
          rewrites := s.mem.rewrites ++ [⟨g, off, false⟩] } }
        faultAffects 0x01 st g (BitVec.ofNat 64 off) [part] (loseWord part g off true s)
      | _ => startRecovery false part (loseWord part g off true { s with mem := { s.mem with
          poisonReads := tabSet 0 s.mem.poisonReads st (satAdd 32 (tabGet 0 s.mem.poisonReads st) 1) } })

/-- Some bytes of a word replaced, from byte `lo` of it. -/
def mergeBytes (x lo : Nat) (bs : List Byte) : Nat :=
  let old := natLe 8 x
  leNat (old.take lo ++ bs ++ old.drop (lo + bs.length))

/-- `bs` written into the word at `off` from byte `lo` (R151, R194): whole with fresh check bits, or merged into the word
as it decodes. A whole write before a pending rewrite's read-back leaves nothing to read back (R196). The read of a merge
reports its errors and consumes nothing: no group is affected by it (log 120). -/
def writeWord (g off lo : Nat) (bs : List Byte) (s : State) : State :=
  if bs.length = 8 then
    putWord g off (leNat bs) { s with mem := { s.mem with
      rewrites := s.mem.rewrites.filter fun w => !(w.g = g && w.off = off) } }
  else
    let (x, k) := readWord s g off
    let s := noteWord 64 g off s
    match k with
    | .clean => putWord g off (mergeBytes x lo bs) s
    | .corrected => putWord g off (mergeBytes x lo bs) s
    | .failed => putPoison g off x s
    | .poisoned => s

/-- A whole sector of a bank written (R194). -/
def writeSector (g off : Nat) (v : BitVec 512) (s : State) : State :=
  foldState (rangeFrom 0 8) (fun i s => writeWord g (off + 8 * i) 0 (natLe 8 (bits v.toNat (64 * i) 64)) s) s

/-- A whole sector of a bank read: its errors reported (R196). -/
def readSectorNote (part g off : Nat) (s : State) : State :=
  foldState (rangeFrom 0 8) (fun i s => noteWord part g (off + 8 * i) s) s

/-- A write that carries a poison mark into a word: stored poisoned (R194). -/
def writeWordPoison (g off lo : Nat) (bs : List Byte) (s : State) : State :=
  putPoison g off (mergeBytes (rawWord s g off).1 lo bs) s

/-- The pieces of the byte range [a, a + bs.length) by aligned units of `u`: (unit start, offset in it, bytes). -/
def pieces (u : Nat) : Nat → Nat → List Byte → List (Nat × Nat × List Byte)
  | 0, _, _ => []
  | _, _, [] => []
  | k + 1, a, bs =>
    let n := u - a % u
    (a - a % u, a % u, bs.take n) :: pieces u k (a + n) (bs.drop n)

/-- The starts of the aligned units of `u` bytes that the range [a, a + n) touches. -/
def unitsOf (u a n : Nat) : List Nat :=
  if n = 0 then [] else (rangeFrom (a / u) ((a + n - 1) / u - a / u + 1)).map (· * u)

/-! ### The chunk map (R185 to R190) -/

/-- Bank and bank offset of byte `o` of a physical chunk, by the mode of its plane (R184 to R186). -/
def chunkLoc (bankLocal : Bool) (pchunk o : Nat) : Nat × Nat :=
  let j := pchunk / 4096
  let i := pchunk % 4096
  if bankLocal then (i, j * 2 ^ 21 + o)
  else
    let st := o / 512
    (st % 8 * 512 + st / 8 % 32 * 16 + st / 256, j * 2 ^ 21 + 512 * i + o % 512)

def ctOf (s : State) (n : Nat) : CtEntry := tabGet {} s.mem.ct n
def setCt (n : Nat) (e : CtEntry) (s : State) : State :=
  { s with mem := { s.mem with ct := tabSet {} s.mem.ct n e } }

/-- The map entry of partition chunk `c`, when the partition has it, VALID and not RETIRED (R190). -/
def chunkOf (s : State) (p c : Nat) : Option CtEntry :=
  let q := partOf s p
  let e := ctOf s (q.ctBase + c)
  if c < q.ctCount ∧ e.valid ∧ ¬e.retired then some e else none

/-- Bank and bank offset of partition device address `x` (R189, R190). -/
def devLoc (s : State) (p x : Nat) : Option (Nat × Nat) :=
  match chunkOf s p (x / 2 ^ 21) with
  | none => none
  | some e => some (chunkLoc e.bankLocal e.pchunk (x % 2 ^ 21))

/-- Every byte of the range is mapped (R190). -/
def devOk (s : State) (p x n : Nat) : Bool :=
  (unitsOf (2 ^ 21) x n).all fun a => (chunkOf s p (a / 2 ^ 21)).isSome

/-- The word that holds partition device address `x`, decoded. -/
def devWord (s : State) (p x : Nat) : Nat × WordKind :=
  match devLoc s p (x - x % 8) with
  | none => (0, .clean)
  | some (g, off) => readWord s g off

/-- Bytes of device memory as delivered, and whether a word among them was delivered poisoned. -/
def devGet (s : State) (p x n : Nat) : List Byte × Bool :=
  let ws := (unitsOf 8 x n).map (devWord s p)
  (((ws.flatMap fun w => natLe 8 w.1).drop (x % 8)).take n, ws.any fun w => kindPoison w.2)

/-- The sectors of a partition's traffic across a stack's interface counted (R206, R209). -/
def countSectors (p st k : Nat) (s : State) : State :=
  { s with mem := { s.mem with
    sectors := tabSet 0 s.mem.sectors p (satAdd 64 (tabGet 0 s.mem.sectors p) k)
    bwUsed := tabMod 0 s.mem.bwUsed (st * 64 + p) (· + k) } }

/-- The stack that holds a partition device address; 8 for one that no chunk maps. -/
def devStack (s : State) (p x : Nat) : Nat := match devLoc s p x with | none => 8 | some (g, _) => g / 512

/-- Sectors at partition device addresses counted, each at its stack. -/
def countAt (p : Nat) (l : List Nat) (s : State) : State := foldState l (fun a s => countSectors p (devStack s p a) 1 s) s

/-- The words of a range read and reported (R196), without counting sectors. -/
def devReport (p x n : Nat) (s : State) : State :=
  foldState (unitsOf 8 x n) (fun a s =>
    match devLoc s p a with
    | none => s
    | some (g, off) => noteWord p g off s) s

/-- The effect of a read of device memory across the stack interface: errors reported, sectors counted. -/
def devNote (p x n : Nat) (s : State) : State := countAt p (unitsOf 64 x n) (devReport p x n s)

/-- A range written by the running group of a partition (R463). -/
def noteWrote (p kind a n : Nat) (s : State) : State :=
  match (partOf s p).running with
  | none => s
  | some j => modRing j.1 j.2 (fun q => { q with wrote := (kind, a, n) :: q.wrote }) s

/-- Bytes written to device memory, without counting sectors. -/
def devStore (p x : Nat) (bs : List Byte) (s : State) : State :=
  noteWrote p 0 x bs.length <| foldState (pieces 8 (bs.length + 1) x bs) (fun (a, lo, w) s =>
    match devLoc s p a with
    | none => s
    | some (g, off) => writeWord g off lo w s) s

def devPut (p x : Nat) (bs : List Byte) (s : State) : State :=
  countAt p (unitsOf 64 x bs.length) (devStore p x bs s)

/-- Every word of a destination sector that carries a mark is written poisoned (R194). -/
def devPoisonSector (p x : Nat) (s : State) : State :=
  noteWrote p 0 (x - x % 64) 64 <| foldState (unitsOf 8 (x - x % 64) 64) (fun a s =>
    match devLoc s p a with
    | none => s
    | some (g, off) => putPoison g off (rawWord s g off).1 s) s

/-- A device-memory range wiped: data zero, check bits fresh, no poison (R250, R494). -/
def wipeRange (g off n : Nat) (s : State) : State :=
  let inside := fun k => decide (dramKey g off ≤ k ∧ k < dramKey g off + n)
  { s with mem := { s.mem with
    dram := tabDrop s.mem.dram inside
    dramCheck := tabDrop s.mem.dramCheck fun k => decide (dramKey g off / 8 ≤ k ∧ k < (dramKey g off + n) / 8) } }

/-- A physical chunk wiped. -/
def wipeChunk (bankLocal : Bool) (pchunk : Nat) (s : State) : State :=
  if bankLocal then wipeRange (pchunk % 4096) (pchunk / 4096 * 2 ^ 21) (2 ^ 21) s
  else
    let lo := pchunk / 4096 * 2 ^ 21 + 512 * (pchunk % 4096)
    let inside := fun k => decide (lo ≤ k % 2 ^ 27 ∧ k % 2 ^ 27 < lo + 512)
    { s with mem := { s.mem with
      dram := tabDrop s.mem.dram inside
      dramCheck := tabDrop s.mem.dramCheck fun k => inside (k * 8) } }

/-- The plane of a physical chunk is BANK_LOCAL (R188). -/
def planeLocal (s : State) (pchunk : Nat) : Bool := s.mem.planeMode.getLsbD (pchunk / 4096)

/-! ### Scratchpads and the staging buffer (R145, R180) -/

def spaceGet (sp : Space) (off n : Nat) : List Byte × Bool :=
  (bytesAt 0 sp.bytes off n, (unitsOf 64 off n).any fun a => tabGet false sp.poison (a / 64))

/-- One piece inside a sector (R145, R180): a whole sector clears the mark, a part of a poisoned sector is discarded. -/
def sectorPut (sp : Space) (a lo : Nat) (bs : List Byte) : Space :=
  let k := a / 64
  if bs.length = 64 then
    { sp with bytes := putBytes 0 sp.bytes a bs, written := tabSet false sp.written k true,
              poison := tabSet false sp.poison k false }
  else if tabGet false sp.poison k then sp
  else { sp with bytes := putBytes 0 sp.bytes (a + lo) bs, written := tabSet false sp.written k true }

/-- The written bit of a sector (R180, R181). -/
def spaceWritten (sp : Space) (k : Nat) : Bool := tabGet false sp.written k || sp.restored.contains (k / 1024)

def spacePut (sp : Space) (off : Nat) (bs : List Byte) : Space :=
  (pieces 64 (bs.length + 1) off bs).foldl (fun sp (a, lo, w) => sectorPut sp a lo w) sp

def spacePoison (sp : Space) (off : Nat) : Space :=
  { sp with poison := tabSet false sp.poison (off / 64) true, written := tabSet false sp.written (off / 64) true }

/-- The sectors of a range emptied (R180). -/
def spaceEmpty (sp : Space) (off n : Nat) : Space :=
  { bytes := tabDrop sp.bytes fun k => decide (off ≤ k ∧ k < off + n)
    written := tabDrop sp.written fun k => decide (off / 64 ≤ k ∧ k < (off + n) / 64)
    restored := sp.restored.filter fun k => !(decide (off / 65536 ≤ k ∧ k < (off + n) / 65536))
    poison := tabDrop sp.poison fun k => decide (off / 64 ≤ k ∧ k < (off + n) / 64) }

/-- Staging bytes inside regions that the partition holds (R126, R511). -/
def stagingOk (s : State) (p off n : Nat) : Bool :=
  decide (off + n ≤ 2 ^ 28) && (unitsOf (2 ^ 22) off n).all fun a => (partOf s p).staging.getLsbD (a / 2 ^ 22)

def emptyStaging (p : Nat) (s : State) : State :=
  foldState ((rangeFrom 0 64).filter fun i => (partOf s p).staging.getLsbD i)
    (fun i s => { s with staging := spaceEmpty s.staging (i * 2 ^ 22) (2 ^ 22) }) s

/-! ### Far memory (R211 to R215) -/

/-- The port of a far address (R211). -/
def farPortAt (s : State) (a : Nat) : Nat :=
  if s.mem.interleave then a / 4096 % 2 else if a < (farPortOf s 0).capacity * 2 ^ 30 then 0 else 1

/-- The far address of partition far address `x`, inside the range. -/
def farAddr (s : State) (p x : Nat) : Nat := (partOf s p).farBase * 2 ^ 30 + x

def farOk (s : State) (p x n : Nat) : Bool := decide (x + n ≤ (partOf s p).farSize * 2 ^ 30)

/-- A port through which nothing passes (R215): down for good, or retraining beyond its hold. -/
def farDead (s : State) (a : Nat) : Bool := (farPortOf s (farPortAt s a)).dead

/-- The record of far port `q`'s link settled (R459). -/
def settleFarRecord (q out : Nat) (s : State) : State :=
  match (farPortOf s q).record with
  | none => s
  | some k => settleRecord k out s

/-- The key pair of a partition, by number (R212); 0 for none. -/
def farKeyOf (s : State) (p : Nat) : Nat := (partOf s p).farKey

/-- The sector was last written under the key (R212). `Memory.far` holds each sector as the port decrypts it with that key: neither
the key nor the sealed sector can be read through any interface. -/
def farUnder (s : State) (key a : Nat) : Bool := key != 0 && tabGet 0 s.mem.farWritten (a / 64) = key

/-- A byte of far memory: of a sector never written under the partition's key, that is since it was created, a free value (R212,
R213, log 12). -/
def farByte (s : State) (key a : Nat) : Byte :=
  if farUnder s key a then tabGet 0 s.mem.far a else Config.freeByte s.freeCtr a

/-- Link-level retries of the port of a far address: how many is not the device's to say, so a free value (R217, log 73). -/
def farRetry (a : Nat) (s : State) : State :=
  modFarPort (farPortAt s a) (fun q => { q with retries := satAdd 16 q.retries (Config.freeNat s.freeCtr) })
    { s with freeCtr := s.freeCtr + 1 }

/-- Far bytes as delivered, and whether a sector among them was delivered poisoned (R214, R215). -/
def farGet (s : State) (p x n : Nat) : List Byte × Bool :=
  let a := farAddr s p x
  ((rangeFrom a n).map (farByte s (farKeyOf s p)),
    (unitsOf 64 a n).any fun b => tabGet false s.mem.farPoison (b / 64) || farDead s b)

/-- The effect of a far read: sectors delivered poisoned are counted and recorded (R214, R460), and the free bytes of
unwritten sectors are drawn. -/
def farNote (p x n : Nat) (s : State) : State :=
  let a := farAddr s p x
  let bad := (unitsOf 64 a n).filter fun b => tabGet false s.mem.farPoison (b / 64) || farDead s b
  let s := foldState bad (fun b => modFarPort (farPortAt s b) fun q => { q with poisonReads := satAdd 16 q.poisonReads 1 }) s
  let s := foldState bad (fun b => loseWord p 4096 b true) s
  let s := match bad with
    | [] => s
    | b :: _ => faultAffects 0x32 (29 + farPortAt s b) (farPortAt s b) (BitVec.ofNat 64 b) [p] s
  farRetry a s

/-- Bytes written to far memory: a part of a poisoned sector is discarded (R145); the rest of a sector never written
stays free, so it takes the drawn bytes. -/
def farPut (p x : Nat) (bs : List Byte) (s : State) : State :=
  let key := farKeyOf s p
  let s' := foldState (pieces 64 (bs.length + 1) (farAddr s p x) bs) (fun (a, lo, w) s =>
    let k := a / 64
    let fill := if farUnder s key a ∨ w.length = 64 then s.mem.far
      else putBytes 0 s.mem.far a ((rangeFrom a 64).map (farByte s key))
    if w.length < 64 ∧ tabGet false s.mem.farPoison k then s
    else { s with mem := { s.mem with
      far := putBytes 0 fill (a + lo) w
      farWritten := tabSet 0 s.mem.farWritten k key
      farPoison := tabSet false s.mem.farPoison k false } }) s
  noteWrote p 1 (farAddr s p x) bs.length (farRetry (farAddr s p x) s')

def farPoisonSector (p x : Nat) (s : State) : State :=
  let k := farAddr s p x / 64
  noteWrote p 1 (k * 64) 64 { s with mem := { s.mem with
    farPoison := tabSet false s.mem.farPoison k true
    farWritten := tabSet 0 s.mem.farWritten k (farKeyOf s p) } }

/-! ### Host memory (R27, R344 to R349) -/

/-- The key of a host address: the memory of the host on the function's link (R326). -/
def hostKey (s : State) (f a : Nat) : Nat := if onFar1 s f then 2 ^ 64 + a else a

/-- Raw bytes of host memory for a function. -/
def hostRaw (s : State) (f a n : Nat) : List Byte := bytesAt 0 s.hif.mem (hostKey s f a) n

def hostPutRaw (f a : Nat) (bs : List Byte) (s : State) : State :=
  { s with hif := { s.hif with mem := putBytes 0 s.hif.mem (hostKey s f a) bs } }

/-- The first valid registration with a suitable ACCESS that covers the range (R344). -/
def hostBuf (s : State) (f a n : Nat) (write : Bool) : Option Nat :=
  findFrom (fun b =>
    let q := bufOf s f b
    q.valid && (if write then q.access.getLsbD 1 else q.access.getLsbD 0)
      && decide (q.addr.toNat ≤ a ∧ a + n ≤ q.addr.toNat + q.len.toNat)) 0 256

def hostOk (s : State) (f a n : Nat) (write : Bool) : Bool := (hostBuf s f a n write).isSome

/-- The IV of R346 as a number: count in bytes 7:0, KIND, INDEX, FUNCTION. -/
def ivOf (f index kind count : Nat) : Nat := count % 2 ^ 64 + kind * 2 ^ 64 + index * 2 ^ 72 + f * 2 ^ 80

/-- Segment `k` of buffer `b` opened: plain bytes, and whether its seal verifies (R348). A segment written by the host is
sealed with KIND 2, one written by the device with KIND 3; either may be read back. -/
def openSegment (s : State) (f b k : Nat) : List Byte × Bool :=
  let q := bufOf s f b
  let x := fnOf s f
  let sl := hostRaw s f (q.sealAt.toNat + 32 * k) 32
  let count := leNat (sl.take 8)
  let cipher := hostRaw s f (q.addr.toNat + 4096 * k) 4096
  let aad := natLe 8 k
  let tag := sl.drop 16
  if Config.gcmTag x.keyH2d (ivOf f b 2 count) cipher aad = tag then
    (Config.gcmPlain x.keyH2d (ivOf f b 2 count) cipher, true)
  else if Config.gcmTag x.keyD2h (ivOf f b 3 count) cipher aad = tag then
    (Config.gcmPlain x.keyD2h (ivOf f b 3 count) cipher, true)
  else (Config.gcmPlain x.keyH2d (ivOf f b 2 count) cipher, false)

/-- A segment sealed by the device with its next count (R348). -/
def sealSegment (f b k : Nat) (plain : List Byte) (s : State) : State :=
  let q := bufOf s f b
  let x := fnOf s f
  let iv := ivOf f b 3 x.devCtr.toNat
  let cipher := Config.gcmCipher x.keyD2h iv plain
  let s := hostPutRaw f (q.addr.toNat + 4096 * k) cipher s
  let s := hostPutRaw f (q.sealAt.toNat + 32 * k)
    (natLe 8 x.devCtr.toNat ++ natLe 8 0 ++ Config.gcmTag x.keyD2h iv cipher (natLe 8 k)) s
  modFn f (fun x => { x with devCtr := x.devCtr + 1 }) s

/-- Bytes of a registered bounce buffer, and whether every segment read authenticates (R348, R349). -/
def hostGet (s : State) (f a n : Nat) : List Byte × Bool :=
  if ¬(fnOf s f).enc then (hostRaw s f a n, true)
  else match hostBuf s f a n false with
    | none => (hostRaw s f a n, true)
    | some b =>
      let o := a - (bufOf s f b).addr.toNat
      let segs := (unitsOf 4096 o n).map fun u => openSegment s f b (u / 4096)
      (((segs.flatMap (·.1)).drop (o % 4096)).take n, segs.all (·.2))

/-- A range written by a command, as the buffers that hold it: one buffer where one covers it all, otherwise, of accesses that each lie in a
buffer, piece by piece from its start; buffer, address and length (R344). -/
def hostSplit (s : State) (f : Nat) : Nat → Nat → Nat → List (Nat × Nat × Nat)
  | 0, _, _ => []
  | _, _, 0 => []
  | k + 1, a, n + 1 =>
    match hostBuf s f a (n + 1) true with
    | some b => [(b, a, n + 1)]
    | none => match hostBuf s f a 1 true with
      | none => []
      | some b =>
        let m := Nat.min (n + 1) ((bufOf s f b).addr.toNat + (bufOf s f b).len.toNat - a)
        (b, a, m) :: hostSplit s f k (a + m) (n + 1 - m)

/-- The segments that a write of part of them must read and that do not authenticate, as host addresses (R348, R349). -/
def hostPutBad (s : State) (f a n : Nat) : List Nat :=
  if ¬(fnOf s f).enc then []
  else (hostSplit s f 256 a n).flatMap fun e =>
    let q := bufOf s f e.1
    let o := e.2.1 - q.addr.toNat
    ((unitsOf 4096 o e.2.2).filter fun u => !(decide (o ≤ u ∧ u + 4096 ≤ o + e.2.2)) && !(openSegment s f e.1 (u / 4096)).2).map
      fun u => q.addr.toNat + u

/-- Whether the segments a partial write must read authenticate (R348). -/
def hostPutOk (s : State) (f a n : Nat) : Bool := (hostPutBad s f a n).isEmpty

/-- Bytes written to one bounce buffer, sealed by whole segments (R348). -/
def sealedPut (f b a : Nat) (bs : List Byte) (s : State) : State :=
  let o := a - (bufOf s f b).addr.toNat
  foldState (pieces 4096 (bs.length + 1) o bs) (fun (u, lo, w) s =>
    if w.length = 4096 then sealSegment f b (u / 4096) w s
    else
      let (old, ok) := openSegment s f b (u / 4096)
      if ok then sealSegment f b (u / 4096) (old.take lo ++ w ++ old.drop (lo + w.length)) s else s) s

/-- Bytes written to registered bounce buffers: sealed when ENC is 1 (R348). -/
def hostPut (f a : Nat) (bs : List Byte) (s : State) : State :=
  if ¬(fnOf s f).enc then hostPutRaw f a bs s
  else foldState (hostSplit s f 256 a bs.length) (fun e s => sealedPut f e.1 e.2.1 ((bs.drop (e.2.1 - a)).take e.2.2) s) s

end Sys2Proof.Machine
end

