-- ==== Sys2Proof/Machine/Caches.lean ====
section
/-!
DEFINITION. The caches of the application cores (R30, R31, R166 to R169): 64-byte lines, the flush that writes dirty ones back and the
invalidate that drops them. No command of the table is an access of application software, so lines change here through what the runtime
reads, through its calls and through reset alone (log 126).
-/
namespace Sys2Proof.Machine

/-- A line holds a sector of a range of a space: 1 the staging buffer, 2 device memory, 3 far memory (R26). -/
def CacheLine.within (x : CacheLine) (space p a n : Nat) : Bool :=
  x.space = space && (space = 1 || x.part = p) && decide (x.sector * 64 < a + n ∧ a < x.sector * 64 + 64)

/-- Every line of every cache: the first-level ones by application core, the last-level ones by die. -/
def cacheLines (s : State) : List CacheLine := s.app.l1.flatMap (·.2) ++ s.app.llc.flatMap (·.2)

def mapLines (f : List CacheLine → List CacheLine) (s : State) : State :=
  { s with app := { l1 := tabMap [] s.app.l1 fun _ l => f l, llc := tabMap [] s.app.llc fun _ l => f l } }

/-- A dirty line written to the memory that holds it, the whole sector (R166, R169). -/
def writeBack (x : CacheLine) (s : State) : State :=
  let bs := natLe 64 x.data.toNat
  match x.space with
  | 1 => { s with staging := spacePut s.staging (x.sector * 64) bs }
  | 2 => devPut x.part (x.sector * 64) bs s
  | _ => farPut x.part (x.sector * 64) bs s

/-- The runtime's flush (R166): the dirty lines of a range are written back and stay, clean. The caches are coherent, so a sector has
one dirty line at most; of several, the first counts. -/
def flushRange (space p a n : Nat) (s : State) : State :=
  let l := (cacheLines s).filter fun x => x.dirty && x.within space p a n
  mapLines (fun c => c.map fun x => if x.within space p a n then { x with dirty := false } else x)
    (foldState (l.eraseDupsBy fun x y => x.sector = y.sector && x.part = y.part) writeBack s)

/-- The runtime's invalidate (R166): no cache holds a line of the range. -/
def invalidateRange (space p a n : Nat) (s : State) : State :=
  mapLines (fun c => c.filter fun x => !(x.within space p a n)) s

/-- Lines of 64 bytes that a die's last-level cache of 16 MiB holds (R30). -/
def llcLines : Nat := 262144

/-- Lines put into a cache of `n` lines, the oldest leaving it: those that stay, and the dirty ones that leave. -/
def fitLines (n : Nat) (old new : List CacheLine) : List CacheLine × List CacheLine :=
  let l := old ++ new
  (l.drop (l.length - n), (l.take (l.length - n)).filter (·.dirty))

/-- The runtime of a partition reads ranges of its device memory that engines may have written: it invalidates them first (R31), and the
lines then stand, clean, in the caches of the application core that it runs on and of that core's die. -/
def runtimeRead (p : Nat) (l : List (Nat × Nat)) (s : State) : State :=
  match (partOf s p).acs with
  | [] => s
  | a :: _ =>
    let s := foldState l (fun e s => invalidateRange 2 p e.1 e.2 s) s
    let at_ := ((l.flatMap fun e => unitsOf 64 e.1 e.2).eraseDups).filter fun x => !(devGet s p x 64).2
    let new := at_.map fun x =>
      ({ space := 2, part := p, sector := x / 64, data := BitVec.ofNat 512 (leNat (devGet s p x 64).1), dirty := false } : CacheLine)
    let f := fitLines llcLines (tabGet [] s.app.llc (a / 16)) new
    foldState f.2 writeBack { s with app := {
      l1 := tabMod [] s.app.l1 a (· ++ new), llc := tabSet [] s.app.llc (a / 16) f.1 } }

end Sys2Proof.Machine
end

