-- ==== Sys2Proof/Machine/FabOps.lean ====
section
/-!
DEFINITION. Stawa packets: their header and flits (R391 to R393), routes and virtual channels (R401, R402), and sending
one from this device.
-/
namespace Sys2Proof.Machine

/-- The 32 bytes of a packet header (R393). -/
def packetHeader (k : Packet) : List Byte :=
  natLe 2 k.dst ++ natLe 2 k.src ++ natLe 2 k.domain ++ natLe 2 k.channel ++ natLe 2 k.kind ++ natLe 2 k.mseq
    ++ natLe 4 0 ++ natLe 8 k.offset ++ natLe 4 k.nbytes ++ natLe 4 k.info

/-- A packet read from its header and data. -/
def packetOf (bs : List Byte) (poison : List (Nat × Nat)) : Packet :=
  let at_ := fun lo n => leNat ((bs.drop lo).take n)
  { kind := at_ 8 1, dst := at_ 0 2, src := at_ 2 2, domain := at_ 4 2, channel := at_ 6 2, mseq := at_ 10 2,
    offset := at_ 16 8, nbytes := at_ 24 4, info := at_ 28 4, data := bs.drop 32, poison := poison }

/-- Whether a byte range touches a list of ranges. -/
def touches (l : List (Nat × Nat)) (lo n : Nat) : Bool := l.any fun e => decide (e.1 < lo + n ∧ lo < e.1 + e.2)

/-- BODY and TAIL flits of a packet's further data, from data byte `o`. -/
def tailFlits (vc : Nat) (poison : List (Nat × Nat)) : Nat → Nat → List Byte → List Flit
  | 0, _, _ => []
  | k + 1, o, bs =>
    let p := bs.take 240
    let x : Flit := { vc := vc, plen := p.length, pay := p, poison := touches poison o p.length }
    if bs.length ≤ 240 then [{ x with typ := 3 }] else { x with typ := 2 } :: tailFlits vc poison k (o + 240) (bs.drop 240)

/-- The flits of a packet on a channel (R392, R393): one SINGLE, or HEAD, BODY and TAIL. -/
def packetFlits (vc : Nat) (k : Packet) : List Flit :=
  let p := packetHeader k ++ k.data.take 208
  let x : Flit := { vc := vc, plen := p.length, pay := p, poison := touches k.poison 0 208 }
  if k.data.length ≤ 208 then [{ x with typ := 4 }]
  else { x with typ := 1 } :: tailFlits vc k.poison (k.data.length + 1) 208 (k.data.drop 208)

def routeEntry (s : State) (dst : Nat) : Route := tabGet {} s.stw.routes dst

def portActive (s : State) (pt : Nat) : Bool := (portOf s pt).state = .active

/-- The output port of a packet to another device (R401). -/
def usableRoute (s : State) (dst : Nat) : Option Nat :=
  let e := routeEntry s dst
  if e.valid && portActive s e.port then some e.port
  else if e.altValid && portActive s e.alt then some e.alt
  else none

/-- The virtual channel on which a packet leaves (R394, R402). -/
def outVc (s : State) (out : Nat) (control : Bool) (arrival : Option (Nat × Nat)) : Nat :=
  let base := if control then 2 else 0
  let crossed := match arrival with
    | none => false
    | some (pt, vc) => vc = base + 1 && (portOf s pt).dim = (portOf s out).dim
  if crossed || (portOf s out).dateline then base + 1 else base

def countNoRoute (s : State) : State := { s with stw := { s.stw with noroute := satAdd 32 s.stw.noroute 1 } }

/-- This device's ID. -/
def ownId (s : State) : Nat := s.stw.devId.toNat

/-- A packet of this device queued at its output port with the tag of its stream, or discarded and counted (R401). -/
def sendTagged (tag : Nat) (k : Packet) (s : State) : State :=
  match usableRoute s k.dst with
  | none => countNoRoute s
  | some out =>
    let fs := packetFlits (outVc s out (k.kind != 0) none) { k with src := ownId s }
    modPort out (fun q => { q with queue := q.queue ++ fs.map fun x => (tag, x) }) s

def sendPacket (k : Packet) (s : State) : State := sendTagged 0 k s

/-- The tag of the packets of a command. -/
def cmdTag (c : Nat) : Nat := 64 + c

/-- An ABORT: of a command that ends because no route is usable, only where one exists (R403). -/
def sendAbort (k : Packet) (s : State) : State :=
  if k.info = 0x850 ∧ (usableRoute s k.dst).isNone then s else sendPacket k s

/-! ### Messages under way (R403 to R412) -/

/-- Most data bytes of one packet (R393). -/
def packetMax : Nat := 65536

/-- The data packets of a stream from offset `o`. -/
def chunksFrom : Nat → Nat → List Byte → List (Nat × List Byte)
  | 0, _, _ => []
  | _, _, [] => []
  | k + 1, o, bs => (o, bs.take packetMax) :: chunksFrom k (o + packetMax) (bs.drop packetMax)

/-- The packets of a message or step that its grants admit: the record of a step needs none (R407). -/
def SendCtx.admitted (x : SendCtx) : List (Nat × List Byte) :=
  (if x.head = [] then [] else [(0, x.head)]) ++ (chunksFrom (x.data.length + 1) x.head.length x.data).take x.granted

/-- Data packets of a stream of `n` bytes. -/
def packetCount (n : Nat) : Nat := ceilDiv n packetMax

/-- The ranges of a list that lie in [lo, lo + n), counted from lo. -/
def cutRanges (l : List (Nat × Nat)) (lo n : Nat) : List (Nat × Nat) :=
  l.filterMap fun e =>
    let a := Nat.max e.1 lo
    let b := Nat.min (e.1 + e.2) (lo + n)
    if a < b then some (a - lo, b - a) else none

/-- The packet at an offset of a message or step. -/
def SendCtx.packet (x : SendCtx) (o : Nat) (bs : List Byte) : Packet :=
  { kind := if x.coll then 4 else 0, dst := x.dest, domain := x.domain, channel := x.channel, mseq := x.mseq, offset := o
    nbytes := bs.length, data := bs
    poison := if o < x.head.length then [] else cutRanges x.poison (o - x.head.length) bs.length }

def SendCtx.same (x y : SendCtx) : Bool := x.cmd = y.cmd && x.mseq = y.mseq

def modSend (x : SendCtx) (g : SendCtx → SendCtx) (s : State) : State :=
  { s with stw := { s.stw with sends := s.stw.sends.map fun y => if x.same y then g y else y } }

/-- One packet of a message sent, counted. -/
def sendOne (x : SendCtx) (e : Nat × List Byte) (s : State) : State :=
  modSend x (fun y => { y with sends := tabMod 0 y.sends e.1 (· + 1) }) (sendTagged (cmdTag x.cmd) (x.packet e.1 e.2) s)

/-- The REQ of a message (R406). -/
def SendCtx.reqPacket (x : SendCtx) : Packet :=
  { kind := 1, dst := x.dest, domain := x.domain, channel := x.channel, mseq := x.mseq, nbytes := x.req.length, data := x.req }

/-- A message's REQ is sent once (R406). -/
def pushReq (x : SendCtx) (s : State) : State :=
  if x.coll || x.asked then s
  else modSend x (fun y => { y with asked := true }) (sendTagged (cmdTag x.cmd) x.reqPacket s)

/-- The REQ and the admitted packets that have not been sent are (R406, R407). -/
def pushSend (x : SendCtx) (s : State) : State :=
  let s := pushReq x s
  foldState (x.admitted.filter fun e => tabGet 0 x.sends e.1 = 0) (sendOne x) s

/-- A sender's message holds a grant that it has not used up (R409). -/
def SendCtx.holdsGrant (x : SendCtx) : Bool := x.admitted.any fun e => !(x.acked.contains e.1)

/-- An ACK packet: whether it acknowledges the packet at its OFFSET, whether of a collective, and the count of data packets
granted so far. -/
def ackPacket (dst domain channel mseq off : Nat) (acks coll : Bool) (granted : Nat) : Packet :=
  { kind := 2, dst := dst, domain := domain, channel := channel, mseq := mseq, offset := off, nbytes := 8
    data := natLe 4 (b01 acks + 2 * b01 coll) ++ natLe 4 granted }

/-- The count of grants that a window of 8 packets admits (R407). -/
def grantsDue (total granted got : Nat) : Nat := Nat.min (packetCount total) (Nat.max granted (got + 8))

/-- The job of a command is RUNNING (R362). -/
def cmdRuns (s : State) (c : Nat) : Bool :=
  let x := tabGet {} s.hif.cmds c
  (partOf s (homeOf s x.fn)).running = some (x.fn, x.ring) && (ringOf s x.fn x.ring).job = .running

def modRecv (c : Nat) (g : RecvCtx → RecvCtx) (s : State) : State :=
  { s with stw := { s.stw with recvs := s.stw.recvs.map fun y => if y.cmd = c then g y else y } }

def modColl (c : Nat) (g : CollCtx → CollCtx) (s : State) : State :=
  { s with stw := { s.stw with colls := s.stw.colls.map fun y => if y.cmd = c then g y else y } }

/-- Grants that a receiver can give now, in an ACK that acknowledges nothing (R407). -/
def grantRecv (x : RecvCtx) (s : State) : State :=
  match x.msg with
  | none => s
  | some (src, m) =>
    let n := grantsDue x.total x.granted x.got.length
    if x.closed ≠ 0 ∨ n = x.granted then s
    else sendPacket (ackPacket src x.domain x.channel m 0 false false n) (modRecv x.cmd (fun y => { y with granted := n }) s)

def CollCtx.next (x : CollCtx) : Nat := x.ids.getD ((x.pos + 1) % x.ndev) 0
def CollCtx.prev (x : CollCtx) : Nat := x.ids.getD ((x.pos + x.ndev - 1) % x.ndev) 0

/-- A packet for a collective that has begun: a token from its previous participant, a COLL packet from any (R414). -/
def CollCtx.takes (x : CollCtx) (k : Packet) : Bool :=
  x.begun && (k.kind = 4 || (k.kind = 5 && k.src = x.prev)) && k.domain = x.domain && k.channel % 256 = x.collId

/-- Packets that waited for a collective are taken up again. -/
def wakeColl (x : CollCtx) (s : State) : State :=
  { s with stw := { s.stw with inbox := s.stw.waiting.filter x.takes ++ s.stw.inbox
                               waiting := s.stw.waiting.filter fun k => !(x.takes k) } }

/-- Whole packets of this device that have not begun to be sent and satisfy `p` leave a queue; they are answered as well. -/
def dropPackets (p : Packet → Bool) : Bool → List (Nat × Flit) → List (Nat × Flit) × List Packet
  | _, [] => ([], [])
  | d, e :: t =>
    if 1 ≤ e.1 ∧ e.1 < 64 then let r := dropPackets p d t; (e :: r.1, r.2)
    else
      let first := e.2.typ = 1 ∨ e.2.typ = 4
      let k := packetOf (e.2.pay.take e.2.plen) []
      let d' := if first then p k else d
      let r := dropPackets p (d' && (e.2.typ = 1 || e.2.typ = 2)) t
      (if d' then r.1 else e :: r.1, if d' && first then k :: r.2 else r.2)

def SendCtx.owns (x : SendCtx) (k : Packet) : Bool :=
  (k.kind = (if x.coll then 4 else 0) || (!x.coll && k.kind = 1)) && k.dst = x.dest && k.domain = x.domain && k.channel = x.channel && k.mseq = x.mseq

/-- The token of a BARRIER that this participant passes on (R416). -/
def CollCtx.token (x : CollCtx) : Packet := { kind := 5, dst := x.next, domain := x.domain, channel := x.collId }

/-- A queued token of a collective. -/
def CollCtx.ownsToken (x : CollCtx) (k : Packet) : Bool :=
  k.kind = 5 && k.dst = x.next && k.domain = x.domain && k.channel = x.collId

/-- An ACK that acknowledges nothing: grants alone, of a message or of a collective. -/
def isGrant (coll : Bool) (k : Packet) : Bool := k.kind = 2 && leNat (k.data.take 4) = 2 * b01 coll

/-- Queued grants of a receiver. -/
def RecvCtx.ownsGrant (x : RecvCtx) (k : Packet) : Bool :=
  isGrant false k && k.domain = x.domain && k.channel = x.channel && x.msg = some (k.dst, k.mseq)

/-- Queued grants of a collective's step. -/
def CollCtx.ownsGrant (x : CollCtx) (k : Packet) : Bool :=
  isGrant true k && k.dst = x.prev && k.domain = x.domain && k.channel = x.collId && x.msg = some k.mseq

/-- A stop of a job cancels what it has in the queues without a link credit: packets of its messages and steps, tokens, and the grants of
its receivers and collectives. They are issued again when it resumes (R373). -/
def fabricStop (j : Nat × Nat) (s : State) : State :=
  let isMine := fun (c : Nat) => decide (((tabGet {} s.hif.cmds c).fn, (tabGet {} s.hif.cmds c).ring) = j)
  let mine := s.stw.sends.filter fun x => isMine x.cmd
  let recvs := s.stw.recvs.filter fun x => isMine x.cmd && x.closed = 0
  let colls := s.stw.colls.filter fun x => isMine x.cmd
  let owned := fun (k : Packet) => (mine.any fun x => x.owns k) || (recvs.any fun x => x.ownsGrant k)
    || colls.any fun x => x.ownsToken k || x.ownsGrant k
  let gone := s.stw.ports.flatMap fun e => (dropPackets owned false e.2.queue).2
  let s := { s with stw := { s.stw with ports := tabMap {} s.stw.ports fun _ q =>
    { q with queue := (dropPackets owned false q.queue).1 } } }
  let s := { s with stw := { s.stw with
    recvs := s.stw.recvs.map fun x => if recvs.any (·.cmd = x.cmd) && gone.any x.ownsGrant then { x with granted := x.got.length } else x
    colls := s.stw.colls.map fun x => if isMine x.cmd then
      { x with owed := x.owed || gone.any x.ownsToken, granted := if gone.any x.ownsGrant then x.got.length else x.granted } else x } }
  foldState mine (fun x s => modSend x (fun y => { y with
    asked := y.asked && !(gone.any fun k => y.owns k && k.kind = 1)
    sends := tabMap 0 y.sends fun o n =>
      if gone.any (fun k => y.owns k && k.kind != 1 && k.offset = o) then n - 1 else n }) s) s

/-- No flit of a job's transfers waits for a credit or an acknowledgement (R373). -/
def fabricIdle (s : State) (j : Nat × Nat) : Bool :=
  let mine := fun (tag : Nat) =>
    decide (64 ≤ tag) && ((tabGet {} s.hif.cmds (tag - 64)).fn, (tabGet {} s.hif.cmds (tag - 64)).ring) = j
  s.stw.ports.all fun e => e.2.queue.all (fun q => !(mine q.1)) && e.2.replay.all fun q => !(mine q.tag)

/-- The ABORT of a message that ends with a failure at its sender (R412). -/
def abortOfSend (x : SendCtx) (info : Nat) : Packet :=
  { kind := 6, dst := x.dest, domain := x.domain, channel := x.channel, mseq := x.mseq, info := info }

/-- The REJECT that answers a message's sender (R412). -/
def rejectTo (dst domain channel mseq info : Nat) : Packet :=
  { kind := 3, dst := dst, domain := domain, channel := channel, mseq := mseq, info := info }

/-- The ABORT that a participant sends round the ring of a collective (R414). -/
def abortOfColl (x : CollCtx) (info : Nat) : Packet :=
  { kind := 6, dst := x.next, domain := x.domain, channel := x.collId, info := info, nbytes := 1
    data := natLe 1 x.collId }

/-- The fabric transfers of a command that ends with a failure dropped, with the messages R412 and R414 ask for; a receiver
stays closed, to reject what follows. -/
def endFabric (c info : Nat) (s : State) : State :=
  let s := foldState (s.stw.sends.filter fun x => x.cmd = c && !x.coll) (fun x s => sendAbort (abortOfSend x info) s) s
  let s := foldState (s.stw.recvs.filter fun x => x.cmd = c && x.closed = 0) (fun x s =>
    match x.msg with
    | none => s
    | some (src, m) => sendPacket (rejectTo src x.domain x.channel m info) s) s
  let s := foldState (s.stw.colls.filter fun x => x.cmd = c) (fun x s => sendAbort (abortOfColl x info) s) s
  { s with stw := { s.stw with
    sends := s.stw.sends.filter fun x => x.cmd != c
    recvs := (s.stw.recvs.filter fun x => x.cmd != c || x.msg.isSome).map fun x =>
      if x.cmd = c ∧ x.closed = 0 then { x with closed := 2 } else x
    colls := s.stw.colls.filter fun x => x.cmd != c } }

end Sys2Proof.Machine
end

