-- ==== Sys2Proof/Machine/Sched.lean ====
section
/-!
DEFINITION. Commands, groups and jobs: how a command ends, what a stop of its engines does, which job of a partition
runs (R362 to R376), the end of a group (R179), semaphores (R173 to R177, R375) and fences (R341).
-/
namespace Sys2Proof.Machine

/-! ### Fields of a fetched command (R335, R338) -/

/-- Bytes `lo` to `lo + n - 1` of the descriptor. -/
def field (x : Cmd) (lo n : Nat) : Nat := bits x.desc.toNat (8 * lo) (8 * n)

def cmdClass (x : Cmd) : Nat := field x 0 1
def cmdConcurrent (x : Cmd) : Bool := bit x.desc.toNat 8
def cmdGroupEnd (x : Cmd) : Bool := bit x.desc.toNat 9

/-- The command is finished: its completion record is due or written. -/
def phaseDone : CmdPhase → Bool
  | .done => true | .reported => true | .none => true | _ => false

/-- The mover that runs a COPY: the lowest-numbered configured one (DESIGN CHOICE, log 22). -/
def chosenMover (s : State) : Option Nat := findFrom (fun m => (moverOf s m).state != .deconfigured) 0 32

/-- Bytes that a mover wrote for a command, and the cycles it moved data for, a free value (R148, log 20). -/
def noteMoved (n : Nat) (s : State) : State :=
  match chosenMover s with
  | none => s
  | some m => if n = 0 then s else
    let (k, s) := draw s
    modMover m (fun y => { y with bytes := y.bytes + BitVec.ofNat 64 n, cycles := satAdd 64 y.cycles k }) s

/-- The COPY commands in progress on mover `m`, by number (R148). -/
def movOpen (s : State) (m : Nat) : List Nat :=
  if chosenMover s = some m then cmdsWhere s fun x => x.phase = .running && cmdClass x = 0x01 else []

/-- A COPY that starts clears the fault registers of its mover (R148). -/
def startMover (x : Cmd) (s : State) : State :=
  if cmdClass x ≠ 0x01 then s
  else match chosenMover s with
    | none => s
    | some m => modMover m (fun y => { y with faultStatus := 0, faultSide := 0, faultCause := 0, faultElem := 0 }) s

/-- Commands of a ring's group, by number. -/
def groupCmds (s : State) (f r g : Nat) : List Nat := cmdsWhere s fun x => x.fn = f && x.ring = r && x.group = g

/-- Commands of a ring fetched and not reported (HIF_RING_STATE.IN_FLIGHT, R327). -/
def inFlight (s : State) (f r : Nat) : List Nat :=
  cmdsWhere s fun x => x.fn = f && x.ring = r && x.phase != .reported && !x.noRecord

/-- A command ends with a status, cause, RESULT, INDEX and NUMFLAGS (R342); a failure fails its group (R153), whether that is
the ring's current one or one that comes later (`endGroup`). -/
def markDone (c : Nat) (st : Status) (cause result index : Nat) (flags : BitVec 4) (s : State) : State :=
  let x := cmdOf s c
  let s := modCmd c (fun x => { x with phase := .done, status := st, cause := cause, result := result, index := index,
                                       flags := flags, waiting := false, waitFor := [] }) s
  let s := if st = .poisonConsumed then lostTo c s else s
  if statusOk st then s
  else modRing x.fn x.ring (fun q => { q with failed := q.failed || decide (x.group = q.curGroup) }) s

/-! ### Engines -/

/-- A command or a core (by the key of `asked`) asks for no sectors any more (R239). -/
def dropAsk (key : Nat) (s : State) : State :=
  { s with mem := { s.mem with
    asked := tabSet none s.mem.asked key none
    serving := tabMap [] s.mem.serving fun _ l => l.filter (· != key) } }

/-- A core leaves its RUN with a status (R116, R122); its queue and stream are dropped. -/
def coreStop (st : Nat) (x : Core) : Core :=
  { x with
    state := if x.state = .deconfigured then .deconfigured else .idle
    run := 0, queue := [], fetchLeft := 0, held := false, suspendReq := false, graceRun := false, keepWait := false
    saving := false, hinted := false, done := false, lastStatus := BitVec.ofNat 8 st }

/-- Cycles spent running (R122): their number is a free value (log 20). -/
def spendCycles (n : Nat) (s : State) : State :=
  let (k, s) := draw s
  modCore n (fun x => { x with cycles := satAdd 64 x.cycles k }) s

/-- Core `n` leaves its RUN with a status; the time it has been running counts (R122). -/
def leaveCore (st n : Nat) (s : State) : State :=
  modCore n (coreStop st) (dropAsk (2 * n + 1) (if (coreOf s n).state = .running then spendCycles n s else s))

/-- Cores that run command `c`. -/
def coresOf (s : State) (c : Nat) : List Nat :=
  (s.saf.cores.filter fun e => e.2.run = c && c != 0).map (·.1)

/-- A sector as the bank delivers it. -/
def sectorData (s : State) (g off : Nat) : BitVec 512 × Bool :=
  let ws := (rangeFrom 0 8).map fun i => readWord s g (off + 8 * i)
  (BitVec.ofNat 512 (leNat (ws.flatMap fun w => natLe 8 w.1)), ws.any fun w => kindPoison w.2)

/-- An access that waited is served: a scrub read, a write, or a read whose sector goes back to the partition. -/
def serveWaiting (g : Nat) (d : Deferred) (s : State) : State :=
  if d.scrub then noteWord 64 g d.off s
  else match d.write with
    | some v => countSectors d.part (g / 512) 1 (writeSector g d.off v s)
    | none =>
      let (v, bad) := sectorData s g d.off
      let s := { s with mem := { s.mem with returned := s.mem.returned ++ [⟨d.part, g, d.off, v, bad⟩] } }
      countSectors d.part (g / 512) 1 (readSectorNote d.part g d.off s)

/-- Bank and offset of the word that MEM_ECC_TEST_ADDR names in the window (R209). -/
def testWord (e : EccTest) : Nat × Nat := chunkLoc true e.pchunk (8 * e.addr.toNat)

/-- A raw access performed (R198): the write, then the read, without encoding or correction. -/
def rawAccess (st : Nat) (write read : Bool) (s : State) : State :=
  let e := eccOf s st
  let (g, off) := testWord e
  let s := if write then putRaw g off e.data.toNat e.check.toNat s else s
  let s := modEcc st (fun e => { e with busy := false }) s
  if read then
    let (x, c) := rawWord s g off
    modEcc st (fun e => { e with data := BitVec.ofNat 64 x, check := BitVec.ofNat 8 c
                                 syndrome := BitVec.ofNat 8 (eccSyndrome x c) }) s
  else s

/-- The raw access that waits for a bank (R198). -/
def serveRaw (g : Nat) (s : State) : State :=
  let e := eccOf s (g / 512)
  if e.en ∧ e.busy ∧ (testWord e).1 = g then rawAccess (g / 512) e.rawWrite e.rawRead s else s

/-- Whether a command or a core still waits for bank `g`. -/
def asksFor (g : Nat) (o : Option (List Nat)) : Bool := match o with | some bs => bs.contains g | none => false

/-- Ordinary accesses that an EXCLUSIVE program deferred are served, in order of arrival (R239); a command or a core that asked for
sectors of the bank waits for it no more, and the bank's program goes on only after the access. -/
def serveDeferred (g : Nat) (s : State) : State :=
  let l := tabGet [] s.mem.deferred g
  let s := { s with mem := { s.mem with
    deferred := tabSet [] s.mem.deferred g []
    serving := tabSet [] s.mem.serving g ((s.mem.asked.filter fun e => asksFor g e.2).map (·.1))
    asked := tabMap none s.mem.asked fun _ o => o.map fun bs => bs.filter (· != g) } }
  serveRaw g (foldState l (serveWaiting g) s)

/-- The program that a Clove runs: the first admitted one that no suspension holds (R235, R244). -/
def runningProg (x : Clove) : Option CloveProg := x.progs.find? fun q => !q.suspended

/-! ### Accesses that wait (R201, R239) -/

/-- The running program is EXCLUSIVE and its window holds the range: ordinary accesses are deferred (R239). -/
def windowDefers (s : State) (g off n : Nat) : Bool :=
  match (if (cloveOf s g).state = .running then runningProg (cloveOf s g) else none) with
  | none => false
  | some q => q.excl && decide (q.wbase < off + n ∧ off ≤ q.wlim)

/-- The chunk is being moved: its accesses are held (R201). -/
def chunkMoving (s : State) (k : Nat) : Bool := s.mem.moves.any fun m => m.chunk = k

/-- A range of a partition's device memory lies in a chunk that is being moved. -/
def devMoving (s : State) (p : Nat) (l : List (Nat × Nat)) : Bool :=
  !s.mem.moves.isEmpty && l.any fun e => (unitsOf (2 ^ 21) e.1 e.2).any fun a =>
    match chunkOf s p (a / 2 ^ 21) with
    | none => false
    | some c => chunkMoving s c.pchunk

/-- The banks of the sectors of some ranges that EXCLUSIVE programs defer, one for each sector. -/
def devDeferred (s : State) (p : Nat) (l : List (Nat × Nat)) : List Nat :=
  (l.flatMap fun e => unitsOf 64 e.1 e.2).eraseDups.filterMap fun a =>
    match devLoc s p a with
    | none => none
    | some (g, off) => if windowDefers s g off 64 then some g else none

/-- Sectors that a partition may move in a window of a stack: its budget, from the share in force there (R206). -/
def bwBudget (s : State) (p st : Nat) : Nat := tabGet 0 s.mem.shareNow (st * 64 + p) % 2 ^ 16 * 125 / 4

/-- A partition with CAP = 1 that is not within its budget: it waits for the next window (R207). -/
def bwWaits (s : State) (p st : Nat) : Bool :=
  decide (2 ^ 16 ≤ tabGet 0 s.mem.shareNow (st * 64 + p)) && decide (bwBudget s p st ≤ tabGet 0 s.mem.bwUsed (st * 64 + p))

/-- A range reaches a stack where the partition is capped and over its budget (R207). -/
def devCapped (s : State) (p : Nat) (l : List (Nat × Nat)) : Bool :=
  (rangeFrom 0 8).any fun st => bwWaits s p st && (l.flatMap fun e => unitsOf 64 e.1 e.2).any fun a =>
    match devLoc s p a with
    | none => false
    | some (g, _) => g / 512 = st

/-- A range of a partition's far memory lies behind a port that retrains: its accesses are held (R215). -/
def farHeldAt (s : State) (p : Nat) (l : List (Nat × Nat)) : Bool :=
  (s.mem.farPorts.any fun e => e.2.retraining) && l.any fun e =>
    (unitsOf 4096 (farAddr s p e.1) e.2).any fun a => (farPortOf s (farPortAt s a)).retraining

/-- The accesses of a command or a core to ranges of device memory and of far memory (R201, R207, R215, R239): while a chunk of theirs is
moved or a port of theirs retrains they are held, and while their partition is capped and over its budget they wait for the next window;
those that EXCLUSIVE programs defer are counted and served at the yield points of their banks; then `go`. -/
def withAccess (key p : Nat) (l far : List (Nat × Nat)) (go : State → State) (s : State) : State :=
  if devMoving s p l ∨ devCapped s p l ∨ farHeldAt s p far then notTaken s
  else match tabGet none s.mem.asked key with
    | some [] => go (dropAsk key s)
    | some _ => notTaken s
    | none =>
      let banks := devDeferred s p l
      if banks = [] then go s
      else
        let s := { s with mem := { s.mem with asked := tabSet none s.mem.asked key (some banks.eraseDups) } }
        foldState banks (fun g s => modClove g (fun x => { x with deferredCount := satAdd 64 x.deferredCount 1 }) s) s

/-- Whether such accesses can be made now. -/
def accessNow (key p : Nat) (l far : List (Nat × Nat)) (s : State) : Bool :=
  !(devMoving s p l || devCapped s p l || farHeldAt s p far) && match tabGet none s.mem.asked key with
    | some bs => bs.isEmpty
    | none => (devDeferred s p l).isEmpty

/-- `f` as far as it can go now: nothing where it is not taken. -/
def goOn (f : State → State) (s : State) : State := let t := f s; if t.reply = .notTaken then s else t

/-- A program that becomes the running one for the first time starts with its Clove's fault registers clear (R252); a Clove
whose order is empty is idle. -/
def cloveFront (x : Clove) : Clove :=
  if x.state = .off then x
  else match runningProg x with
    | none => { x with state := .idle }
    | some q =>
      if q.started then { x with state := .running }
      else
        let ps := x.progs.map fun p => if p.cmd = q.cmd then { p with started := true } else p
        { x with state := .running, faultStatus := 0, faultCause := 0, faultPc := 0, poison := false, progs := ps }

/-- A Clove without the programs of command `c`, which end with a status (R245, R252): nothing of them is saved. -/
def cloveDrop (st : Status) (c : Nat) (x : Clove) : Clove :=
  cloveFront { x with
    progs := x.progs.filter fun q => q.cmd != c
    waiting := x.waiting.filter fun q => q.cmd != c
    lastStatus := if x.progs.any (fun q => q.cmd = c) then BitVec.ofNat 8 (statusCode st) else x.lastStatus
    forcedPending := x.forcedPending && (runningProg x).map (·.cmd) != some c }

/-- The words of a save area that a restoration reads, as ranges of the bank (R242, R243). -/
def saveRanges (q : CloveProg) (m : SavedImage) : List (Nat × Nat) :=
  [(q.save, m.live), (q.save + 0x10000, 0x4000), (q.save + 0x16000, 0x1000)] ++ if m.accs then [(q.save + 0x14000, 0x2000)] else []

/-- The running program of Clove `g` is switched in: the errors of the words that its restoration reads are reported, once (R196, R242). -/
def switchIn (g : Nat) (s : State) : State :=
  match (runningProg (cloveOf s g)).bind fun q => q.saved.map fun m => (q, m) with
  | none => s
  | some (q, m) =>
    if m.noted then s
    else modClove g (fun x => { x with
        progs := x.progs.map fun p => if p.cmd = q.cmd then { p with saved := some { m with noted := true } } else p })
      (foldState ((saveRanges q m).flatMap fun r => unitsOf 8 r.1 r.2) (fun a s => noteWord q.part g a s) s)

/-- Bytes of a bank that are unspecified from now on: free values (R245). -/
def freeBank (g off n : Nat) (s : State) : State :=
  let free := s.freeCtr
  foldState (unitsOf 8 off n) (fun a s => writeWord g a 0 ((rangeFrom a 8).map (Config.freeByte free)) s)
    { s with freeCtr := s.freeCtr + 1 }

/-- The window and the save area of a program that ended with CANCELLED or FUNCTION_RESET (R245). -/
def freeProgram (g : Nat) (q : CloveProg) (s : State) : State :=
  freeBank g q.save 0x18000 (freeBank g q.wbase (q.wlim + 1 - q.wbase) s)

/-- The programs of a command discarded, with what they leave behind (R245). -/
def discardPrograms (st : Status) (c : Nat) (s : State) : State :=
  let hit := (s.clv.clove.filter fun e => e.2.progs.any (·.cmd = c) || e.2.waiting.any (·.cmd = c)).map (·.1)
  foldState hit (fun g s =>
    let gone := ((cloveOf s g).progs ++ (cloveOf s g).waiting).filter fun q => q.cmd = c
    let s := switchIn g (serveDeferred g (modClove g (cloveDrop st c) s))
    if st = .cancelled ∨ st = .functionReset then foldState gone (freeProgram g) s else s) s

/-- The command behind a wait: the SEM_WAIT, or the RUN of a WAIT word. -/
def waitCmd : WaitName → Nat
  | .command c => c
  | .word c _ => c

/-- The core images of a partition: those of its jobs' images, and the indices put aside (R369, R466). -/
def keptImages (s : State) (p : Nat) : List CoreImage :=
  (partOf s p).images.flatMap (·.cores) ++ (partOf s p).swapped.map (·.2)

/-- Nothing of RUN `c` is left in a core image but the scratchpad. -/
def leaveImage (c : Nat) (y : CoreImage) : CoreImage :=
  if y.core.run = c then { y with core := { pidx := y.core.pidx, part := y.core.part } } else y

/-- The indices of a RUN that stand in its job's image or aside leave it. -/
def leaveKept (c : Nat) (s : State) : State :=
  let p := homeOf s (cmdOf s c).fn
  if (keptImages s p).any fun y => y.core.run = c then
    modPart p (fun q => { q with
      images := q.images.map fun m => { m with cores := m.cores.map (leaveImage c) }
      swapped := q.swapped.map fun e => (e.1, leaveImage c e.2) }) s
  else s

/-- The cores that serve the indices of a RUN whose job's image holds it. -/
def imageCores (s : State) (c : Nat) : List Nat :=
  let p := homeOf s (cmdOf s c).fn
  ((partOf s p).images.flatMap (·.cores)).filterMap fun y => if y.core.run = c then physCore s p y.core.pidx else none

/-- Every core of a RUN leaves it with a status (R116, R122): those that run it, and the indices in its job's image or aside. -/
def stopCores (st : Status) (c : Nat) (s : State) : State :=
  let code := statusCode st
  let kept := imageCores s c
  let s := foldState (coresOf s c) (leaveCore code) s
  let s := foldState kept (fun n s => modCore n (fun x => { x with lastStatus := BitVec.ofNat 8 code }) s) s
  leaveKept c s

/-- A COPY that ends before its work does leaves its status with its mover (R148). -/
def stopMover (st : Status) (c : Nat) (s : State) : State :=
  if ¬((cmdOf s c).phase = .running ∧ cmdClass (cmdOf s c) = 0x01) then s
  else match chosenMover s with
    | none => s
    | some m => modMover m (fun y => { y with lastStatus := BitVec.ofNat 8 (statusCode st) }) s

/-- Every engine that works for command `c` stops at its step boundary: cores, Clove programs, waits, fabric transfers
(R153, R177, R245, R412). -/
def stopCmd (st : Status) (c : Nat) (s : State) : State :=
  let s := stopMover st c (stopCores st c s)
  let s := dropAsk (2 * c) { s with sem := { s.sem with waiters := s.sem.waiters.filter fun w => waitCmd w.who != c } }
  endFabric c (cmdOf s c).cause (discardPrograms st c s)

/-- A command discarded with a status, its engines stopped. -/
def discardCmd (st : Status) (c : Nat) (s : State) : State := markDone c st 0 0 0 0 (stopCmd st c s)

/-- A job's save image is discarded (R372); a job that was SUSPENDED has nothing to resume and is READY. -/
def dropImage (f r : Nat) (s : State) : State :=
  let p := homeOf s f
  let s := modPart p (fun q => { q with images := q.images.filter fun m => !(m.fn = f && m.ring = r) }) s
  modRing f r (fun q => { q with job := if q.job = .suspended then .ready else q.job }) s

/-- Every command of a ring's group that has not ended completes with CANCELLED, and a save image of the group is of no
further use (R153). -/
def cancelGroup (f r g : Nat) (s : State) : State :=
  let l := (groupCmds s f r g).filter fun c => !phaseDone (cmdOf s c).phase
  let s := foldState l (fun c s => discardCmd .cancelled c s) s
  if g = (ringOf s f r).curGroup then dropImage f r s else s

/-- An index put aside (R466) with nothing of a group left in it. -/
def clearAside (e : Nat × CoreImage) : Nat × CoreImage := (e.1, { core := { pidx := e.1 } })

/-- Scratchpads, accumulators, address generators, anchor registers and staging regions of a partition emptied
(R179, R180). -/
def drainEngines (p : Nat) (s : State) : State :=
  let s := foldState (partCores s p) (fun n s =>
    modSpad n (fun _ => {}) (modCore n (fun x => { x with tiles := [], ags := [], ancs := [], accLive := false }) s)) s
  let s := modPart p (fun q => { q with swapped := q.swapped.map clearAside }) s
  emptyStaging p s

/-! ### Jobs (R362 to R376) -/

/-- The jobs of a partition in order of function number and ring number. -/
def jobsOf (s : State) (p : Nat) : List (Nat × Nat) :=
  (s.hif.fn.filter fun e => homeOf s e.1 = p).flatMap fun e => e.2.rings.map fun q => (e.1, q.1)

/-- The job's class: the more urgent of its own and an inherited one (R363). -/
def effClass (q : Ring) : Nat :=
  match q.inherited with
  | none => q.cls.toNat
  | some c => if c.toNat < q.cls.toNat then c.toNat else q.cls.toNat

def jobRing (s : State) (j : Nat × Nat) : Ring := ringOf s j.1 j.2
def modJob (j : Nat × Nat) (g : Ring → Ring) (s : State) : State := modRing j.1 j.2 g s

def jobLt (a b : Nat × Nat) : Bool := decide (a.1 < b.1) || (a.1 = b.1 && decide (a.2 < b.2))

/-- Jobs that can be chosen (R364). -/
def readyJobs (s : State) (p : Nat) : List (Nat × Nat) :=
  (jobsOf s p).filter fun j => (jobRing s j).job = .ready || (jobRing s j).job = .suspended

def minClass (s : State) (l : List (Nat × Nat)) : Nat :=
  l.foldl (fun m j => if effClass (jobRing s j) < m then effClass (jobRing s j) else m) 4

/-- The most urgent READY or SUSPENDED job, round-robin within its class after the last of that class that ran (R364). -/
def pickJob (s : State) (p : Nat) : Option (Nat × Nat) :=
  let l := readyJobs s p
  let m := minClass s l
  let l := l.filter fun j => effClass (jobRing s j) = m
  let last := tabGet (1026, 16) (partOf s p).lastRun m
  match l.find? fun j => jobLt last j with
  | some j => some j
  | none => l.head?

/-- A job that runs is the last of its class that ran (R364), and has run in this interval (R423). -/
def noteRun (p : Nat) (j : Nat × Nat) (s : State) : State :=
  let m := effClass (jobRing s j)
  modPart p (fun q => { q with lastRun := tabSet (1026, 16) q.lastRun m j, ran := q.ran.filter (· != j) ++ [j] }) s

/-- With no job running, the chosen one runs, or is named to be resumed when it holds an image (R364, R371). -/
def startNext (p : Nat) (s : State) : State :=
  if (partOf s p).running.isSome then s
  else match pickJob s p with
    | none => modPart p (fun q => { q with next := none }) s
    | some j =>
      if (jobRing s j).job = .ready then
        noteRun p j (modPart p (fun q => { q with
          running := some j, next := none, pendingStop := 0, pendingHold := false, pendingWait := false, woken := false })
          (modJob j (fun q => { q with job := .running }) s))
      else modPart p (fun q => { q with next := some j }) s

/-- The running job leaves nothing on the engines: no command of its group has started but a wait (R365, R366). -/
def engineClean (s : State) (j : Nat × Nat) : Bool :=
  (groupCmds s j.1 j.2 (jobRing s j).curGroup).all fun c =>
    let x := cmdOf s c
    x.phase = .fetched || (x.phase = .running && x.waiting && (cmdClass x = 0x21 || cmdClass x = 0x22))

/-- A Clove's programs of command `c` leave its round-robin order: those that wait or are switched out at once, the running
one at its next yield point (R244). -/
def cloveHold (c : Nat) (x : Clove) : Clove :=
  let now := runningProg x
  let hold := fun (q : CloveProg) => if q.cmd = c && some q != now then { q with suspended := true } else q
  { x with progs := x.progs.map hold, waiting := x.waiting.map fun q => if q.cmd = c then { q with suspended := true } else q }

def holdPrograms (c : Nat) (s : State) : State :=
  { s with clv := { s.clv with clove := tabMap {} s.clv.clove fun _ x => cloveHold c x } }

/-- The stop of a running job begins (R367, R369): its cores are asked to stop within their grace. -/
def beginStop (p reason : Nat) (j : Nat × Nat) (s : State) : State :=
  let s := fabricStop j (modJob j (fun q => { q with job := .suspending }) s)
  let s := modPart p (fun q => { q with pendingStop := 0, pendingHold := false, pendingWait := reason = 3, woken := false }) s
  foldState (groupCmds s j.1 j.2 (jobRing s j).curGroup) (fun c s =>
    let s := holdPrograms c s
    let g := Nat.min (field (cmdOf s c) 32 4) 120000
    foldState (coresOf s c) (fun n s =>
      modCore n (fun x =>
        if x.state = .running ∧ ¬x.done then
          { x with suspendReq := true, grace := g, graceRun := true, keepWait := reason = 3 } else x) s) s) s

/-- A stop of the running job for a reason (1 more urgent job, 2 slice, 3 wait): at once where it leaves nothing on the
engines, into a free save slot, or pending (R365 to R369), beside the pending stops there are: of 1 and 2 the one whose decision stands
whenever the other's does is kept. A stop made while one for a wait is pending makes the job WAITING. -/
def requestStop (p reason : Nat) (s : State) : State :=
  match (partOf s p).running with
  | none => s
  | some j =>
    let wait := decide (reason = 3) || (partOf s p).pendingHold
    if (jobRing s j).job ≠ .running then s
    else if p = 64 ∨ engineClean s j then
      startNext p (modPart p (fun q => { q with running := none, pendingStop := 0, pendingHold := false })
        (modJob j (fun q => { q with job := if wait then .waiting else .ready }) s))
    else if (partOf s p).images.length < (partOf s p).saveSlots then beginStop p (if wait then 3 else reason) j s
    else if reason = 3 then modPart p (fun q => { q with pendingHold := true }) s
    else modPart p (fun q => { q with pendingStop := Nat.max q.pendingStop reason }) s

/-- The decision of R364 when a job becomes READY or SUSPENDED, or the engines fall free. -/
def schedule (p : Nat) (s : State) : State :=
  match (partOf s p).running with
  | none => startNext p s
  | some j =>
    if minClass s (readyJobs s p) < effClass (jobRing s j) then requestStop p 1 s else s

/-- A job that waits can go on (R365): READY, or SUSPENDED with an image. While the stop for its wait is in progress the job is not
WAITING yet, and will not be; while that stop is pending, it is withdrawn. -/
def wakeJob (j : Nat × Nat) (s : State) : State :=
  let p := homeOf s j.1
  match (jobRing s j).job with
  | .waiting =>
    let img := (partOf s p).images.any fun m => m.fn = j.1 && m.ring = j.2
    let s := modJob j (fun q => { q with job := if img then .suspended else .ready }) s
    schedule p s
  | .suspending => modPart p (fun q => { q with woken := q.pendingWait }) s
  | .running => modPart p (fun q => { q with pendingHold := false }) s
  | _ => s

/-! ### Priority inheritance (R375, R376) -/

/-- The job behind a wait. -/
def waiterJob (w : Waiter) : Nat × Nat := (w.fn, w.ring)

/-- The classes that holders of a semaphore inherit from the waits on it, one job further: that of the waiter's job, as it is before,
when more urgent than theirs. -/
def inheritOnce (p : Nat) (s0 : State) : State :=
  foldState (s0.sem.waiters.filter fun w => homeOf s0 w.fn = p) (fun w s =>
    let m := effClass (jobRing s0 (waiterJob w))
    foldState (s.sem.holders.filter fun h => h.sem = w.sem) (fun h s =>
      modRing h.fn h.ring (fun q => if m < effClass q then { q with inherited := some (BitVec.ofNat 2 m) } else q) s) s) s0

/-- Inherited classes of a partition's jobs computed anew, to a depth of 8 (R376), and the decision of R364 made. -/
def reinherit (p : Nat) (s : State) : State :=
  let s := foldState (jobsOf s p) (fun j s => modJob j (fun q => { q with inherited := none }) s) s
  schedule p (iter (fun _ s => inheritOnce p s) 0 8 s)

/-- Whether a wait causes inheritance at present: some holder's own class is less urgent (R376, R377). -/
def inheriting (s : State) (w : Waiter) : Bool :=
  s.sem.holders.any fun h => h.sem = w.sem && (h.fn, h.ring) != waiterJob w
    && decide (effClass (jobRing s (waiterJob w)) < (ringOf s h.fn h.ring).cls.toNat)

/-! ### Semaphores (R173 to R177) -/

def semVal (s : State) (n : Nat) : Nat := (tabGet 0 s.sem.values n).toNat

def setSem (n v : Nat) (s : State) : State :=
  { s with sem := { s.sem with values := tabSet 0 s.sem.values n (BitVec.ofNat 32 v) } }

/-- The global number of a partition's semaphore, inside its range (R178). -/
def semNum (s : State) (p i : Nat) : Option Nat :=
  if i < (partOf s p).semCount then some ((partOf s p).semBase + i) else none

/-- Semaphores of a partition with a value or a waiter (R378). -/
def semUse (s : State) (p : Nat) : Nat :=
  let q := partOf s p
  ((rangeFrom q.semBase q.semCount).filter fun n => semVal s n != 0 || s.sem.waiters.any fun w => w.sem = n).length

/-- A satisfied WAIT word leaves the head of a core's queue (R110), or the head of the stream that a resumed core has yet to
fetch again (R119). -/
def popWait (x : Core) : Core :=
  if x.queue = [] then
    { x with fetchAddr := x.fetchAddr + 64, fetchOff := x.fetchOff + 64, fetchLeft := x.fetchLeft - 1, held := false
             semSeen := x.semSeen + 1 }
  else { x with queue := x.queue.drop 1, held := false, semSeen := x.semSeen + 1 }

/-- The core on which the WAIT word of RUN `c` on partition core index `i` holds issue. -/
def wordCore (s : State) (c i : Nat) : Option Nat :=
  (s.saf.cores.find? fun e => e.2.run = c && e.2.pidx = i && e.2.held).map (·.1)

/-- The WAIT word of RUN `c` on index `i` leaves its queue in every image that keeps it. -/
def popImage (c i : Nat) (y : CoreImage) : CoreImage :=
  if y.core.run = c ∧ y.core.pidx = i ∧ y.core.held then { y with core := popWait y.core } else y

/-- One more semaphore operation of a RUN's words applied for partition core index `i` (R177). -/
def noteSemOp (c i : Nat) (s : State) : State :=
  modCmd c (fun x => { x with semDone := tabMod 0 x.semDone i (· + 1) }) s

/-- A wait is satisfied (R174): it leaves the list, its job holds the semaphore when it consumed, and what waited goes
on: a SEM_WAIT completes, a WAIT word leaves the queue of its core or of the image that keeps it (R365); source 192 + p when the job
was WAITING (R446). -/
def satisfy (w : Waiter) (s : State) : State :=
  let p := homeOf s w.fn
  let s := if (jobRing s (waiterJob w)).job = .waiting ∧ p < 64 then raise (192 + p) s else s
  let s := { s with sem := { s.sem with
    waiters := s.sem.waiters.erase w
    holders := if w.consume then { sem := w.sem, fn := w.fn, ring := w.ring } :: s.sem.holders.filter (fun h =>
      !(h.sem = w.sem && h.fn = w.fn && h.ring = w.ring)) else s.sem.holders } }
  match w.who with
  | .command c =>
    if (cmdOf s c).phase ≠ .running then s
    else wakeJob (waiterJob w) (modCmd c (fun x => { x with applied := true }) (markDone c .ok 0 0 0 0 s))
  | .word c i =>
    match wordCore s c i with
    | some n => wakeJob (waiterJob w) (noteSemOp c i (modCore n popWait (spendCycles n s)))
    | none =>
      wakeJob (waiterJob w) (noteSemOp c i (modPart p (fun q => { q with
        images := q.images.map fun m => { m with cores := m.cores.map (popImage c i) }
        swapped := q.swapped.map fun e => (e.1, popImage c i e.2) }) s))

/-- Waits on semaphore `n` after its value changed (R174): every non-consuming one that the value meets, then consuming
ones in order of arrival until one is not met. -/
def settleSem (n : Nat) (s : State) : State :=
  let mine := s.sem.waiters.filter fun w => w.sem = n
  let s := foldState (mine.filter fun w => !w.consume && decide (w.value ≤ semVal s n)) satisfy s
  (mine.filter fun w => w.consume).foldl
    (fun (st : State × Bool) w =>
      if st.2 && decide (w.value ≤ semVal st.1 n) then (satisfy w (setSem n (semVal st.1 n - w.value) st.1), true)
      else (st.1, false))
    (s, true) |>.1

/-- Waits of a partition when others have been abandoned since `s0`: those that an abandoned one held back and that are met
are served (R174), and inheritance is computed anew (R376). -/
def settleWaits (p : Nat) (s0 s : State) : State :=
  if s.sem.waiters = s0.sem.waiters then s
  else reinherit p (foldState ((s.sem.waiters.filter fun w => homeOf s w.fn = p).map (·.sem)) settleSem s)

/-- An add (R174, R109): the value saturates, the adding job holds the semaphore no longer (R375), waits are settled. -/
def semAdd (n v : Nat) (j : Nat × Nat) (s : State) : State :=
  let x := Nat.min (semVal s n + v) (2 ^ 32 - 1)
  let s := { setSem n x s with sem := { (setSem n x s).sem with
    holders := s.sem.holders.filter fun h => !(h.sem = n && h.fn = j.1 && h.ring = j.2) } }
  reinherit (homeOf s j.1) (settleSem n s)

/-- A consuming wait satisfied at once makes its job a holder, to which waits on the semaphore may pass on their classes (R376). -/
def inheritNew (w : Waiter) (s : State) : State :=
  if w.consume ∧ s.sem.waiters.any fun v => v.sem = w.sem then reinherit (homeOf s w.fn) s else s

/-- A wait arrives (R174): satisfied at once when its threshold is met and no earlier consuming wait holds it back,
otherwise registered. Answers whether it was satisfied. -/
def semWaitNow (w : Waiter) (s : State) : Bool × State :=
  let blocked := w.consume && s.sem.waiters.any fun v => v.sem = w.sem && v.consume
  if ¬blocked ∧ w.value ≤ semVal s w.sem then
    let s := if w.consume then setSem w.sem (semVal s w.sem - w.value) s else s
    (true, inheritNew w { s with sem := { s.sem with
      holders := if w.consume then { sem := w.sem, fn := w.fn, ring := w.ring } :: s.sem.holders.filter (fun h =>
        !(h.sem = w.sem && h.fn = w.fn && h.ring = w.ring)) else s.sem.holders } })
  else (false, { s with sem := { s.sem with waiters := s.sem.waiters ++ [w] } })

/-! ### Fences (R341) -/

/-- A FENCE whose commands have all completed. -/
def fenceFree (s : State) (x : Cmd) : Bool :=
  x.phase = .running && x.waiting && cmdClass x = 0x22 && x.waitFor.all fun d => phaseDone (cmdOf s d).phase

/-- Fences that can complete do, one after another (R341). -/
def settleFences : Nat → State → State
  | 0, s => s
  | k + 1, s =>
    match s.hif.cmds.find? fun e => fenceFree s (cmdOf s e.1) with
    | none => s
    | some (c, _) => settleFences k (wakeJob ((cmdOf s c).fn, (cmdOf s c).ring) (markDone c .ok 0 0 0 0 s))

/-- A command ends, and fences that waited for it are settled. -/
def finish (c : Nat) (st : Status) (cause result index : Nat) (flags : BitVec 4) (s : State) : State :=
  let s := markDone c st cause result index flags s
  settleFences s.hif.cmds.length s

/-- A command ends with OK and the values R342 lists; with a failure status and cause. -/
def finishOk (c result : Nat) (s : State) : State := finish c .ok 0 result 0 0 s
def fail (c : Nat) (st : Status) (cause : Nat) (s : State) : State := finish c st cause 0 0 0 s

/-! ### Fabric commands end and go on (R371, R373, R374, R403, R407, R412) -/

/-- A fabric command ends with a failure: the peers hear of it (R412, R414), its job goes on. -/
def fabEnd (c : Nat) (st : Status) (cause : Nat) (flags : BitVec 4) (s : State) : State :=
  let x := cmdOf s c
  wakeJob (x.fn, x.ring) (finish c st cause 0 0 flags (endFabric c cause s))

/-- Something of a message or step is admitted and has not been sent. -/
def SendCtx.unsent (x : SendCtx) : Bool :=
  (!x.coll && !x.asked) || x.admitted.any fun e => tabGet 0 x.sends e.1 = 0

/-- Admitted packets of a message or step are sent, or its command ends: without a usable route (R403), or with no mover to read them
(R16, R123). -/
def pushOrFail (x : SendCtx) (s : State) : State :=
  if ¬x.unsent then s
  else if (usableRoute s x.dest).isNone then fabEnd x.cmd .unrecovered 0x850 0 s
  else if (chosenMover s).isNone then fabEnd x.cmd .unrecovered 0x150 0 s
  else pushSend x s

/-- A job that runs again issues its grants and sends what it was granted; its collectives are reissued. -/
def fabricResume (j : Nat × Nat) (s : State) : State :=
  let mine := fun (c : Nat) => decide (((cmdOf s c).fn, (cmdOf s c).ring) = j)
  let s := foldState (s.stw.sends.filter fun x => mine x.cmd && !x.coll) pushOrFail s
  let s := foldState (s.stw.recvs.filter fun x => mine x.cmd) grantRecv s
  { s with stw := { s.stw with colls := s.stw.colls.map fun x => if mine x.cmd then { x with again := true } else x } }

/-! ### The end of a group (R153, R179) -/

/-- More of the ring's work is fetched beyond its current group. -/
def moreWork (q : Ring) : Bool := decide (q.curGroup + 1 < q.fetchGroup) || (q.curGroup + 1 = q.fetchGroup && q.fetchLen != 0)

/-- The current group of a ring has ended (R179, R364, R384): the job goes on with its next group, or the engines go to
another job. -/
def endGroup (f r : Nat) (s : State) : State :=
  let q := ringOf s f r
  let p := homeOf s f
  let s := { s with hif := { s.hif with cmds := tabDrop s.hif.cmds fun c =>
    let x := cmdOf s c
    x.fn = f && x.ring = r && x.group = q.curGroup } }
  let s := endRecovery (f, r) (if q.recOutcome = 0 then outNoEffect else q.recOutcome) s
  let bad := (groupCmds s f r (q.curGroup + 1)).any fun c => phaseDone (cmdOf s c).phase && !statusOk (cmdOf s c).status
  let s := modRing f r (fun q => { q with curGroup := q.curGroup + 1, completed := satAdd 64 q.completed 1, failed := bad,
                                          drained := false, runs := 1, wrote := [] }) s
  let more := moreWork q
  if (partOf s p).running = some (f, r) then
    let leave := !more || q.job = .suspending || (partOf s p).pendingStop = 2
      || decide (minClass s (readyJobs s p) < effClass (ringOf s f r))
    if leave then
      startNext p (modPart p (fun q => { q with running := none, pendingStop := 0, pendingHold := false, pendingWait := false, woken := false })
        (modRing f r (fun q => { q with job := if more then .ready else .idle }) s))
    else modPart p (fun q => { q with pendingStop := 0 }) s
  else startNext p (modRing f r (fun q => { q with job := if more then (if q.job = .waiting then .ready else q.job) else .idle }) s)

/-- A job gives up the engines for good: its cores stop, its scratchpads and staging are emptied (R355, R334), its image
is discarded (R372), a recovery of its group stops with NO_EFFECT (R470). -/
def dropJob (f r : Nat) (s : State) : State :=
  let p := homeOf s f
  let s := modPart p (fun q => { q with images := q.images.filter fun m => !(m.fn = f && m.ring = r) }) s
  let s := { s with sem := { s.sem with holders := s.sem.holders.filter (fun h => !(h.fn = f && h.ring = r))
                                        waiters := s.sem.waiters.filter (fun w => !(w.fn = f && w.ring = r)) } }
  let s := modRing f r (fun q => { q with job := .idle, inherited := none, wrote := [] }) (endRecovery (f, r) outNoEffect s)
  let s := if (partOf s p).next = some (f, r) then modPart p (fun q => { q with next := none }) s else s
  if (partOf s p).running = some (f, r) then
    startNext p (modPart p (fun q => { q with running := none, pendingStop := 0, pendingHold := false, pendingWait := false, woken := false })
      (drainEngines p s))
  else startNext p s

end Sys2Proof.Machine
end

