-- ==== Sys2Proof/Machine/PowOps.lean ====
section
/-!
DEFINITION. Sensor classes, thresholds and states (R431 to R433), refresh bands (R204), the effective limit (R424), and
the idle states a device may enter (R440, R441).
-/
namespace Sys2Proof.Machine

/-- Class of sensor n (R431, R443): 0 compute, 1 hub, 2 DRAM, 3 base, 4 regulator, 5 coolant. -/
def sensorClass (n : Nat) : Nat :=
  if n < 32 then 0 else if n < 36 then 1
  else if n < 180 then (if (n - 36) % 18 < 16 then 2 else 3)
  else if n < 184 then 4 else 5

/-- Warning, throttle and shutdown thresholds in 1/16 °C (R432); none for coolant. -/
def thresholds (cls : Nat) : Option (Int × Int × Int) :=
  match cls with
  | 0 => some (95 * 16, 105 * 16, 118 * 16)
  | 1 => some (95 * 16, 105 * 16, 118 * 16)
  | 2 => some (90 * 16, 100 * 16, 110 * 16)
  | 3 => some (90 * 16, 100 * 16, 110 * 16)
  | 4 => some (115 * 16, 125 * 16, 135 * 16)
  | _ => none

/-- A reading outside −40 °C to 150 °C (R433). -/
def readingBroken (t : Int) : Bool := decide (t < -40 * 16 ∨ 150 * 16 < t)

/-- A reading that stops the module: at or above shutdown (R437). -/
def readingStops (n : Nat) (t : Int) : Bool :=
  match thresholds (sensorClass n) with
  | none => false
  | some (_, _, d) => decide (d ≤ t)

/-- The state after a reading, with 5 °C of hysteresis (R432); a broken sensor stays broken. -/
def sensorNext (n : Nat) (old : SensorState) (t : Int) : SensorState :=
  if old = .broken ∨ readingBroken t then .broken
  else match thresholds (sensorClass n) with
    | none => .normal
    | some (w, h, _) =>
      if h ≤ t ∨ (old = .throttle ∧ h - 80 ≤ t) then .throttle
      else if w ≤ t ∨ (old ≠ .normal ∧ w - 80 ≤ t) then .warning
      else .normal

def sensorNums : List Nat := rangeFrom 0 186

/-- Some sensor in WARNING or above: THM_STATUS.WARN (R443). -/
def anyWarn (s : State) : Bool := sensorNums.any fun n => sensorClass n != 5 && (sensorOf s n).state != .normal

def anyThrottle (s : State) : Bool := sensorNums.any fun n => (sensorOf s n).state = .throttle

/-- A compute or hub sensor in WARNING or above (R426, R434). -/
def boostBarred (s : State) : Bool := (rangeFrom 0 36).any fun n => (sensorOf s n).state != .normal

def coolantBroken (s : State) : Bool := (sensorOf s 184).state = .broken || (sensorOf s 185).state = .broken

def tempOf (s : State) (n : Nat) : Int := (sensorOf s n).temp.toInt

/-- Margin of a sensor to its throttle threshold. -/
def margin (s : State) (n : Nat) : Option Int :=
  match thresholds (sensorClass n) with
  | none => none
  | some (_, h, _) => some (h - tempOf s n)

/-- The sensor with the least margin, the lowest-numbered of several (THM_STATUS.HOT, R443; log 21). -/
def hottest (s : State) : Nat :=
  (sensorNums.foldl (fun (b : Nat × Option Int) n =>
    match margin s n, b.2 with
    | some m, some k => if m < k then (n, some m) else b
    | some m, none => (n, some m)
    | none, _ => b) (0, none)).1

/-- The refresh band a stack's hottest DRAM reading calls for, from the band it is in (R204). -/
def bandNext (old : Nat) (t : Int) : Nat :=
  let up := if 95 * 16 ≤ t then 2 else if 85 * 16 ≤ t then 1 else 0
  if old ≤ up then up
  else if old = 2 then (if t ≤ 90 * 16 then (if t ≤ 80 * 16 then 0 else 1) else 2)
  else (if t ≤ 80 * 16 then 0 else 1)

/-- The hottest DRAM-die reading of a stack (R204, R431). -/
def hottestDram (s : State) (st : Nat) : Int :=
  (rangeFrom (36 + 18 * st) 16).foldl (fun m n => if m < tempOf s n then tempOf s n else m) (tempOf s (36 + 18 * st))

/-- The effective limit in W (R424). -/
def effLimit (s : State) : Nat :=
  match s.pwr.tl with
  | none => s.pwr.cap.toNat
  | some t => Nat.min s.pwr.cap.toNat t

/-! ### Idle states (R440, R441) -/

/-- The idle state's code (R443). -/
def idleCode : IdleState → Nat
  | .active => 0 | .idle1 => 1 | .idle2 => 2 | .idle3 => 3 | .hibernate => 4

def idleOf : Nat → IdleState
  | 0 => .active | 1 => .idle1 | 2 => .idle2 | 3 => .idle3 | _ => .hibernate

/-- Every Stawa port DOWN or FAILED. -/
def portsQuiet (s : State) : Bool :=
  (rangeFrom 0 8).all fun pt => (portOf s pt).state = .down || (portOf s pt).state = .failed

def noPartition (s : State) : Bool := (rangeFrom 0 64).all fun p => (partOf s p).state = .none

/-- The deepest permitted idle state by code (R441). -/
def permitted (s : State) : Nat :=
  let l := s.pwr.latency.toNat
  if l < 5 then 0 else if l < 200 then 1
  else if l < 20000 ∨ ¬portsQuiet s then 2
  else if l < 2000000 ∨ ¬(noPartition s ∧ s.pwr.d3hot) then 3
  else 4

/-- The device is idle (R440), as far as the state shows: flits in flight are the port queues and replay buffers. -/
def deviceIdle (s : State) : Bool :=
  (cmdsWhere s fun x => x.phase != .reported) = []
    && s.hif.fn.all (fun e => e.2.rings.all fun q => !(q.2.en) || q.2.head = q.2.tail)
    && s.clv.clove.all (fun e => e.2.progs = [] && e.2.waiting = [])
    && s.stw.ports.all (fun e => e.2.queue = [] && e.2.replay = [])
    && s.mem.moves = [] && s.mem.localRetire = [] && s.mem.rewrites = []
    && s.sec.openReq.isNone && s.sec.wipeDone
    && s.hif.fn.all (fun e => e.2.state != .disabling)

/-- The device's clock has run in its idle state: the time that counts since it was last noted, in µs, is a free value (R443, log 20). -/
def noteIdle (s : State) : State :=
  if s.pwr.idle = .active then s
  else
    let (k, s) := draw s
    { s with pwr := { s.pwr with idleRes := tabMod 0 s.pwr.idleRes (idleCode s.pwr.idle - 1) fun n => satAdd 64 n k } }

/-- An idle state ends, and the next begins. -/
def leaveIdle (next : IdleState) (s : State) : State :=
  if s.pwr.idle = .active then s
  else
    let s := noteIdle s
    { s with pwr := { s.pwr with idle := next } }

/-- A state that has become too deep is left for the permitted one at once (R441). -/
def settleIdle (s : State) : State := if permitted s < idleCode s.pwr.idle then leaveIdle (idleOf (permitted s)) s else s

/-! ### Stops and resets (R437, R498, R499) -/

/-- What a stop, a cold reset or HIBERNATE leaves (R437, R440, R494, R499): the Nutmeg registers and pins, the non-volatile
store and the fuses, and the host's own memory; everything else is at its reset value. -/
def coldState (s : State) : State :=
  { hif := { mem := s.hif.mem, msgs := s.hif.msgs }
    mem := { retired := s.mem.retired }
    thm := s.thm
    sec := { lc := s.sec.lc, releases := s.sec.releases, revoked := s.sec.revoked, ownerKey := s.sec.ownerKey
             cert1 := s.sec.cert1, serial := s.sec.serial, minSvn := s.sec.minSvn, slotA := s.sec.slotA
             slotB := s.sec.slotB, bootB := s.sec.bootB, identity := s.sec.identity, hubKey := s.sec.hubKey, sent := s.sec.sent }
    rst := s.rst, reply := s.reply, freeCtr := s.freeCtr, pending := s.pending }

def setPhase (ph : ModulePhase) (s : State) : State := { s with rst := { s.rst with phase := ph } }

/-- The module stops in hardware (R437): the first cause stands when a stop is in progress (R439). -/
def moduleStop (cause : Nat) (sensor : Nat) (s : State) : State :=
  if s.rst.phase = .stopped ∨ s.rst.phase = .off then s
  else
    let s := coldState s
    { s with
      thm := { s.thm with sdCause := cause, sdSensor := BitVec.ofNat 8 sensor, sdCount := satAdd 8 s.thm.sdCount 1 }
      sec := { s.sec with hubKey := none }
      rst := { s.rst with phase := .stopped, railsGood := false, poweringUp := false } }

/-- The power-up sequence begins (R500): the straps are sampled, which at causes 4 and 5 no command shows: a free value (R503, log 20).
Nutmeg holds the readings that its step 2 would take, for the sensors are read in every state (R438, R440). -/
def powerUp (s : State) : State :=
  let (k, s) := draw s
  { s with rst := { s.rst with phase := .waitCoolant, straps := BitVec.ofNat 5 k, railsGood := false, poweringUp := true } }

/-- A cold reset begins (R498, R502): causes 1 to 3 wait in reset with the rails good; during power-up only the cause
changes; a stop takes precedence; HIBERNATE is left by powering up. -/
def beginReset (cause : Nat) (s : State) : State :=
  let note := fun (s : State) => { s with rst := { s.rst with nextCause := BitVec.ofNat 3 cause } }
  match s.rst.phase with
  | .off => s
  | .stopped => s
  | .waitCoolant => note s
  | .rails => note s
  | .hibernate => powerUp (note s)
  | _ => setPhase .inReset (note (coldState s))

end Sys2Proof.Machine
end

