-- ==== Sys2Proof/Machine/Regs.lean ====
section
/-!
DEFINITION. The register map: the value that a read of each register returns (R122, R148, R178, R209, R217, R252, R287,
R323, R327, R383, R384, R420, R443, R444, R455, R460, R496, R517). `reg32` and `reg64` answer none where no register of
that width stands; reserved bits read 0 (R7).
-/
namespace Sys2Proof.Machine

/-- Element of a register array: the index when `off` is base + i × stride with i below n. -/
def arrayIx (off base stride n : Nat) : Option Nat :=
  if base ≤ off ∧ (off - base) % stride = 0 ∧ (off - base) / stride < n then some ((off - base) / stride) else none

/-- Block and offset inside it when `off` lies in one of n blocks. -/
def blockIx (off base stride n : Nat) : Option (Nat × Nat) :=
  if base ≤ off ∧ (off - base) / stride < n then some ((off - base) / stride, (off - base) % stride) else none

/-! ### Codes of states -/

def fnStateCode : FnState → Nat | .disabled => 0 | .enabled => 1 | .disabling => 2
def ringStateCode : RingState → Nat | .off => 0 | .active => 1 | .error => 2 | .stopping => 3
def jobCode : JobState → Nat
  | .idle => 0 | .ready => 1 | .running => 2 | .waiting => 3 | .suspending => 4 | .suspended => 5
def coreStateCode : CoreState → Nat | .idle => 0 | .running => 1 | .suspended => 2 | .deconfigured => 3
def unitStateCode : UnitState → Nat | .idle => 0 | .busy => 1 | .suspended => 2 | .deconfigured => 3
def cloveStateCode : CloveState → Nat | .idle => 0 | .running => 1 | .yielding => 2 | .off => 3
def frameStateCode : FrameState → Nat | .free => 0 | .held => 1 | .moving => 2
def partStateCode : PartState → Nat | .none => 0 | .creating => 1 | .active => 2 | .teardown => 3
def portStateCode : PortState → Nat
  | .down => 0 | .training => 1 | .keying => 2 | .active => 3 | .retrain => 4 | .failed => 5
def sensorStateCode : SensorState → Nat | .normal => 0 | .warning => 1 | .throttle => 2 | .broken => 3

/-! ### Function registers (R327, R384, R444) -/

def fnStatus (s : State) (f : Nat) : Nat :=
  let x := fnOf s f
  x.part * 2 ^ 8 + b01 x.enc * 2 ^ 4 + b01 x.assigned * 2 ^ 3 + b01 x.enableHeld * 2 ^ 2 + fnStateCode x.state

/-- HIF_FN_CTRL.ENABLE reads 0 from the entry into DISABLING until the function is next ENABLED (R354). -/
def fnCtrl (s : State) (f : Nat) : Nat := if (fnOf s f).state = .enabled then 1 else 0

def ringCtrl (q : Ring) : Nat := q.size.toNat * 2 ^ 8 + b01 q.en
def ringInt (q : Ring) : Nat := q.time.toNat * 2 ^ 16 + q.count.toNat
def ringSched (q : Ring) : Nat := jobCode q.job * 2 ^ 16 + q.slice.toNat * 2 ^ 8 + q.cls.toNat
def ringStateReg (s : State) (f r : Nat) : Nat :=
  let q := ringOf s f r
  (inFlight s f r).length % 2 ^ 16 * 2 ^ 16 + q.err.toNat * 2 ^ 8 + ringStateCode q.state
def bufCtrl (b : Buffer) : Nat := b.access.toNat * 2 + b01 b.valid

/-- The MSI-X pending bits (R350). -/
def pba (s : State) (f : Nat) : Nat :=
  ((rangeFrom 0 17).filter fun v => (vecOf s f v).pending).foldl (fun n v => n + 2 ^ v) 0

def fnReg32 (s : State) (f off : Nat) : Option Nat :=
  if off = 0x0 then some (fnCtrl s f)
  else if off = 0x4 then some (fnStatus s f)
  else if off = 0x8 then some (fnOf s f).droppedDb.toNat
  else if off = 0xC then some (fnOf s f).badAccess.toNat
  else match blockIx off 0x1000 0x80 16 with
    | some (r, 0x20) => some (ringCtrl (ringOf s f r))
    | some (r, 0x24) => some (ringInt (ringOf s f r))
    | some (r, 0x28) => some (ringStateReg s f r)
    | some (r, 0x40) => some (ringSched (ringOf s f r))
    | some _ => none
    | none =>
      match blockIx off 0x2000 0x20 256 with
      | some (b, 0x18) => some (bufCtrl (bufOf s f b))
      | some _ => none
      | none =>
        match blockIx off 0x4000 0x10 17 with
        | some (v, 8) => some (vecOf s f v).data.toNat
        | some (v, 12) => some (b01 (vecOf s f v).masked)
        | _ => none

def fnReg64 (s : State) (f off : Nat) : Option Nat :=
  if off = 0x10 then some (fnOf s f).devCtr.toNat
  else match blockIx off 0x1000 0x80 16 with
    | some (r, 0x00) => some (ringOf s f r).sqBase.toNat
    | some (r, 0x08) => some (ringOf s f r).cqBase.toNat
    | some (r, 0x10) => some (ringOf s f r).sqTag.toNat
    | some (r, 0x18) => some (ringOf s f r).cqTag.toNat
    | some (r, 0x30) => some ((ringOf s f r).tail % 2 ^ 32 + (ringOf s f r).head % 2 ^ 32 * 2 ^ 32)
    | some (r, 0x38) => some ((ringOf s f r).cqCount % 2 ^ 32 + (ringOf s f r).cqHead % 2 ^ 32 * 2 ^ 32)
    | some (r, 0x48) => some (ringOf s f r).submitted.toNat
    | some (r, 0x50) => some (ringOf s f r).completed.toNat
    | some (r, 0x58) => some (ringOf s f r).preempted.toNat
    | some (r, 0x60) => some (ringOf s f r).energy.toNat
    | some _ => none
    | none =>
      match blockIx off 0x2000 0x20 256 with
      | some (b, 0x00) => some (bufOf s f b).addr.toNat
      | some (b, 0x08) => some (bufOf s f b).len.toNat
      | some (b, 0x10) => some (bufOf s f b).sealAt.toNat
      | some _ => none
      | none =>
        match blockIx off 0x4000 0x10 17 with
        | some (v, 0) => some (vecOf s f v).addr.toNat
        | some _ => none
        | none => if off = 0x5000 then some (pba s f) else none

/-! ### Device blocks of PF BAR0 -/

/-- Some job's image holds a RUN that core `n` has stopped and not resumed (R117, R366). -/
def runSuspendedOn (s : State) (n : Nat) : Bool :=
  let p := (coreHolder s n).getD 64
  (partOf s p).images.any fun m => m.cores.any fun y => y.core.run != 0 && y.core.state = .suspended && physCore s p y.core.pidx = some n

/-- STATE of core `n`: SUSPENDED also while an idle core's RUN stands in an image (DEDUCED, log 40). -/
def safState (s : State) (n : Nat) : Nat :=
  if (coreOf s n).state = .idle ∧ runSuspendedOn s n then 2 else coreStateCode (coreOf s n).state

/-- SAF_STATUS: a control word runs whole in its step, so no unit is busy between steps (log 19). -/
def safStatus (s : State) (n : Nat) : Nat :=
  (coreOf s n).lastStatus.toNat * 2 ^ 16 + (coreOf s n).queue.length * 2 ^ 8 + safState s n
def safFault (x : Core) : Nat := x.faultStatus.toNat * 2 ^ 24 + x.faultOp.toNat * 2 ^ 16 + x.faultCause.toNat
/-- STATE of mover `m`: BUSY while a COPY is in progress on it, SUSPENDED while the jobs of all these are stopped. -/
def movState (s : State) (m : Nat) : UnitState :=
  if (moverOf s m).state = .deconfigured then .deconfigured
  else if movOpen s m = [] then .idle
  else if (movOpen s m).any (cmdRuns s) then .busy else .suspended

def movStatus (s : State) (m : Nat) : Nat :=
  (moverOf s m).lastStatus.toNat * 2 ^ 16 + Nat.min 8 (movOpen s m).length * 2 ^ 8 + unitStateCode (movState s m)
def movFault (x : Mover) : Nat := x.faultStatus.toNat * 2 ^ 24 + x.faultSide * 2 ^ 16 + x.faultCause.toNat

def cloveStatus (x : Clove) : Nat :=
  let p := runningProg x
  x.lastStatus.toNat * 2 ^ 24 + x.progs.length * 2 ^ 16 + (p.map (·.part)).getD 0 * 2 ^ 8
    + b01 (x.poison || (p.map (·.poisonSeen)).getD false) * 2 ^ 4 + b01 ((p.map (·.excl)).getD false) * 2 ^ 2
    + cloveStateCode x.state

def retFrames (s : State) (g : Nat) : Nat :=
  (s.kvt.frames.filter fun e => e.1 / 4096 = g && e.2.retired).length

/-- The frames that exist in a bank: those of BANK_LOCAL planes 0 to 31 (R187). -/
def framesPerBank (s : State) : Nat := 128 * ((rangeFrom 0 32).filter fun j => s.mem.planeMode.getLsbD j).length

/-- A frame's plane is BANK_LOCAL (R187). -/
def frameExists (s : State) (n : Nat) : Bool := s.mem.planeMode.getLsbD (n % 4096 / 128)

def freeFrames (s : State) (g : Nat) : Nat :=
  framesPerBank s - (s.kvt.frames.filter fun e =>
    e.1 / 4096 = g && frameExists s e.1 && (e.2.retired || e.2.state != .free)).length

/-- USED of a partition (R261). -/
def framesUsed (s : State) (p : Nat) : Nat :=
  (s.kvt.frames.filter fun e => e.2.state != .free && e.2.owner = p).length
def framesSpec (s : State) (p : Nat) : Nat :=
  (s.kvt.frames.filter fun e => e.2.state != .free && e.2.owner = p && e.2.spec).length

def frameLo (x : Frame) : Nat :=
  x.refcnt * 2 ^ 48 + x.vf * 2 ^ 32 + x.owner * 2 ^ 20 + x.tokens * 2 ^ 8 + b01 x.spilled * 2 ^ 6 + b01 x.retired * 2 ^ 5
    + b01 x.spec * 2 ^ 4 + frameStateCode x.state
def frameHi (x : Frame) : Nat := x.seq.toNat * 2 ^ 32 + x.farslot.toNat

/-- Adapter slots in use (R378). -/
def slotsUsed (s : State) (p : Nat) : Nat := ((partOf s p).adapters.filter fun e => e.2.state != .empty).length

def ovqKv (s : State) (p : Nat) : Bool := decide (framesUsed s p > (partOf s p).kvQuota)
def ovqSlot (s : State) (p : Nat) : Bool := decide (slotsUsed s p > (partOf s p).slotQuota)
def ovqSem (s : State) (p : Nat) : Bool := decide (semUse s p > (partOf s p).semQuota)

def partStateReg (s : State) (p : Nat) : Nat :=
  b01 (ovqSem s p) * 2 ^ 11 + b01 (ovqSlot s p) * 2 ^ 10 + b01 (ovqKv s p) * 2 ^ 9
    + b01 (ovqSem s p || ovqSlot s p || ovqKv s p) * 2 ^ 8 + partStateCode (partOf s p).state

def ctEntry (e : CtEntry) : Nat :=
  b01 e.valid * 2 ^ 31 + b01 e.bankLocal * 2 ^ 30 + b01 e.kv * 2 ^ 29 + b01 e.retired * 2 ^ 28 + e.pchunk

def eccCtrl (e : EccTest) : Nat := b01 e.en * 2 ^ 31 + b01 e.busy * 2 ^ 30 + e.pchunk

def farStatus (s : State) (q : Nat) : Nat :=
  let x := farPortOf s q
  x.poisonReads.toNat * 2 ^ 48 + x.retries.toNat * 2 ^ 32 + x.width * 2 ^ 16 + x.capacity * 2 ^ 3 + b01 x.present * 4
    + b01 x.link * 2 + b01 (q = 1 && far1Host s)

def portStatus (x : Port) : Nat :=
  x.txFail.toNat * 2 ^ 24 + x.rxFail.toNat * 2 ^ 16 + x.txWidth * 2 ^ 10 + x.rxWidth * 2 ^ 8 + b01 x.enc * 2 ^ 3
    + portStateCode x.state
def portCfg (x : Port) : Nat := b01 x.en * 2 ^ 31 + b01 x.dateline * 4 + x.dim
def routeReg (e : Route) : Nat := b01 e.valid * 2 ^ 15 + e.port * 2 ^ 12 + b01 e.altValid * 2 ^ 11 + e.alt * 2 ^ 8

/-- PWR_CTRL: the value written, from the write on (R425). -/
def pwrCtrl (s : State) : Nat :=
  match s.pwr.capNext with
  | some (c, f) => b01 f * 2 ^ 16 + c.toNat
  | none => b01 s.pwr.fixed * 2 ^ 16 + s.pwr.cap.toNat
/-- Fixed mode with both clocks at 600 MHz (R429). -/
def fixedHeld (s : State) : Bool := s.pwr.fixed && s.pwr.freq0 = 600 && s.pwr.freq1 = 600
def pwrStatus (s : State) : Nat :=
  b01 (s.pwr.gating != 0) * 2 ^ 15 + b01 s.pwr.capOver * 2 ^ 14 + b01 (fixedHeld s) * 2 ^ 13
    + b01 (decide (s.pwr.freq0 > 600 ∨ s.pwr.freq1 > 600)) * 2 ^ 12 + b01 s.pwr.tl.isSome * 2 ^ 11 + effLimit s
/-- THM_SENSOR n (R443); CLASS reads 0 with the register's reset value until a first sample. -/
def sensorReg (s : State) (n : Nat) : Nat :=
  let x := sensorOf s n
  b01 x.valid * 2 ^ 31 + (if x.valid then sensorClass n else 0) * 2 ^ 24 + sensorStateCode x.state * 2 ^ 16 + x.temp.toNat
def thmStatus (s : State) : Nat :=
  (if sensorNums.any fun n => (sensorOf s n).valid then hottest s else 0) * 2 ^ 8
    + b01 (coolantBroken s) * 4 + b01 (anyThrottle s) * 2 + b01 (anyWarn s)
def thmShutdown (s : State) : Nat := s.thm.sdCount.toNat * 2 ^ 16 + s.thm.sdSensor.toNat * 2 ^ 8 + s.thm.sdCause
def pwrPower (s : State) : Nat := s.pwr.avg1.toNat * 2 ^ 16 + s.pwr.avg10.toNat

def evHoldoff (s : State) (k : Nat) : Nat := b01 (groupOf s k).held * 2 ^ 31 + holdOf s k
def evClaim (s : State) (t : Nat) : Nat := match offer s t with | none => 0 | some k => 2 ^ 31 + k
def evInsvc (x : EvTarget) : Nat := match x.insvc with | none => 0 | some k => 2 ^ 31 + k
def evSeq (x : EvTarget) : Nat := x.seqLast.toNat * 2 ^ 16 + x.seqCount.toNat

def flogW0 (k : Nat) (r : FaultRec) : Nat := r.outcome * 2 ^ 56 + r.kind * 2 ^ 48 + r.source * 2 ^ 32 + k
def flogW2 (r : FaultRec) : Nat := r.unit * 2 ^ 32 + r.runs % 256 * 2 ^ 8 + r.part

/-- NUMBER of the record in slot i: the newest below the count that falls on it (R459). -/
def flogNumber (s : State) (i : Nat) : Nat :=
  let n := s.evc.flogCount
  if n ≤ i then 0 else (i + 256 * ((n - 1 - i) / 256)) % 2 ^ 32

def secLc (s : State) : Nat :=
  s.sec.releases.toNat * 2 ^ 20 + b01 s.sec.ownerKey.isSome * 2 ^ 16 + s.sec.revoked.toNat * 2 ^ 8 + s.sec.lc.toNat
def secBoot (s : State) : Nat :=
  s.sec.failType.toNat * 2 ^ 16 + s.sec.bootError.toNat * 2 ^ 8 + b01 s.sec.recovery * 4 + b01 s.sec.fallback * 2
    + b01 s.sec.bootSlotB
def secSumac (s : State) : Nat := s.sec.restarts.toNat * 2 ^ 16 + s.sec.queue.length * 2 ^ 8 + b01 s.sec.openReq.isSome
def secWipe (s : State) : Nat := s.sec.wipePercent.toNat * 2 + b01 s.sec.wipeDone
def secSvn (s : State) (i : Nat) : Nat := (tabGet 0 s.sec.bootedSvn i).toNat * 2 ^ 16 + (tabGet 0 s.sec.minSvn i).toNat

def rstCause (s : State) : Nat := s.rst.count.toNat * 2 ^ 8 + s.rst.cause.toNat
def rstSsc (s : State) : Nat := s.rst.sscPending.toNat * 2 ^ 16 + s.rst.sscActive.toNat
def claimReg (c : Claim) : Nat := c.func * 2 ^ 12 + c.owner * 2 ^ 8 + (if c.owner = 4 then c.part else 0)

/-- Some ring holds a command in flight (R327, R508). -/
def anyInFlight (s : State) : Bool := cmdsWhere s (fun x => x.phase != .reported && !x.noRecord) != []

/-- The level that the device drives on sideband pin `n`, by its function (R508, R510): ALERT# and FAULT# are open-drain and pull low alone;
until reset release every output is undriven (R502). -/
def pinDrive (s : State) (n : Nat) : Option Bool :=
  let c := claimOf s n
  let held := match s.rst.phase with | .off => true | .waitCoolant => true | .rails => true | .inReset => true | _ => false
  if held || decide (c.owner = 0) then none
  else match c.func with
    | 1 => if c.owner = 3 ∧ s.rst.gpioOe.getLsbD n then some (s.rst.gpioOut.getLsbD n) else none
    | 4 => if anyWarn s then some false else none
    | 5 => if s.rst.phase = .stopped ∨ s.sec.recovery then some false else none
    | 6 => some (!anyInFlight s)
    | 7 => if n = 6 ∧ c.owner = 3 then some (s.rst.gpioOut.getLsbD n) else none
    | _ => none

/-- CLM_GPIO_IN: a driven pin shows its level, any other its input (R517). -/
def gpioIn (s : State) : Nat :=
  ((rangeFrom 0 8).filter fun n => (pinDrive s n).getD (s.rst.pinIn.getLsbD n)).foldl (fun a n => a + 2 ^ n) 0

/-- 32-bit registers of the stack, frame-table, far and Clove blocks. -/
def memReg32 (s : State) (off : Nat) : Option Nat :=
  if off = 0x01400008 then
    some (b01 (decide (4096 ≤ s.mem.retired.length)) * 2 ^ 31 + s.mem.retired.length)
  else match blockIx off 0x01410000 0x100 8 with
  | some (st, 0x08) => some (tabGet 0 s.mem.due st).toNat
  | some (st, 0x0C) => some (tabGet 0 s.mem.poisonReads st).toNat
  | some (st, 0x18) => some (tabGet 0 s.mem.band st)
  | some _ => none
  | none =>
  match blockIx off 0x01420000 0x10 64 with
  | some (p, 0) => some (b01 (partOf s p).cap * 2 ^ 16 + (partOf s p).share)
  | some _ => none
  | none =>
  match blockIx off 0x01430000 0x40 8 with
  | some (st, 0x00) => some (eccCtrl (eccOf s st))
  | some (st, 0x08) => some (eccOf s st).addr.toNat
  | some (st, 0x18) => some ((eccOf s st).syndrome.toNat * 2 ^ 8 + (eccOf s st).check.toNat)
  | some (_, 0x1C) => some 0
  | some (st, 0x20) => some ((eccOf s st).due.toNat * 2 ^ 16 + (eccOf s st).ce.toNat)
  | some _ => none
  | none =>
  match arrayIx off 0x01800000 4 262144 with
  | some n => some (ctEntry (ctOf s n))
  | none =>
  if off = 0x01500000 then some (b01 s.mem.interleave)
  else if off = 0x01600000 then some (b01 (s.mem.planeMode.getLsbD 63) * 2 + b01 s.kvt.ready)
  else if off = 0x01600008 then some s.kvt.sel.toNat
  else if off = 0x01600020 then some (s.kvt.faultStatus.toNat * 2 ^ 24 + s.kvt.faultCause.toNat)
  else match arrayIx off 0x01610000 4 4096 with
  | some g => some (retFrames s g * 2 ^ 16 + freeFrames s g)
  | none =>
  match blockIx off 0x01620000 0x10 64 with
  | some (p, 0) => some (framesUsed s p)
  | some (p, 4) => some (b01 (ovqKv s p) * 2 ^ 31 + (partOf s p).kvQuota)
  | some (p, 8) => some (framesSpec s p)
  | some (p, 12) => some (tabGet 0 s.kvt.wipes p).toNat
  | some _ => none
  | none =>
  if off = 0x02100000 then some s.clv.stackMode.toNat
  else match blockIx off 0x02000000 0x40 4096 with
  | some (g, 0x00) => some (cloveStatus (cloveOf s g))
  | some (g, 0x04) => some ((cloveOf s g).faultStatus.toNat * 2 ^ 24 + (cloveOf s g).faultCause.toNat)
  | some (g, 0x08) => some (cloveOf s g).faultPc.toNat
  | some (g, 0x18) => some (cloveOf s g).forced.toNat
  | some (g, 0x1C) => some (cloveOf s g).switches.toNat
  | _ => none

/-- 32-bit registers of the fabric, partition, power, event, Sumac, reset and claim blocks. -/
def hubReg32 (s : State) (off : Nat) : Option Nat :=
  if off = 0x02200000 then some (b01 s.stw.devValid * 2 ^ 16 + s.stw.devId.toNat)
  else if off = 0x02200008 then some s.stw.noroute.toNat
  else if off = 0x0220000C then some s.stw.resends.toNat
  else match arrayIx off 0x02200100 4 64 with
  | some p => some (partOf s p).domain
  | none =>
  match blockIx off 0x02201000 0x100 8 with
  | some (pt, 0x00) => some (portStatus (portOf s pt))
  | some (pt, 0x04) => some (portCfg (portOf s pt))
  | some (pt, 0x20) => some (portOf s pt).fecUncorr.toNat
  | some (pt, 0x24) => some (portOf s pt).retry.toNat
  | some (pt, 0x28) => some (portOf s pt).authFail.toNat
  | some (pt, 0x2C) => some (portOf s pt).retrains.toNat
  | some _ => none
  | none =>
  match arrayIx off 0x02240000 4 65536 with
  | some i => some (routeReg (routeEntry s i))
  | none =>
  match blockIx off 0x02300000 0x40 64 with
  | some (p, 0x00) => some (partStateReg s p)
  | some (p, 0x20) => some ((partOf s p).saveSlots * 2 ^ 16 + (partOf s p).ibudget * 2 ^ 8)
  | some _ => none
  | none =>
  if off = 0x02500000 then some (pwrCtrl s)
  else if off = 0x02500004 then some (pwrStatus s)
  else if off = 0x02500008 then some (s.pwr.freq1 * 2 ^ 16 + s.pwr.freq0)
  else if off = 0x0250000C then some (pwrPower s)
  else if off = 0x02500020 then some s.pwr.throttleEvents.toNat
  else if off = 0x02500040 then some s.pwr.latency.toNat
  else if off = 0x02500044 then some (permitted s * 2 ^ 4 + idleCode s.pwr.idle)
  else match arrayIx off 0x02600000 4 186 with
  | some n => some (sensorReg s n)
  | none =>
  if off = 0x02601000 then some (thmStatus s)
  else if off = 0x02601008 then some (thmShutdown s)
  else match arrayIx off 0x02700000 4 64, arrayIx off 0x02700100 4 64 with
  | some k, _ => some (groupOf s k).pend.toNat
  | _, some k => some (groupOf s k).pend.toNat
  | none, none =>
  match arrayIx off 0x02700200 4 64, arrayIx off 0x02700300 4 64 with
  | some k, _ => some (groupOf s k).mask.toNat
  | _, some k => some (groupOf s k).mask.toNat
  | none, none =>
  match arrayIx off 0x02700400 4 64, arrayIx off 0x02700500 4 64 with
  | some k, _ => some (groupOf s k).wake.toNat
  | _, some k => some (evHoldoff s k)
  | none, none =>
  match arrayIx off 0x02701000 4 2048 with
  | some k => some (routeOf s k)
  | none =>
  match blockIx off 0x02704000 0x20 33 with
  | some (t, 0x0) => some (evClaim s t)
  | some (_, 0x4) => some 0
  | some (t, 0x8) => some (evInsvc (targetOf s t))
  | some (t, 0xC) => some (evSeq (targetOf s t))
  | some _ => none
  | none =>
  if off = 0x02800000 then some (secLc s)
  else if off = 0x02800004 then some (secBoot s)
  else if off = 0x02800008 then some (secSumac s)
  else if off = 0x0280000C then some (secWipe s)
  else match arrayIx off 0x02800020 4 8, arrayIx off 0x02800040 4 8 with
  | some i, _ => some (tabGet 0 s.sec.version i).toNat
  | _, some i => some (secSvn s i)
  | none, none =>
  if off = 0x02900000 then some (rstCause s)
  else if off = 0x02900004 then some s.rst.straps.toNat
  else if off = 0x02900008 then some (rstSsc s)
  else match arrayIx off 0x02A00000 4 0xC2 with
  | some i => some (claimReg (claimOf s i))
  | none =>
  if off = 0x02A10000 then some 0
  else if off = 0x02A10004 then some 0
  else if off = 0x02A10008 then some s.rst.clmResult.toNat
  else if off = 0x02A10010 then some s.rst.gpioOut.toNat
  else if off = 0x02A10014 then some (gpioIn s)
  else if off = 0x02A10018 then some s.rst.gpioOe.toNat
  else none

/-- 32-bit registers of the Saffron, mover and semaphore blocks. -/
def unitReg32 (s : State) (off : Nat) : Option Nat :=
  match blockIx off 0x01000000 0x100 256 with
  | some (n, 0x00) => some (safStatus s n)
  | some (n, 0x08) => some (safFault (coreOf s n))
  | some _ => none
  | none =>
  match blockIx off 0x01020000 0x100 32 with
  | some (m, 0x00) => some (movStatus s m)
  | some (m, 0x08) => some (movFault (moverOf s m))
  | some _ => none
  | none => (arrayIx off 0x01200000 4 65536).map (semVal s)

def firstSome (a b : Option Nat) : Option Nat := match a with | some x => some x | none => b

/-- The 32-bit register of a function's BAR0 at an offset. -/
def reg32 (s : State) (f off : Nat) : Option Nat :=
  if f = 0 ∧ 0x10000 ≤ off then firstSome (unitReg32 s off) (firstSome (memReg32 s off) (hubReg32 s off))
  else fnReg32 s f off

/-- HIF_VF_STATE of a function (R327). -/
def vfState (s : State) (f : Nat) : Nat := fnStatus s f + (fnOf s f).droppedDb.toNat * 2 ^ 32

/-- 64-bit registers of PF BAR0 beyond the function registers. -/
def pfReg64 (s : State) (off : Nat) : Option Nat :=
  match arrayIx off 0x00080000 0x10 1024 with
  | some i => some (vfState s (i + 1))
  | none =>
  if off = 0x00084000 then some (vfState s 1025)
  else match blockIx off 0x01000000 0x100 256 with
  | some (n, 0x10) => some (coreOf s n).faultPos.toNat
  | some (n, 0x18) => some (coreOf s n).cycles.toNat
  | some (n, 0x20) => some (coreOf s n).steps.toNat
  | some _ => none
  | none =>
  match blockIx off 0x01020000 0x100 32 with
  | some (m, 0x10) => some (moverOf s m).faultElem.toNat
  | some (m, 0x18) => some (moverOf s m).bytes.toNat
  | some (m, 0x20) => some (moverOf s m).cycles.toNat
  | some _ => none
  | none =>
  match arrayIx off 0x01180000 8 64, arrayIx off 0x01401000 8 64 with
  | some p, _ => some ((partOf s p).semCount * 2 ^ 32 + (partOf s p).semBase)
  | _, some p => some ((partOf s p).ctCount * 2 ^ 32 + (partOf s p).ctBase)
  | none, none =>
  if off = 0x01400000 then some s.mem.planeMode.toNat
  else match blockIx off 0x01410000 0x100 8 with
  | some (st, 0x00) => some (tabGet 0 s.mem.ce st).toNat
  | some (st, 0x10) => some (tabGet 0 s.mem.errLast st).toNat
  | some _ => none
  | none =>
  match blockIx off 0x01420000 0x10 64, blockIx off 0x01430000 0x40 8 with
  | some (p, 8), _ => some (tabGet 0 s.mem.sectors p).toNat
  | _, some (st, 0x10) => some (eccOf s st).data.toNat
  | some _, _ => none
  | _, some _ => none
  | none, none =>
  match arrayIx off 0x01500100 0x100 2, arrayIx off 0x01501000 8 64 with
  | some q, _ => some (farStatus s q)
  | _, some p => some ((partOf s p).farSize * 2 ^ 32 + (partOf s p).farBase)
  | none, none =>
  if off = 0x01600010 then some (frameLo (frameOf s s.kvt.sel.toNat))
  else if off = 0x01600018 then some (frameHi (frameOf s s.kvt.sel.toNat))
  else if off = 0x01600028 then some s.kvt.faultPos.toNat
  else match blockIx off 0x02000000 0x40 4096 with
  | some (g, 0x10) => some (cloveOf s g).yields.toNat
  | some (g, 0x20) => some (cloveOf s g).deferredCount.toNat
  | some _ => none
  | none =>
  match blockIx off 0x02201000 0x100 8 with
  | some (pt, 0x08) => some (portOf s pt).txFlits.toNat
  | some (pt, 0x10) => some (portOf s pt).rxFlits.toNat
  | some (pt, 0x18) => some (portOf s pt).fecCorr.toNat
  | some _ => none
  | none =>
  match blockIx off 0x02300000 0x40 64 with
  | some (p, 0x08) => some (partOf s p).cores.toNat
  | some (p, 0x10) => some ((partOf s p).semQuota * 2 ^ 32 + (partOf s p).slotQuota)
  | some (p, 0x18) => some (semUse s p * 2 ^ 32 + slotsUsed s p)
  | some (p, 0x28) => some ((partOf s p).hinted.toNat * 2 ^ 32 + (partOf s p).full.toNat)
  | some _ => none
  | none =>
  if off = 0x02500010 then some s.pwr.devEnergy.toNat
  else if off = 0x02500018 then some s.pwr.unattrib.toNat
  else match arrayIx off 0x02500048 8 3, arrayIx off 0x02501000 8 64 with
  | some k, _ => some (tabGet 0 s.pwr.idleRes k).toNat
  | _, some p => some (partOf s p).energy.toNat
  | none, none =>
  if off = 0x02708000 then some (s.evc.flogCount % 2 ^ 64)
  else match blockIx off 0x02709000 0x20 256 with
  | some (i, 0x00) => some (flogW0 (flogNumber s i) (tabGet {} s.evc.flog i))
  | some (i, 0x08) => some (tabGet {} s.evc.flog i).time.toNat
  | some (i, 0x10) => some (flogW2 (tabGet {} s.evc.flog i))
  | some (i, 0x18) => some (tabGet {} s.evc.flog i).detail.toNat
  | some _ => none
  | none =>
  if off = 0x02800010 then some s.sec.serial.toNat
  else if off = 0x02800018 then some s.sec.epoch.toNat
  else none

/-- The 64-bit register of a function's BAR0 at an offset. -/
def reg64 (s : State) (f off : Nat) : Option Nat :=
  if f = 0 ∧ 0x10000 ≤ off then pfReg64 s off else fnReg64 s f off

end Sys2Proof.Machine
end

