-- ==== Sys2Proof/Machine/HostOps.lean ====
section
/-!
DEFINITION. Shared operations of the host interface: counters of dropped and bad accesses, messages, ring errors, the
stop of a ring, the shut-down of a function, descriptor checks and completion records.
-/
namespace Sys2Proof.Machine

/-- HIF_BAD_ACCESS counts, saturating (R3). -/
def badAccess (f : Nat) (s : State) : State := modFn f (fun x => { x with badAccess := satAdd 32 x.badAccess 1 }) s

/-- HIF_VF_DROPPED_DB counts, saturating (R327). -/
def dropDb (f : Nat) (s : State) : State := modFn f (fun x => { x with droppedDb := satAdd 32 x.droppedDb 1 }) s

/-- A message falls due on a vector: sent, or pending while the vector is masked (R350, R353). -/
def sendMsg (f v : Nat) (s : State) : State :=
  let x := vecOf s f v
  if x.masked then modVec f v (fun x => { x with pending := true }) s
  else { s with hif := { s.hif with msgs := s.hif.msgs ++ [{ fn := f, vector := v, addr := x.addr, data := x.data }] } }

/-- A ring enters ERROR (R333) and vector 16 reports it (R352). -/
def ringError (f r : Nat) (err : Byte) (s : State) : State :=
  sendMsg f 16 (modRing f r (fun q => { q with state := .error, err := err }) s)

/-- A KV command that has applied its changes and is not reported completes with FUNCTION_RESET as well (R276); any other command that has
ended keeps its status (R154, log 118). -/
def resetDone (c : Nat) (s : State) : State :=
  if cmdClass (cmdOf s c) < 0x10 ∨ 0x13 < cmdClass (cmdOf s c) then s
  else modCmd c (fun x => { x with status := .functionReset, cause := 0, result := 0, index := 0, flags := 0 }) s

/-- Commands of a ring that have not ended complete with a status (R334, R355), in a shut-down of their function the KV commands that are not
reported too; without records they are dropped, and a STEP among them holds its records no longer (R296). -/
def endRingCmds (f r : Nat) (st : Status) (records : Bool) (s : State) : State :=
  let mine := cmdsWhere s fun x => x.fn = f && x.ring = r
  let ended := mine.filter fun c => (cmdOf s c).phase = .done
  let s := foldState (mine.filter fun c => !phaseDone (cmdOf s c).phase) (fun c s => discardCmd st c s) s
  let s := if st = .functionReset then foldState ended resetDone s else s
  if records then s
  else
    let s := modPart (homeOf s f) (fun q => { q with heldRecords := q.heldRecords.filter fun e => !(mine.contains e.2) }) s
    { s with hif := { s.hif with cmds := tabDrop s.hif.cmds fun c => mine.contains c } }

/-- Every ring of a function that has been touched. -/
def ringsOf (s : State) (f : Nat) : List Nat := (fnOf s f).rings.map (·.1)

/-- Steps 1 and 2 of R355: the function is DISABLING, its commands end with FUNCTION_RESET, its jobs give up engines and
images (R372); vector 16 reports the change (R350). -/
def beginShutdown (f : Nat) (records : Bool) (s : State) : State :=
  let s0 := s
  let s := sendMsg f 16 (modFn f (fun x => { x with state := .disabling, writeRecords := records }) s)
  settleWaits (homeOf s f) s0
    (foldState (ringsOf s f) (fun r s => settleFences s.hif.cmds.length (dropJob f r (endRingCmds f r .functionReset records s))) s)

/-- A frame back to FREE (R258): VF and RETIRED stay. -/
def frameFree (x : Frame) : Frame := { vf := x.vf, retired := x.retired }

/-- Frames that satisfy a condition wiped and released (R250, R276). -/
def releaseFrames (q : Frame → Bool) (s : State) : State :=
  let hit := (s.kvt.frames.filter fun e => e.2.state != .free && q e.2).map (·.1)
  foldState hit (fun n s => modFrame n frameFree (wipeRange (n / 4096) (n % 4096 * 16384) 16384 s)) s

/-- Step 4 of R355: keys destroyed, ENC cleared and with it the binding of a session (R489), what R4 holds of the function's registers gone, rings OFF with zero counts, registrations cleared, the MSI-X table and
the counters of R385 and R444 at their reset values. -/
def clearFn (f : Nat) (s : State) : State :=
  let mine := fun (k : Nat) => decide (k / 2 ^ 32 = f ∧ k % 2 ^ 32 < 0x10000)
  let s := { s with hif := { s.hif with
    cmds := tabDrop s.hif.cmds fun c => (cmdOf s c).fn = f
    latch := tabDrop s.hif.latch mine, wbuf := tabDrop s.hif.wbuf mine } }
  let s := { s with sec := { s.sec with sessions := s.sec.sessions.map fun x => if x.fn = f then { x with bound := false } else x } }
  modFn f (fun x => { x with enc := false, keyH2d := 0, keyD2h := 0, rings := [], bufs := [], msix := [] }) s

/-- The end of a shut-down (R354, R355 steps 3 and 4). -/
def endShutdown (f : Nat) (s : State) : State :=
  let s := clearFn f (releaseFrames (fun x => x.vf = f) s)
  let x := fnOf s f
  let next : FnState := if x.enableHeld && x.assigned then .enabled else .disabled
  sendMsg f 16 (modFn f (fun x => { x with state := next, enableHeld := false, writeRecords := false }) s)

/-- The stop of a ring begins (R334). -/
def beginRingStop (f r : Nat) (s : State) : State :=
  let s := modRing f r (fun q => { q with en := false, state := .stopping }) s
  settleWaits (homeOf s f) s (settleFences s.hif.cmds.length (dropJob f r (endRingCmds f r .cancelled true s)))

/-- The least multiple of 2^17 above every count a ring has used (R334). -/
def nextLap (q : Ring) : Nat :=
  let m := Nat.max (Nat.max q.tail q.head) (Nat.max q.cqCount q.cqHead)
  (m / 2 ^ 17 + 1) * 2 ^ 17

/-- The stop of a ring ends: OFF, counts at 0 or, with encryption, at the next multiple of 2^17 (R334); the groups that
were submitted have ended (R384). -/
def endRingStop (f r : Nat) (s : State) : State :=
  let n := if (fnOf s f).enc then nextLap (ringOf s f r) else 0
  let s := { s with hif := { s.hif with cmds := tabDrop s.hif.cmds fun c => (cmdOf s c).fn = f && (cmdOf s c).ring = r } }
  modRing f r (fun q => { q with
    state := .off, err := 0, tail := n, head := n, cqCount := n, cqHead := n, completed := q.submitted, job := .idle
    curGroup := q.fetchGroup + 1, fetchGroup := q.fetchGroup + 1, fetchLen := 0, failed := false, drained := false
    runs := 1, sinceMsg := 0 }) s

/-! ### Descriptors (R335 to R338, R343) -/

/-- Bits of a range of bytes, or of one byte's mask. -/
def byteRange (lo hi : Nat) : Nat := (2 ^ (8 * (hi - lo + 1)) - 1) * 2 ^ (8 * lo)
def byteMask (at_ m : Nat) : Nat := m * 2 ^ (8 * at_)

/-- The header bits that are not reserved (R335). -/
def headerBits : Nat := byteRange 4 7 + byteMask 1 3 + byteRange 0 0

/-- The body bits of a class that are not reserved (R338, R405); none for a reserved CLASS (R337). -/
def bodyBits (cls : Nat) : Option Nat :=
  match cls with
  | 0x01 => some (byteRange 8 39 + byteMask 40 0x1F)
  | 0x02 => some (byteRange 8 37 + byteMask 38 1)
  | 0x03 => some (byteRange 8 50 + byteMask 51 3)
  | 0x04 => some (byteRange 8 43 + byteMask 44 0xF)
  | 0x10 => some (byteRange 8 28)
  | 0x11 => some (byteRange 8 27)
  | 0x12 => some (byteRange 8 16 + byteMask 17 1 + byteRange 18 33)
  | 0x13 => some (byteRange 8 19 + byteMask 20 1)
  | 0x18 => some (byteRange 8 13 + byteMask 14 1)
  | 0x19 => some (byteRange 8 11)
  | 0x1A => some (byteRange 8 23 + byteMask 24 0xF)
  | 0x20 => some (byteRange 8 9 + byteRange 12 15)
  | 0x21 => some (byteRange 8 9 + byteRange 12 15 + byteMask 16 1)
  | 0x22 => some (byteRange 8 9)
  | 0x30 => some (byteRange 8 19 + byteMask 20 1)
  | 0x31 => some (byteRange 8 19 + byteMask 20 1)
  | 0x32 => some (byteRange 8 63)
  | 0x40 => some (byteRange 8 9 + byteRange 12 15)
  | 0x41 => some (byteRange 8 9 + byteRange 12 15)
  | _ => none

/-- The rounding mode of a class that carries one (R58); modes 5 to 7 are reserved. -/
def roundMode (x : Cmd) : Nat :=
  match cmdClass x with
  | 0x01 => field x 40 1 % 8
  | 0x04 => field x 44 1 % 8
  | _ => 0

/-- Whether a ring of function `f` accepts a class (R337). -/
def classAccepted (s : State) (f cls : Nat) : Bool :=
  if f = 0 then (fnOf s 0).assigned || cls = 0x40 || cls = 0x41 || cls = 0x22 else cls != 0x40

/-- The fault of a descriptor that needs nothing but the descriptor and its ring (R336, R337, R338, R349). -/
def startFault (s : State) (x : Cmd) : Option (Status × Nat) :=
  if x.authFailed then some (.descFault, 0x603)
  else match bodyBits (cmdClass x) with
    | none => some (.descFault, 0x601)
    | some b =>
      if x.desc.toNat ||| (headerBits + b) ≠ headerBits + b then
        some (.descFault, if 0x30 ≤ cmdClass x ∧ cmdClass x ≤ 0x32 then
          (if x.desc.toNat % 2 ^ 64 ||| headerBits ≠ headerBits then 0x601 else 0x801) else 0x601)
      else if 5 ≤ roundMode x then some (.descFault, 0x601)
      else if ¬classAccepted s x.fn (cmdClass x) then some (.descFault, 0x602)
      else if x.notAlone then some (.descFault, 0x602)
      else if (cmdClass x = 0x21 ∨ cmdClass x = 0x22) ∧ cmdConcurrent x then some (.descFault, 0x602)
      else none

/-- A descriptor read from its slot: its bytes deciphered, and whether its tag verifies (R345 to R347, R349). -/
def readDescriptor (s : State) (f r : Nat) : Nat × Bool :=
  let q := ringOf s f r
  let slot := q.head % 2 ^ q.size.toNat
  let raw := hostRaw s f (q.sqBase.toNat + 64 * slot) 64
  if ¬(fnOf s f).enc then (leNat raw, true)
  else
    let iv := ivOf f r 0 q.head
    let tag := hostRaw s f (q.sqTag.toNat + 16 * slot) 16
    (leNat (Config.gcmPlain (fnOf s f).keyH2d iv raw), Config.gcmTag (fnOf s f).keyH2d iv raw [] = tag)

/-- A free completion slot that no fetched, unreported command has reserved (R331). -/
def slotFree (s : State) (f r : Nat) : Bool :=
  let q := ringOf s f r
  decide (q.cqCount - q.cqHead + (inFlight s f r).length < 2 ^ q.size.toNat)

/-! ### Completion records (R342, R347, R351) -/

/-- The completion status reported: OK of a replayed group is OK_REPLAYED (R8, R342). -/
def reported (x : Cmd) : Status := okStatus x.replayed x.status

/-- Bytes 30:0 of a completion record (R342). -/
def recordBytes (x : Cmd) (head : Nat) : List Byte :=
  natLe 4 (if x.authFailed then 0 else field x 4 4) ++ natLe 2 head ++ natLe 1 (statusCode (reported x))
    ++ natLe 1 x.flags.toNat ++ natLe 2 x.cause ++ natLe 1 (cmdClass x) ++ natLe 1 0 ++ natLe 4 x.index
    ++ natLe 8 x.result ++ natLe 7 0

/-- PHASE of a record (R332). -/
def phaseBit (q : Ring) : Nat := if q.cqCount / 2 ^ q.size.toNat % 2 = 0 then 128 else 0

/-- A record written into its slot, sealed with encryption on (R332, R347). -/
def writeRecord (f r : Nat) (x : Cmd) (s : State) : State :=
  let q := ringOf s f r
  let slot := q.cqCount % 2 ^ q.size.toNat
  let body := recordBytes x q.head
  let top := natLe 1 (phaseBit q)
  let addr := q.cqBase.toNat + 32 * slot
  let s :=
    if (fnOf s f).enc then
      let iv := ivOf f r 1 q.cqCount
      let key := (fnOf s f).keyD2h
      let cipher := Config.gcmCipher key iv body
      hostPutRaw f (q.cqTag.toNat + 16 * slot) (Config.gcmTag key iv cipher top) (hostPutRaw f addr (cipher ++ top) s)
    else hostPutRaw f addr (body ++ top) s
  modRing f r (fun q => { q with cqCount := q.cqCount + 1 }) s

/-- The message of a completion ring after a record (R351, R352). -/
def coalesce (f r : Nat) (s : State) : State :=
  let q := ringOf s f r
  let s := modRing f r (fun q => { q with countUsed := q.count }) s
  if q.count = 0 then s
  else if q.time = 0 ∨ q.sinceMsg + 1 ≥ q.count.toNat then
    sendMsg f r (modRing f r (fun q => { q with sinceMsg := 0 }) s)
  else modRing f r (fun q => { q with sinceMsg := q.sinceMsg + 1 }) s

/-- The group of a command is fully fetched. -/
def groupClosed (s : State) (x : Cmd) : Bool := decide (x.group < (ringOf s x.fn x.ring).fetchGroup)

/-- The other commands of a command's group that are not reported. -/
def othersOpen (s : State) (c : Nat) : List Nat :=
  let x := cmdOf s c
  (groupCmds s x.fn x.ring x.group).filter fun d => d != c && (cmdOf s d).phase != .reported

end Sys2Proof.Machine
end

