-- ==== Sys2Proof/Machine/Jobs.lean ====
section
/-!
DEFINITION. Stops and resumptions of jobs (R117 to R119, R364 to R377): what a core saves, the job's image, and the commands
that slices, waits, saves and budgets give rise to.
-/
namespace Sys2Proof.Machine

/-! ### A core's stop (R117, R118) -/

/-- A count of stops at control words (R383), saturating. -/
def noteStop (p : Nat) (hinted : Bool) (s : State) : State :=
  modPart p (fun q => if hinted then { q with hinted := satAdd 32 q.hinted 1 } else { q with full := satAdd 32 q.full 1 }) s

def setWaiters (l : List Waiter) (s : State) : State := { s with sem := { s.sem with waiters := l } }

/-- A wait of a WAIT word. -/
def isWord : WaitName → Bool | .word _ _ => true | .command _ => false

/-- The WAIT word of core `n`: it stays registered when its job becomes WAITING (R365), otherwise it is abandoned. -/
def stopWait (n : Nat) (keep : Bool) (s : State) : State :=
  let who := WaitName.word (coreOf s n).run (coreOf s n).pidx
  if keep then setWaiters (s.sem.waiters.map fun w => if w.who = who then { w with kept := true } else w) s
  else modCore n (fun x => { x with held := false }) (setWaiters (s.sem.waiters.filter fun w => w.who != who) s)

/-- The segments a hinted save leaves out resume as zero (R118). -/
def dropSegments (seg : BitVec 48) (sp : Space) : Space :=
  (rangeFrom 0 48).foldl (fun sp k => if seg.getLsbD k then sp else spaceEmpty sp (k * 65536) 65536) sp

/-- Core `n` stops at the word at the head of its queue (R117): hinted when it stops at the start of a word that carries a
hint (R118). -/
def coreSuspend (n : Nat) (s : State) : State :=
  let s0 := s
  let x := coreOf s n
  let w := x.queue.head?
  let hint := (w.map fun q => bit q.w.toNat 463).getD false && x.wstep = 0
  let seg := BitVec.ofNat 48 ((w.map fun q => bits q.w.toNat 464 48).getD 0)
  let live := (w.map fun q => bit q.w.toNat 462).getD true
  let s := stopWait n x.keepWait s
  let s := if hint then modSpad n (dropSegments seg) s else s
  let s := modCore n (fun x => { x with
    state := .suspended, suspendReq := false, graceRun := false, saving := true, hinted := hint
    saveSeg := if hint then seg else 0, accLive := live
    tiles := if hint && !live then [] else x.tiles }) s
  settleWaits x.part s0 (raise (256 + n) (noteStop x.part hint s))

/-! ### The job's image (R366, R369, R371) -/

/-- A partition core index that an alternation holds aside (R466). -/
def isAside (s : State) (p i : Nat) : Bool := (partOf s p).swapped.any fun e => e.1 = i

def setAside (p i : Nat) (img : CoreImage) (s : State) : State :=
  modPart p (fun q => { q with swapped := q.swapped.map fun e => if e.1 = i then (i, img) else e }) s

/-- The image of partition core index `i`: as it stands on its core, or as an alternation put it aside (R466). -/
def indexImage (s : State) (p i : Nat) : CoreImage :=
  match (partOf s p).swapped.find? fun e => e.1 = i with
  | some e => e.2
  | none =>
    match physCore s p i with
    | none => {}
    | some n => { core := { coreOf s n with pidx := i, part := p }, spad := spadOf s n }

/-- What a stop saves of partition core index `i`: a stop that is not for a wait abandons its WAIT word (R117, R365). -/
def savedImage (s : State) (p : Nat) (wait : Bool) (i : Nat) : CoreImage :=
  let y := indexImage s p i
  if wait then y else { y with core := { y.core with held := false } }

/-- The partition's core indices. -/
def coreIndices (s : State) (p : Nat) : List Nat := rangeFrom 0 (partOf s p).coreList.length

/-- The staging regions of a partition, and nothing else. -/
def stagingOf (s : State) (p : Nat) : Space :=
  (rangeFrom 0 64).foldl (fun sp i => if (partOf s p).staging.getLsbD i then sp else spaceEmpty sp (i * 2 ^ 22) (2 ^ 22))
    s.staging

/-- A space with the bytes and marks of another laid over it. -/
def spaceJoin (a b : Space) : Space :=
  { bytes := b.bytes.foldl (fun t e => tabSet 0 t e.1 e.2) a.bytes
    written := b.written.foldl (fun t e => tabSet false t e.1 e.2) a.written
    restored := a.restored ++ b.restored
    poison := b.poison.foldl (fun t e => tabSet false t e.1 e.2) a.poison }

/-- A core that gives up a job: its own counters and fault registers stay. -/
def coreVacate (x : Core) : Core :=
  { state := if x.state = .deconfigured then .deconfigured else .idle
    lastStatus := x.lastStatus, faultStatus := x.faultStatus, faultOp := x.faultOp, faultCause := x.faultCause
    faultPos := x.faultPos, cycles := x.cycles, steps := x.steps }

/-- The stream from the oldest unretired word on is to be fetched again (R119). -/
def refetch (x : Core) : Core :=
  let n := x.queue.length
  { x with queue := [], fetchAddr := x.fetchAddr - 64 * n, fetchOff := x.fetchOff - 64 * n, fetchLeft := x.fetchLeft + n }

/-- A core that takes an image up: the program state of the image beside the core's own counters; it fetches its stream again
from the oldest unretired word, which goes on at its step count (R119). -/
def coreTake (img x : Core) : Core :=
  { refetch img with
    state := if img.state = .suspended then .running else img.state
    keepWait := false, saving := false, hinted := false, suspendReq := false
    lastStatus := x.lastStatus, faultStatus := x.faultStatus, faultOp := x.faultOp, faultCause := x.faultCause
    faultPos := x.faultPos, cycles := x.cycles, steps := x.steps }

/-- The cores of the job's commands that are still on the engines and not done. -/
def jobCores (s : State) (j : Nat × Nat) : List Nat :=
  (groupCmds s j.1 j.2 (jobRing s j).curGroup).flatMap fun c => coresOf s c

/-- Some Clove still runs a program of the job (R244). -/
def jobOnCloves (s : State) (j : Nat × Nat) : Bool :=
  s.clv.clove.any fun e => e.2.progs.any fun q =>
    !q.suspended && (cmdOf s q.cmd).fn = j.1 && (cmdOf s q.cmd).ring = j.2

/-- Every save of a stop is written (R369): each core that has not executed END stands suspended with its image written,
each Clove program is switched out, and the flits that the job had credit for are sent and acknowledged (R373). -/
def stopDone (s : State) (j : Nat × Nat) : Bool :=
  (jobCores s j).all (fun n => (coreOf s n).done || ((coreOf s n).state = .suspended && !(coreOf s n).saving))
    && !(jobOnCloves s j) && fabricIdle s j

/-- Every command of the ring's current group has ended. -/
def groupOver (s : State) (j : Nat × Nat) : Bool :=
  (groupCmds s j.1 j.2 (jobRing s j).curGroup).all fun c => phaseDone (cmdOf s c).phase

def jobStopCompleteEffect (f r : Nat) (s : State) : State :=
  let j := (f, r)
  let p := homeOf s f
  if ¬((ringOf s f r).job = .suspending ∧ (partOf s p).running = some j ∧ ¬(ringOf s f r).failed ∧ ¬groupOver s j
      ∧ stopDone s j) then notTaken s
  else
    let wait := (partOf s p).pendingWait
    let waiting := wait && !(partOf s p).woken
    let s0 := s
    let s := if wait then s else setWaiters (s.sem.waiters.filter fun w => !(waiterJob w = j && isWord w.who)) s
    let img : JobImage := { fn := f, ring := r, cores := (coreIndices s p).map (savedImage s p wait), staging := stagingOf s p }
    let s := foldState (partCores s p) (fun n s => modSpad n (fun _ => {}) (modCore n coreVacate s)) s
    let s := emptyStaging p s
    let s := modPart p (fun q => { q with
      images := q.images ++ [img], running := none, pendingWait := false, woken := false, swapped := q.swapped.map clearAside }) s
    let s := modRing f r (fun q => { q with job := if waiting then .waiting else .suspended,
                                            preempted := satAdd 64 q.preempted 1 }) s
    settleWaits p s0 (startNext p s)

/-- All saves of a stop are written (R369): the job becomes SUSPENDED, or WAITING when it waits (R365), PREEMPT rises, and
the engines go to the next job. A stop for a wait keeps every other wait of the job, though that one has ended. -/
def execJobStopComplete (f r : Nat) (s : State) : Host.Outcome State Fault Refusal :=
  take (.jobStopComplete f r) s (jobStopCompleteEffect f r)

/-- The 64 KiB segments that a core's image holds: those its hint lists, or all (R117). -/
def imageSegments (x : Core) : List Nat := (rangeFrom 0 48).filter fun k => !x.hinted || x.saveSeg.getLsbD k

/-- A restored scratchpad: every sector the image holds counts as written (R181). -/
def restoredSpad (img : CoreImage) : Space := { img.spad with restored := imageSegments img.core }

/-- A partition's staging regions as a save holds them, every sector of which counts as written when it is restored (R181). -/
def restoredStaging (s : State) (p : Nat) (sp : Space) : Space :=
  { sp with restored := (rangeFrom 0 4096).filter fun k => (partOf s p).staging.getLsbD (k / 64) }

/-- Where an image's core index goes: onto its core, or aside where another index of the job occupies it (R371, R466). -/
def placeImage (p : Nat) (img : CoreImage) (s : State) : State :=
  let i := img.core.pidx
  match physCore s p i with
  | none => s
  | some n =>
    if isAside s p i then setAside p i { img with spad := restoredSpad img } s
    else modSpad n (fun _ => restoredSpad img) (modCore n (coreTake img.core) (dropAsk (2 * n + 1) s))

/-- Programs of command `c` back in a Clove's round-robin order, behind those that run there (R244). -/
def cloveRelease (c : Nat) (x : Clove) : Clove :=
  let back := fun (q : CloveProg) => if q.cmd = c then { q with suspended := false } else q
  let held := fun (q : CloveProg) => decide (q.cmd = c) && q.suspended
  if (x.progs.any held) || (x.waiting.any held) then
    cloveFront { x with
      progs := x.progs.filter (fun q => !(held q)) ++ (x.progs.filter held).map back
      waiting := x.waiting.map back }
  else x

def releasePrograms (c : Nat) (s : State) : State :=
  let gs := (s.clv.clove.filter fun e => e.2.progs.any (·.cmd = c)).map (·.1)
  foldState gs switchIn { s with clv := { s.clv with clove := tabMap {} s.clv.clove fun _ x => cloveRelease c x } }

def jobResumeEffect (f r : Nat) (s : State) : State :=
  let j := (f, r)
  let p := homeOf s f
  match (partOf s p).images.find? fun m => m.fn = f && m.ring = r with
  | none => notTaken s
  | some m =>
    if ¬((ringOf s f r).job = .suspended ∧ (partOf s p).running = none ∧ (partOf s p).next = some j ∧ running s
        ∧ s.pwr.idle = .active ∧ ¬(ringOf s f r).recover) then notTaken s
    else
      let s := foldState m.cores (placeImage p) s
      let s := { s with staging := spaceJoin s.staging (restoredStaging s p m.staging) }
      let s := foldState (groupCmds s f r (ringOf s f r).curGroup) releasePrograms s
      let s := modPart p (fun q => { q with
        images := q.images.filter (fun m => !(m.fn = f && m.ring = r))
        running := some j, next := none, pendingStop := 0, pendingHold := false, pendingWait := false, woken := false }) s
      fabricResume j (noteRun p j (modRing f r (fun q => { q with job := .running }) s))

/-- A suspended job that was chosen restores its image and runs on (R371); its save slot is free. -/
def execJobResume (f r : Nat) (s : State) : Host.Outcome State Fault Refusal :=
  take (.jobResume f r) s (jobResumeEffect f r)

/-! ### Slices and waits -/

/-- The running job of a partition, RUNNING. -/
def activeJob (s : State) (p : Nat) : Option (Nat × Nat) :=
  match (partOf s p).running with
  | none => none
  | some j => if (jobRing s j).job = .running then some j else none

def sliceExpiredEffect (p : Nat) (s : State) : State :=
  match activeJob s p with
  | none => notTaken s
  | some j =>
    if minClass s (readyJobs s p) ≤ effClass (jobRing s j) then requestStop p 2 s else s

/-- A slice ends (R364): the running job is stopped for another of its class, or goes on with a new slice. -/
def execSliceExpired (p : Nat) (s : State) : Host.Outcome State Fault Refusal :=
  take (.sliceExpired p) s (sliceExpiredEffect p)

/-- Every core of a RUN that has not executed END holds issue at an unsatisfied WAIT (R365). -/
def runHeld (s : State) (c : Nat) : Bool :=
  let l := (coresOf s c).filter fun n => !(coreOf s n).done
  l != [] && l.all fun n => (coreOf s n).held

def waitHoldTimeoutEffect (c : Nat) (s : State) : State :=
  let x := cmdOf s c
  let p := homeOf s x.fn
  when (x.phase = .running && cmdClass x = 0x02 && runHeld s c && activeJob s p = some (x.fn, x.ring)
    && !(partOf s p).pendingHold) s (requestStop p 3 s)

/-- Every unfinished core of the RUN has held issue at a WAIT for 50 µs (R365): the job becomes WAITING. -/
def execWaitHoldTimeout (c : Nat) (s : State) : Host.Outcome State Fault Refusal :=
  take (.waitHoldTimeout c) s (waitHoldTimeoutEffect c)

/-- The decision that called for a pending stop still stands (R368); a satisfied wait has already withdrawn its own. -/
def stopStands (s : State) (p : Nat) (j : Nat × Nat) : Bool :=
  (partOf s p).pendingHold || match (partOf s p).pendingStop with
    | 1 => decide (minClass s (readyJobs s p) < effClass (jobRing s j))
    | 2 => decide (minClass s (readyJobs s p) ≤ effClass (jobRing s j))
    | _ => false

def pendingStopTakenEffect (p : Nat) (s : State) : State :=
  let q := partOf s p
  match activeJob s p with
  | none => notTaken s
  | some j =>
    if (q.pendingStop = 0 ∧ ¬q.pendingHold) ∨ q.saveSlots ≤ q.images.length then notTaken s
    else if stopStands s p j then requestStop p (if q.pendingHold then 3 else q.pendingStop) s
    else modPart p (fun q => { q with pendingStop := 0 }) s

/-- A save slot is free for a pending stop (R368): it is made if its decision still stands. -/
def execPendingStopTaken (p : Nat) (s : State) : Host.Outcome State Fault Refusal :=
  take (.pendingStopTaken p) s (pendingStopTakenEffect p)

end Sys2Proof.Machine
end

