-- ==== Sys2Proof/Machine/HostIf.lean ====
section
/-!
DEFINITION. Commands of the host interface (10_host_interface_and_commands.md): functions, rings, doorbells, bounce
buffers, messages, and the fetch, start, completion and end of commands and groups.
-/
namespace Sys2Proof.Machine

/-! ### Functions (R354, R355) -/

def fnEnableEffect (f : Nat) (s : State) : State :=
  if ¬hostUp s f then notTaken s
  else match (fnOf s f).state with
    | .disabled =>
      if (fnOf s f).assigned then sendMsg f 16 (modFn f (fun x => { x with state := .enabled }) s) else s
    | .enabled => s
    | .disabling => modFn f (fun x => { x with enableHeld := true }) s

/-- ENABLE written as 1 (R354). -/
def execFnEnable (f : Nat) (s : State) : Host.Outcome State Fault Refusal := take (.fnEnable f) s (fnEnableEffect f)

def fnDisableEffect (f : Nat) (s : State) : State :=
  if ¬hostUp s f then notTaken s
  else match (fnOf s f).state with
    | .enabled => beginShutdown f true s
    | _ => s

/-- ENABLE written as 0 (R354): the shut-down begins, and its commands get records (R355). -/
def execFnDisable (f : Nat) (s : State) : Host.Outcome State Fault Refusal := take (.fnDisable f) s (fnDisableEffect f)

def flrEffect (f : Nat) (s : State) : State :=
  if ¬hostUp s f then notTaken s
  else match (fnOf s f).state with
    | .disabled => clearFn f s
    | .enabled => beginShutdown f false s
    | .disabling => modFn f (fun x => { x with enableHeld := false }) s

/-- A function-level reset (R354, R355): no records; of a DISABLED function, step 4 at once. -/
def execFlr (f : Nat) (s : State) : Host.Outcome State Fault Refusal := take (.flr f) s (flrEffect f)

def fnShutdownCompleteEffect (f : Nat) (s : State) : State :=
  when ((fnOf s f).state = .disabling &&
      (cmdsWhere s fun x => x.fn = f && x.phase != .reported && !x.noRecord) = []) s (endShutdown f s)

/-- The shut-down ends once every record it owes is written (R355). -/
def execFnShutdownComplete (f : Nat) (s : State) : Host.Outcome State Fault Refusal :=
  take (.fnShutdownComplete f) s (fnShutdownCompleteEffect f)

/-! ### Rings (R328 to R334) -/

def ringEnableEffect (f r : Nat) (v : W32) (s : State) : State :=
  if ¬hostUp s f then notTaken s
  else
    let q := ringOf s f r
    match q.state with
    | .off =>
      let size := bits v.toNat 8 5
      let ok := decide (6 ≤ size ∧ size ≤ 16) && !((fnOf s f).enc && (q.sqTag = 0 || q.cqTag = 0))
      let s := modRing f r (fun q => { q with size := BitVec.ofNat 5 size }) s
      if ok then modRing f r (fun q => { q with en := true, state := .active, err := 0 }) s else badAccess f s
    | .stopping => badAccess f s
    | _ => s

/-- A write of HIF_RING_CTRL with EN = 1 (R328). -/
def execRingEnable (f r : Nat) (v : W32) (s : State) : Host.Outcome State Fault Refusal :=
  take (.ringEnable f r v) s (ringEnableEffect f r v)

def ringDisableEffect (f r : Nat) (v : W32) (s : State) : State :=
  if ¬hostUp s f then notTaken s
  else match (ringOf s f r).state with
    | .off => modRing f r (fun q => { q with size := BitVec.ofNat 5 (bits v.toNat 8 5), en := false }) s
    | .stopping => badAccess f s
    | _ => beginRingStop f r s

/-- A write of HIF_RING_CTRL with EN = 0 (R328, R334). -/
def execRingDisable (f r : Nat) (v : W32) (s : State) : Host.Outcome State Fault Refusal :=
  take (.ringDisable f r v) s (ringDisableEffect f r v)

def ringStopCompleteEffect (f r : Nat) (s : State) : State :=
  when ((ringOf s f r).state = .stopping && inFlight s f r = []) s (endRingStop f r s)

/-- The stop of R334 ends once every record is written. -/
def execRingStopComplete (f r : Nat) (s : State) : Host.Outcome State Fault Refusal :=
  take (.ringStopComplete f r) s (ringStopCompleteEffect f r)

/-- Doorbells are dropped and counted in these states (R333, R334, R355). -/
def dbDropped (s : State) (f r : Nat) : Bool := (fnOf s f).state = .disabling || (ringOf s f r).state != .active

/-- Source 64 + p of a doorbell on a partition's function (R446). -/
def raiseDoorbell (f : Nat) (s : State) : State :=
  if (fnOf s f).assigned then raise (64 + (fnOf s f).part) s else s

def sqTailEffect (f r : Nat) (v : W32) (s : State) : State :=
  if ¬hostUp s f then notTaken s
  else if dbDropped s f r then dropDb f s
  else
    let q := ringOf s f r
    let ahead := (v.toNat + 2 ^ 32 - q.head % 2 ^ 32) % 2 ^ 32
    let rise := (v.toNat + 2 ^ 32 - q.tail % 2 ^ 32) % 2 ^ 32
    let s := raiseDoorbell f s
    if rise = 0 then s
    else if 0 < ahead ∧ ahead ≤ 2 ^ q.size.toNat ∧ rise < 2 ^ 31 then
      modRing f r (fun q => { q with tail := q.tail + rise }) s
    else ringError f r 1 s

/-- A write of SQ_TAIL (R330). -/
def execSqTailDoorbell (f r : Nat) (v : W32) (s : State) : Host.Outcome State Fault Refusal :=
  take (.sqTailDoorbell f r v) s (sqTailEffect f r v)

def cqHeadEffect (f r : Nat) (v : W32) (s : State) : State :=
  if ¬hostUp s f then notTaken s
  else if dbDropped s f r then dropDb f s
  else
    let q := ringOf s f r
    let rise := (v.toNat + 2 ^ 32 - q.cqHead % 2 ^ 32) % 2 ^ 32
    let s := raiseDoorbell f s
    if rise ≤ q.cqCount - q.cqHead then modRing f r (fun q => { q with cqHead := q.cqHead + rise }) s
    else ringError f r 1 s

/-- A write of CQ_HEAD (R330). -/
def execCqHeadDoorbell (f r : Nat) (v : W32) (s : State) : Host.Outcome State Fault Refusal :=
  take (.cqHeadDoorbell f r v) s (cqHeadEffect f r v)

def hostAccessFailedEffect (f r : Nat) (write : Bool) (s : State) : State :=
  let err := if write then 3 else 2
  match (ringOf s f r).state with
  | .off => notTaken s
  | .stopping => sendMsg f 16 (modRing f r (fun q => { q with err := err }) s)
  | _ => ringError f r err s

/-- A host read or write of the ring fails at the PCIe level (R333, R326); a ring that is stopping goes on with its stop, and
the last failure stands in ERR (log 135). -/
def execHostAccessFailed (f r : Nat) (write : Bool) (s : State) : Host.Outcome State Fault Refusal :=
  take (.hostAccessFailed f r write) s (hostAccessFailedEffect f r write)

/-! ### Bounce buffers (R344) -/

def bbRegisterEffect (f b : Nat) (v : W32) (s : State) : State :=
  if ¬hostUp s f then notTaken s
  else
    let q := bufOf s f b
    if q.valid then s
    else
      let n := q.len.toNat
      if n % 4096 = 0 ∧ 4096 ≤ n ∧ n ≤ 2 ^ 36 then
        modBuf f b (fun q => { q with valid := true, access := BitVec.ofNat 2 (bits v.toNat 1 2) }) s
      else badAccess f s

/-- A write of HIF_BB_CTRL that sets VALID (R344). -/
def execBbRegister (f b : Nat) (v : W32) (s : State) : Host.Outcome State Fault Refusal :=
  take (.bbRegister f b v) s (bbRegisterEffect f b v)

def bbDeregisterEffect (f b : Nat) (v : W32) (s : State) : State :=
  when (hostUp s f) s (modBuf f b (fun q => { q with valid := false, access := BitVec.ofNat 2 (bits v.toNat 1 2) }) s)

/-- A write of HIF_BB_CTRL that clears VALID (R344): it holds for every host access that starts afterwards. -/
def execBbDeregister (f b : Nat) (v : W32) (s : State) : Host.Outcome State Fault Refusal :=
  take (.bbDeregister f b v) s (bbDeregisterEffect f b v)

def ringSchedEffect (f r : Nat) (v : W32) (s : State) : State :=
  if ¬hostUp s f then notTaken s
  else
    let slice := bits v.toNat 8 8
    if bits v.toNat 2 6 ≠ 0 ∨ bits v.toNat 19 13 ≠ 0 ∨ slice < 1 ∨ 200 < slice then badAccess f s
    else modRing f r (fun q => { q with cls := BitVec.ofNat 2 (bits v.toNat 0 2), slice := BitVec.ofNat 8 slice }) s

/-- A write of HIF_RING_SCHED (R384): JOB is RO; a bad SLICE or a reserved bit discards the write. -/
def execRingSchedWrite (f r : Nat) (v : W32) (s : State) : Host.Outcome State Fault Refusal :=
  take (.ringSchedWrite f r v) s (ringSchedEffect f r v)

/-! ### Messages (R350 to R353) -/

def msixUnmaskEffect (f v : Nat) (s : State) : State :=
  if ¬hostUp s f then notTaken s
  else
    let p := (vecOf s f v).pending
    let s := modVec f v (fun x => { x with masked := false, pending := false }) s
    if p then sendMsg f v (if v < 16 then modRing f v (fun q => { q with sinceMsg := 0 }) s else s) else s

/-- A vector is unmasked: a pending message is sent, and it covers every record written so far (R353). -/
def execMsixUnmask (f v : Nat) (s : State) : Host.Outcome State Fault Refusal :=
  take (.msixUnmask f v) s (msixUnmaskEffect f v)

def msixCoalesceTimeoutEffect (f r : Nat) (s : State) : State :=
  let q := ringOf s f r
  when (q.countUsed != 0 && q.sinceMsg != 0) s (sendMsg f r (modRing f r (fun q => { q with sinceMsg := 0 }) s))

/-- TIME has passed since the earliest unreported record (R351), by the setting that record was written under (R352). -/
def execMsixCoalesceTimeout (f r : Nat) (s : State) : Host.Outcome State Fault Refusal :=
  take (.msixCoalesceTimeout f r) s (msixCoalesceTimeoutEffect f r)

/-! ### The way of a command (R331, R152 to R155) -/

/-- The device fetches from a ring under these conditions (R331). -/
def canFetch (s : State) (f r : Nat) : Bool :=
  let q := ringOf s f r
  running s && hostLink s f && s.pwr.idle = .active && (fnOf s f).state = .enabled && q.state = .active && decide (q.head < q.tail)
    && slotFree s f r

/-- The new command of a fetch, with what its place in the group makes of it (R336, R349); fetched into a group that has been
replayed, it reports as part of the replay (R342). -/
def fetchedCmd (s : State) (f r : Nat) : Cmd :=
  let q := ringOf s f r
  let (d, ok) := readDescriptor s f r
  let x : Cmd := { phase := .fetched, fn := f, ring := r, count := q.head, desc := BitVec.ofNat 512 (if ok then d else 0),
                   group := q.fetchGroup, authFailed := !ok
                   replayed := q.fetchGroup = q.curGroup && decide (1 < q.runs) }
  let long := decide (1024 ≤ q.fetchLen)
  { x with
    overLong := long
    last := cmdGroupEnd x || !ok || long
    notAlone := cmdClass x = 0x04 && (!cmdGroupEnd x || q.fetchLen != 0) }

def descriptorFetchEffect (f r : Nat) (s : State) : State :=
  if ¬canFetch s f r then notTaken s
  else
    let x := fetchedCmd s f r
    let q := ringOf s f r
    let c := s.hif.nextCmd + 1
    let dead := q.failed && x.group = q.curGroup
    let s := { s with hif := { s.hif with cmds := tabSet {} s.hif.cmds c x, nextCmd := c } }
    let s := modRing f r (fun q => { q with
      head := q.head + 1
      submitted := if q.fetchLen = 0 then satAdd 64 q.submitted 1 else q.submitted
      fetchGroup := if x.last then q.fetchGroup + 1 else q.fetchGroup
      fetchLen := if x.last then 0 else q.fetchLen + 1
      job := if q.job = .idle then .ready else q.job }) s
    let s := if dead then markDone c .cancelled 0 0 0 0 s else if x.overLong then markDone c .descFault 0x602 0 0 0 s else s
    schedule (homeOf s f) s

/-- The next descriptor is fetched, its slot reserved, HEAD advanced (R331); its group and job take note of it. -/
def execDescriptorFetch (f r : Nat) (s : State) : Host.Outcome State Fault Refusal :=
  take (.descriptorFetch f r) s (descriptorFetchEffect f r)

/-- The job that a command belongs to runs. -/
def jobRuns (s : State) (x : Cmd) : Bool :=
  (partOf s (homeOf s x.fn)).running = some (x.fn, x.ring) && (ringOf s x.fn x.ring).job = .running

/-- When a command may start (R152, R336): its job runs, its group is the current one and has not failed, no recovery
is due, and every earlier command has completed or, if CONCURRENT, started. -/
def canStart (s : State) (c : Nat) : Bool :=
  let x := cmdOf s c
  let q := ringOf s x.fn x.ring
  running s && s.pwr.idle = .active && x.phase = .fetched && jobRuns s x && x.group = q.curGroup && !q.failed
    && !q.recover && q.state != .stopping
    && (groupCmds s x.fn x.ring x.group).all fun d =>
      let y := cmdOf s d
      !(decide (y.count < x.count)) || (if cmdConcurrent y then y.phase != .fetched else phaseDone y.phase)

/-- A command is running; its place in the order of starts is noted. -/
def noteStart (c : Nat) (s : State) : State :=
  let n := s.hif.starts + 1
  modCmd c (fun x => { x with phase := .running, startNo := n }) { s with hif := { s.hif with starts := n } }

def commandStartEffect (c : Nat) (s : State) : State :=
  if ¬canStart s c then notTaken s
  else match startFault s (cmdOf s c) with
    | some (st, cause) => fail c st cause s
    | none => noteStart c (startMover (cmdOf s c) s)

/-- A command starts (R152); a malformed descriptor ends it at once (R335 to R338, R349). -/
def execCommandStart (c : Nat) (s : State) : Host.Outcome State Fault Refusal :=
  take (.commandStart c) s (commandStartEffect c)

/-- When a record may be written: the command has completed (R155) and the link that carries it is up (R505); the last of a group waits for the drain (R179); a
record of the current group waits while a recovery of the group is due (R464). -/
def canComplete (s : State) (c : Nat) : Bool :=
  let x := cmdOf s c
  running s && x.phase = .done && (x.noRecord || hostLink s x.fn)
    && (!(groupClosed s x) || othersOpen s c != [] || (ringOf s x.fn x.ring).drained
        || x.group != (ringOf s x.fn x.ring).curGroup)
    && !((ringOf s x.fn x.ring).recover && x.group = (ringOf s x.fn x.ring).curGroup)

def commandCompleteEffect (c : Nat) (s : State) : State :=
  if ¬canComplete s c then notTaken s
  else
    let x := cmdOf s c
    let f := x.fn
    let r := x.ring
    let ends := groupClosed s x && othersOpen s c = [] && x.group = (ringOf s f r).curGroup
    let s := if x.noRecord then s else coalesce f r (writeRecord f r x s)
    let s := if (fnOf s f).assigned then raise (128 + (fnOf s f).part) s else s
    let out := if x.status = .poisonConsumed then outPoison else if x.status = .unrecovered then outUnrecovered else 0
    let s := modRing f r (fun q => if x.group = q.curGroup then { q with recOutcome := Nat.max q.recOutcome out } else q) s
    let s := modCmd c (fun x => { x with phase := .reported }) s
    let s := if x.status = .poisonConsumed then endFabric c x.cause s else s
    let s := modPart (homeOf s f) (fun q => { q with heldRecords := q.heldRecords.filter fun e => e.2 != c }) s
    let s := if statusOk x.status then s else settleWaits (homeOf s f) s (cancelGroup f r x.group s)
    let s := settleFences s.hif.cmds.length s
    if ends then endGroup f r s else s

/-- The record of a completed command, its event and message (R155); a failure cancels the rest of its group (R153); the
last record ends the group (R179). -/
def execCommandComplete (c : Nat) (s : State) : Host.Outcome State Fault Refusal :=
  take (.commandComplete c) s (commandCompleteEffect c)

/-- When the current group of a ring can drain (R25, R179): wholly fetched, every command completed. -/
def canDrain (s : State) (f r : Nat) : Bool :=
  let q := ringOf s f r
  let l := groupCmds s f r q.curGroup
  running s && !q.drained && decide (q.curGroup < q.fetchGroup) && l != []
    && l.all fun c => phaseDone (cmdOf s c).phase

def groupEndEffect (f r : Nat) (s : State) : State :=
  if ¬canDrain s f r then notTaken s
  else
    let p := homeOf s f
    let s := if (partOf s p).running = some (f, r) then drainEngines p s else dropImage f r s
    modRing f r (fun q => { q with drained := true }) s

/-- The engines of a group drain: scratchpads, accumulators and staging regions are emptied (R25, R179, R180); those of a group
that ended while its job was suspended stand in its save image, which is discarded. -/
def execGroupEnd (f r : Nat) (s : State) : Host.Outcome State Fault Refusal := take (.groupEnd f r) s (groupEndEffect f r)

end Sys2Proof.Machine
end

