-- ==== Sys2Proof/Machine/StackMem.lean ====
section
/-!
DEFINITION. The stacks and the far ports (06): ordinary accesses and their deferral, refresh, scrubbing, the read-back of a
rewritten word, retirement and its moves, raw ECC_TEST accesses, and far links that go down.
-/
namespace Sys2Proof.Machine

/-! ### Ordinary accesses (R207, R238 to R240) -/

/-- The physical chunk that holds a byte of a bank (R184 to R186). -/
def chunkAt (s : State) (g off : Nat) : Nat :=
  let j := off / 2 ^ 21
  j * 4096 + (if s.mem.planeMode.getLsbD j then g else off % 2 ^ 21 / 512)

def deferAccess (g : Nat) (d : Deferred) (s : State) : State :=
  let l := tabGet [] s.mem.deferred g
  if 64 ≤ l.length then notTaken s
  else modClove g (fun x => { x with deferredCount := satAdd 64 x.deferredCount 1 })
    { s with mem := { s.mem with deferred := tabSet [] s.mem.deferred g (l ++ [d]) } }

/-- An access held for the next window of its stack. -/
def holdAccess (g : Nat) (d : Deferred) (s : State) : State :=
  { s with mem := { s.mem with bwHeld := tabMod [] s.mem.bwHeld (g / 512) (· ++ [(g, d)]) } }

def stackOrdinaryAccessEffect (p g off : Nat) (write : Option (BitVec 512)) (s : State) : State :=
  if ¬running s ∨ chunkMoving s (chunkAt s g off) then notTaken s
  else if bwWaits s p (g / 512) then holdAccess g { part := p, off := off, write := write } s
  else if windowDefers s g off 64 then deferAccess g { part := p, off := off, write := write } s
  else match write with
    | some v => countSectors p (g / 512) 1 (writeSector g off v s)
    | none =>
      let (v, bad) := sectorData s g off
      setReply (.sector v bad) (countSectors p (g / 512) 1 (readSectorNote p g off s))

/-- An ordinary access of one sector (R192, R194, R207, R238, R239): served at once, held for the next window where its partition is
capped and over its budget, or deferred to the next yield. -/
def execStackOrdinaryAccess (p g off : Nat) (write : Option (BitVec 512)) (s : State) :
    Host.Outcome State Fault Refusal :=
  take (.stackOrdinaryAccess p g off write) s (stackOrdinaryAccessEffect p g off write)

def refreshOperationEffect (g : Nat) (s : State) : State :=
  when (running s) s { s with mem := { s.mem with bankBand := tabSet 0 s.mem.bankBand g (tabGet 0 s.mem.band (g / 512)) } }

/-- The oldest access of partition `p` that waits for a window of stack `st` served, while the partition is within its budget or not
capped; one that its chunk's move holds waits on, one to an EXCLUSIVE window is deferred (R201, R207, R239). -/
def serveHeld (st p : Nat) (s : State) : State :=
  match (tabGet [] s.mem.bwHeld st).find? fun h => h.2.part = p with
  | none => s
  | some h =>
    if bwWaits s p st ∨ chunkMoving s (chunkAt s h.1 h.2.off)
        ∨ (windowDefers s h.1 h.2.off 64 ∧ 64 ≤ (tabGet [] s.mem.deferred h.1).length) then s
    else
      let s := { s with mem := { s.mem with bwHeld := tabMod [] s.mem.bwHeld st (·.erase h) } }
      if windowDefers s h.1 h.2.off 64 then deferAccess h.1 h.2 s else serveWaiting h.1 h.2 s

/-- The accesses that waited for the window of a stack: round after round, the partitions by number (R207). -/
def serveWindow (st : Nat) (s : State) : State :=
  iter (fun _ s => foldState (rangeFrom 0 64) (serveHeld st) s) 0 (tabGet [] s.mem.bwHeld st).length s

/-- A refresh of a bank (R204): data stays, and the stack's band takes effect in the bank (R205). -/
def execRefreshOperation (g : Nat) (s : State) : Host.Outcome State Fault Refusal :=
  take (.refreshOperation g) s (refreshOperationEffect g)

def scrubReadEffect (g off : Nat) (s : State) : State :=
  if ¬running s ∨ chunkMoving s (chunkAt s g off) then notTaken s
  else if windowDefers s g off 8 then deferAccess g { part := 64, off := off, write := none, scrub := true } s
  else noteWord 64 g off s

/-- A scrub read (R195, R196): an ordinary read that no regulator counts. -/
def execScrubRead (g off : Nat) (s : State) : Host.Outcome State Fault Refusal :=
  take (.scrubRead g off) s (scrubReadEffect g off)

/-! ### Retirement (R200 to R203) -/

def isRetired (s : State) (u : RetUnit) : Bool := s.mem.retired.contains u || s.mem.retiredNow.contains u

/-- A unit retired: into the non-volatile record while it has room, source 56 when it becomes full (R203, R446). -/
def addRetired (u : RetUnit) (s : State) : State :=
  if isRetired s u then s
  else if s.mem.retired.length < 4096 then
    let s := { s with mem := { s.mem with retired := s.mem.retired ++ [u] } }
    if s.mem.retired.length = 4096 then raise 56 s else s
  else { s with mem := { s.mem with retiredNow := s.mem.retiredNow ++ [u] } }

/-- The map entry that names a physical chunk: its number and what it says. -/
def mapOf (s : State) (k : Nat) : Option (Nat × CtEntry) := s.mem.ct.find? fun e => e.2.valid && e.2.pchunk = k

/-- The partition that owns a map entry. -/
def entryOwner (s : State) (n : Nat) : Option Nat :=
  findFrom (fun p => (partOf s p).state != .none && decide ((partOf s p).ctBase ≤ n ∧ n < (partOf s p).ctBase + (partOf s p).ctCount)) 0 64

/-- Chunks that hold the frame tables, which no partition is given (R256). -/
def withheld (s : State) (k : Nat) : Bool :=
  if s.mem.planeMode.getLsbD 63 then k / 4096 = 63 else decide (262016 ≤ k)

/-- A physical chunk of an INTERLEAVED plane that is free: unmapped, not retired, no target of a move, none of the frame tables'. -/
def freeInterleaved (s : State) (k : Nat) : Bool :=
  !(planeLocal s k) && !(withheld s k) && (mapOf s k).isNone && !(isRetired s (.chunk k)) && !(s.mem.moves.any fun m => m.target = k)

/-- The frames of a BANK_LOCAL chunk of planes 0 to 31 marked RETIRED (R200). -/
def retireFrames (k : Nat) (s : State) : State :=
  if 32 ≤ k / 4096 then s
  else foldState (rangeFrom (k % 4096 * 4096 + k / 4096 * 128) 128) (fun n => modFrame n fun y => { y with retired := true }) s

/-- The entry reads RETIRED and not VALID (R201, R202). -/
def retireEntry (n : Nat) (s : State) : State := setCt n { ctOf s n with retired := true, valid := false } s

/-- The move of map entry `n` away from chunk `k`: to the lowest-numbered free chunk, otherwise the entry is retired (R201). -/
def beginMove (k n : Nat) (s : State) : State :=
  match findFrom (freeInterleaved s) 0 262144 with
  | none => retireEntry n s
  | some t => { s with mem := { s.mem with moves := s.mem.moves ++ [⟨k, n, t⟩] } }

/-- An INTERLEAVED chunk retired, once (R201): a move begins when a free chunk exists, otherwise its entry is retired; held by no
partition it is retired without a copy, and a move that had it as its target takes another. -/
def retireInterleaved (k : Nat) (s : State) : State :=
  if isRetired s (.chunk k) then s
  else
    let s := addRetired (.chunk k) s
    match s.mem.moves.find? fun m => m.target = k with
    | some m => beginMove m.chunk m.entry { s with mem := { s.mem with moves := s.mem.moves.erase m } }
    | none => match mapOf s k with
      | none => s
      | some (n, _) => beginMove k n s

/-- The smallest unit with the word retired (R200, R277). -/
def retireAt (g off : Nat) (s : State) : State :=
  let k := chunkAt s g off
  if ¬planeLocal s k then retireInterleaved k s
  else
    let kv : Bool := match mapOf s k with | none => true | some (_, e) => e.kv
    if k / 4096 < 32 ∧ kv then
      let n := g * 4096 + off / 16384
      let s := { s with kvt := { s.kvt with retireEvents := s.kvt.retireEvents ++ [(n, (frameOf s n).seq)] } }
      addRetired (.frame n) (modFrame n (fun y => { y with retired := true }) s)
    else { s with mem := { s.mem with localRetire := s.mem.localRetire ++ [k] } }

/-- DETAIL of a hard fault's record (R460): the bank offset, and whether a frame is retired. -/
def hardDetail (s : State) (g off : Nat) : W64 :=
  let k := chunkAt s g off
  let kv : Bool := match mapOf s k with | none => true | some (_, e) => e.kv
  BitVec.ofNat 64 (off + b01 (planeLocal s k && decide (k / 4096 < 32) && kv) * 2 ^ 32)

/-- The partitions that a lost word may affect: the holder of its chunk. -/
def holdersAt (s : State) (g off : Nat) : List Nat :=
  match mapOf s (chunkAt s g off) with
  | none => []
  | some (n, _) => (entryOwner s n).toList

def eccReadbackEffect (g off : Nat) (data : W64) (check : Byte) (s : State) : State :=
  match s.mem.rewrites.find? fun r => r.g = g && r.off = off with
  | none => notTaken s
  | some r =>
    let s := { s with mem := { s.mem with rewrites := s.mem.rewrites.erase r } }
    let y := eccSyndrome data.toNat check.toNat
    let since := (y = 0 || y = 0x7F) && rawWord s g off = (data.toNat, check.toNat)
    let s := putRaw g off data.toNat check.toNat s
    if y = (if r.correctable then 0 else 0x7F) || since then s
    else
      let st := g / 512
      let d := hardDetail s g off
      let ps := holdersAt s g off
      let s := { s with mem := { s.mem with
        errLast := tabSet 0 s.mem.errLast st (BitVec.ofNat 64 (3 * 2 ^ 40 + g * 2 ^ 28 + off)) } }
      let s := retireAt g off s
      if r.correctable then
        writeRecordOf { outcome := outMasked, kind := 0x02, source := 8 + st, unit := g, detail := d
                        part := (match ps with | [p] => p | _ => 0x7F) } s
      else faultAffects 0x02 (8 + st) g d ps (foldState ps (fun p => loseWord p g off false) s)

/-- The read-back of a rewritten word, as it comes back from the bank (R196): a bad syndrome is a hard fault, recorded, and
its unit is retired (R200). A word stored over since, clean or poisoned, that comes back as it was stored is no fault. -/
def execEccReadback (g off : Nat) (data : W64) (check : Byte) (s : State) : Host.Outcome State Fault Refusal :=
  take (.eccReadback g off data check) s (eccReadbackEffect g off data check)

/-- Sector words of a chunk: bank and offset of its i-th word. -/
def chunkWord (isLocal : Bool) (k i : Nat) : Nat × Nat := chunkLoc isLocal k (8 * i)

/-- A word copied to its place in another chunk (R201): poison stays, correctable errors are corrected. -/
def moveWord (a b : Nat) (i : Nat) (s : State) : State :=
  let (g, off) := chunkWord false a i
  let (h, dst) := chunkWord false b i
  let (x, k) := readWord s g off
  let s := noteWord 64 g off s
  if kindPoison k then putPoison h dst x s else putWord h dst x s

/-- The first `n` words of a chunk copied to its target. -/
def moveWords (chunk target n : Nat) (s : State) : State := iter (fun i s => moveWord chunk target i s) 0 n s

/-- An access that waits for a window goes to its sector's new place (R201). -/
def followMove (m : ChunkMove) (s : State) (h : Nat × Deferred) : Nat × Deferred :=
  if chunkAt s h.1 h.2.off = m.chunk then
    (h.1, { h.2 with off := m.target / 4096 * 2 ^ 21 + 512 * (m.target % 4096) + h.2.off % 512 })
  else h

/-- A chunk of `n` words stands in its target: the move is over and the map entry names the target (R201), to which the accesses that
waited go. The words of the retired chunk are rewritten no more. -/
def endMove (m : ChunkMove) (n : Nat) (s : State) : State :=
  let s := moveWords m.chunk m.target n s
  let s := { s with mem := { s.mem with
    moves := s.mem.moves.erase m
    bwHeld := tabMap [] s.mem.bwHeld fun _ l => l.map (followMove m s)
    rewrites := s.mem.rewrites.filter fun r => chunkAt s r.g r.off != m.chunk } }
  setCt m.entry { ctOf s m.entry with pchunk := m.target } s

def retireMoveCompleteEffect (chunk : Nat) (s : State) : State :=
  match s.mem.moves.find? fun m => m.chunk = chunk with
  | none => notTaken s
  | some m => endMove m (2 ^ 18) s

/-- The move of a retired chunk ends (R201): its words stand in the target, the map entry names it, held accesses go on. -/
def execRetireMoveComplete (chunk : Nat) (s : State) : Host.Outcome State Fault Refusal :=
  take (.retireMoveComplete chunk) s (retireMoveCompleteEffect chunk)

/-- A window of a BANK_RUN that has not ended covers the chunk (R202). -/
def windowOver (s : State) (k : Nat) : Bool :=
  let lo := k / 4096 * 2 ^ 21
  s.hif.cmds.any fun e => e.2.phase = .running && e.2.windows.any fun w =>
    w.1 = k % 4096 && decide (w.2.1 < lo + 2 ^ 21 ∧ lo ≤ w.2.2)

/-! ### Raw accesses (R198, R209) -/

/-- A raw access begins: the window is open, no access is in progress, and the PF is up. -/
def rawReady (s : State) (st : Nat) : Bool := hostUp s 0 && (eccOf s st).en && !(eccOf s st).busy

/-- A raw access (R198): performed, or BUSY until the bank's program yields, as an ordinary access waits (R239). -/
def rawBegin (st : Nat) (write read : Bool) (s : State) : State :=
  let (g, off) := testWord (eccOf s st)
  if windowDefers s g off 8 then modEcc st (fun e => { e with busy := true, rawWrite := write, rawRead := read }) s
  else rawAccess st write read s

def eccTestRawWriteEffect (st : Nat) (v : W32) (s : State) : State := when (rawReady s st) s (rawBegin st true (v.getLsbD 1) s)

/-- A raw write (R198): data and check byte stored without encoding; with READ_RAW as well, then read. -/
def execEccTestRawWrite (st : Nat) (v : W32) (s : State) : Host.Outcome State Fault Refusal :=
  take (.eccTestRawWrite st v) s (eccTestRawWriteEffect st v)

def eccTestRawReadEffect (st : Nat) (s : State) : State := when (rawReady s st) s (rawBegin st false true s)

/-- A raw read (R198): data, check byte and syndrome without correction. -/
def execEccTestRawRead (st : Nat) (s : State) : Host.Outcome State Fault Refusal :=
  take (.eccTestRawRead st) s (eccTestRawReadEffect st)

/-! ### Far links (R215) -/

/-- A far port with a device whose link is up. -/
def farUp (s : State) (q : Nat) : Bool :=
  running s && !(q = 1 && far1Host s) && (farPortOf s q).present && (farPortOf s q).link

def farLinkDownEffect (q : Nat) (s : State) : State :=
  when (farUp s q && !(farPortOf s q).retraining) s
    (faultSettled 0x32 (29 + q) q 0 outPending
      (modFarPort q (fun x => { x with retraining := true, record := some s.evc.flogCount }) s))

/-- A far link goes down: the port retrains, its accesses are held (R215, R446, R460); the record is PENDING until then. -/
def execFarLinkDown (q : Nat) (s : State) : Host.Outcome State Fault Refusal :=
  take (.farLinkDown q) s (farLinkDownEffect q)

def farLinkRestoredEffect (q : Nat) (wide : Bool) (s : State) : State :=
  when ((farPortOf s q).retraining) s
    (raise (48 + q) (modFarPort q (fun x => { x with retraining := false, record := none, width := if wide then 2 else 1 })
      (settleFarRecord q outMasked s)))

/-- A far link is restored within 10 ms: held accesses go on, no command saw the fault, source 48 + q reports the retraining. -/
def execFarLinkRestored (q : Nat) (wide : Bool) (s : State) : Host.Outcome State Fault Refusal :=
  take (.farLinkRestored q wide) s (farLinkRestoredEffect q wide)

def farRetrainTimeoutEffect (q : Nat) (s : State) : State :=
  when ((farPortOf s q).retraining) s
    (modFarPort q (fun x => { x with retraining := false, dead := true, link := false, width := 0 })
      (settleFarRecord q outNoEffect s))

/-- A far link not restored within 10 ms: LINK reads 0 and the port stays down until a cold reset; the record reads NO_EFFECT
unless a COPY ends with UNRECOVERED for it later (R459). -/
def execFarRetrainTimeout (q : Nat) (s : State) : Host.Outcome State Fault Refusal :=
  take (.farRetrainTimeout q) s (farRetrainTimeoutEffect q)

end Sys2Proof.Machine
end

