-- ==== Sys2Proof/Machine/Sems.lean ====
section
/-!
DEFINITION. Commands of the semaphores, fences and quotas (R175, R176, R341, R380), and the 1 µs window of the bandwidth
regulator in which a changed share comes into force (R206, R208).
-/
namespace Sys2Proof.Machine

/-- A started command of a class whose effect is still to come: its job runs (R362). -/
def classReady (s : State) (c cls : Nat) : Bool :=
  let x := cmdOf s c
  running s && x.phase = .running && !x.waiting && cmdClass x = cls && jobRuns s x

/-- The partition a command acts for. -/
def cmdPart (x : Cmd) (s : State) : Nat := homeOf s x.fn

def semIndex (x : Cmd) : Nat := field x 8 2
def semAmount (x : Cmd) : Nat := field x 12 4
def semConsume (x : Cmd) : Bool := bit x.desc.toNat 128

/-- A semaphore in use: a value or a waiter (R378). -/
def semInUse (s : State) (n : Nat) : Bool := semVal s n != 0 || s.sem.waiters.any fun w => w.sem = n

/-- Bringing an unused semaphore into use is refused at the quota (R379). -/
def semOverQuota (s : State) (p n : Nat) : Bool := !(semInUse s n) && decide ((partOf s p).semQuota ≤ semUse s p)

def semSignalEffect (c : Nat) (s : State) : State :=
  let x := cmdOf s c
  let p := cmdPart x s
  if ¬classReady s c 0x20 then notTaken s
  else if x.applied then finishOk c 0 s
  else match semNum s p (semIndex x) with
    | none => fail c .boundsFault 0x743 s
    | some n =>
      if semAmount x ≠ 0 ∧ semOverQuota s p n then fail c .quotaExceeded 0x741 s
      else semAdd n (semAmount x) (x.fn, x.ring) (finishOk c 0 (modCmd c (fun x => { x with applied := true }) s))

/-- SEM_SIGNAL (R175, R379): adds VALUE, once however often its group runs (R177). -/
def execSemSignal (c : Nat) (s : State) : Host.Outcome State Fault Refusal := take (.semSignal c) s (semSignalEffect c)

def semWaitEffect (c : Nat) (s : State) : State :=
  let x := cmdOf s c
  let p := cmdPart x s
  if ¬classReady s c 0x21 then notTaken s
  else if x.applied then finishOk c 0 s
  else match semNum s p (semIndex x) with
    | none => fail c .boundsFault 0x743 s
    | some n =>
      if semVal s n < semAmount x ∧ semOverQuota s p n then fail c .quotaExceeded 0x741 s
      else
        let w : Waiter := { sem := n, value := semAmount x, consume := semConsume x, who := .command c, fn := x.fn,
                            ring := x.ring }
        let (now, s) := semWaitNow w s
        if now then finishOk c 0 (modCmd c (fun x => { x with applied := true }) s)
        else requestStop p 3 (reinherit p (modCmd c (fun x => { x with waiting := true }) s))

/-- SEM_WAIT (R176): satisfied at once, or it waits and its job gives up the engines (R365). -/
def execSemWait (c : Nat) (s : State) : Host.Outcome State Fault Refusal := take (.semWait c) s (semWaitEffect c)

/-- The commands a FENCE waits for (R341): those fetched before it from its own ring and the rings named. -/
def fenceTargets (s : State) (c : Nat) : List Nat :=
  let x := cmdOf s c
  cmdsWhere s (fun y => y.fn = x.fn && !phaseDone y.phase && (y.ring = x.ring || bit (field x 8 2) y.ring))
    |>.filter fun d => decide (d < c)

def fenceEffect (c : Nat) (s : State) : State :=
  let x := cmdOf s c
  if ¬classReady s c 0x22 then notTaken s
  else
    let l := fenceTargets s c
    if l = [] then finishOk c 0 s
    else
      let s := modCmd c (fun x => { x with waiting := true, waitFor := l }) s
      if l.all fun d => (cmdOf s d).ring = x.ring then s else requestStop (cmdPart x s) 3 s

/-- FENCE (R341): completes when every command fetched earlier from its rings has; it waits until then, and gives up the
engines when another ring's command is among them. -/
def execFence (c : Nat) (s : State) : Host.Outcome State Fault Refusal := take (.fence c) s (fenceEffect c)

/-! ### Quotas (R378 to R380) -/

def quotaKind (x : Cmd) : Nat := field x 9 1
def quotaTarget (x : Cmd) : Nat := field x 8 1
def quotaValue (x : Cmd) : Nat := field x 12 4

/-- The total of a quota over every partition but one. -/
def othersTotal (s : State) (p : Nat) (g : Part → Nat) : Nat :=
  (s.parts.filter fun e => e.1 != p && e.2.state != .none).foldl (fun n e => n + g e.2) 0

/-- The reserved codes and bits of QUOTA_SET (R382). -/
def quotaMalformed (kind v : Nat) : Bool :=
  decide (3 < kind) || (kind = 3 && (bits v 11 5 != 0 || bits v 17 15 != 0 || (bit v 16 && bits v 0 11 = 0)))

/-- A value beyond its limit (R380). -/
def quotaBeyond (s : State) (p kind v : Nat) : Bool :=
  match kind with
  | 0 => decide (16777216 < v)
  | 1 => decide (4096 < v + othersTotal s p (·.slotQuota))
  | 2 => decide ((partOf s p).semCount < v)
  | _ => decide (1024 < bits v 0 11 + othersTotal s p (·.share))

def quotaApply (p kind v : Nat) (s : State) : State :=
  modPart p (fun q => match kind with
    | 0 => { q with kvQuota := v }
    | 1 => { q with slotQuota := v }
    | 2 => { q with semQuota := v }
    | _ => { q with share := bits v 0 11, cap := bit v 16 }) s

def quotaSetEffect (c : Nat) (s : State) : State :=
  let x := cmdOf s c
  let p := quotaTarget x
  let kind := quotaKind x
  let v := quotaValue x
  if ¬classReady s c 0x40 then notTaken s
  else if quotaMalformed kind v then fail c .descFault 0x701 s
  else if ¬(p < 64 ∧ (partOf s p).state = .active) then fail c .boundsFault 0x631 s
  else if quotaBeyond s p kind v then fail c .quotaExceeded 0x740 s
  else
    let s := quotaApply p kind v s
    if kind = 3 then modCmd c (fun x => { x with waiting := true, waitFor := rangeFrom 0 8 }) s else finishOk c 0 s

/-- QUOTA_SET (R380): sets a quota within its limits; a share is in force from the next window of each stack, and the
command completes then (R208). -/
def execQuotaSet (c : Nat) (s : State) : Host.Outcome State Fault Refusal := take (.quotaSet c) s (quotaSetEffect c)

/-- Shares in force in a stack, with CAP in bit 16 (R206). -/
def shareInForce (s : State) (p : Nat) : Nat := b01 (partOf s p).cap * 2 ^ 16 + (partOf s p).share

def bwWindowRolloverEffect (st : Nat) (s : State) : State :=
  if ¬running s then notTaken s
  else
    let s := { s with mem := { s.mem with
      shareNow := iter (fun p t => tabSet 0 t (st * 64 + p) (shareInForce s p)) 0 64 s.mem.shareNow
      bwUsed := tabDrop s.mem.bwUsed fun k => k / 64 = st } }
    let s := serveWindow st s
    let l := cmdsWhere s fun x => x.phase = .running && x.waiting && cmdClass x = 0x40
    foldState l (fun c s =>
      let rest := (cmdOf s c).waitFor.filter fun k => k != st
      if rest = [] then finishOk c 0 s else modCmd c (fun x => { x with waitFor := rest }) s) s

/-- A window of stack `st` ends (R206 to R208): the shares set since are in force in the next, whose budgets are whole, and the accesses
that waited for it are served. -/
def execBwWindowRollover (st : Nat) (s : State) : Host.Outcome State Fault Refusal :=
  take (.bwWindowRollover st) s (bwWindowRolloverEffect st)

end Sys2Proof.Machine
end

