-- ==== Sys2Proof/Machine/Operands.lean ====
section
/-!
DEFINITION. Operand forms: the fifteen number formats, their codes, widths and encodings read as exact values
(02_number_formats_and_accumulation.md, R37 to R47), and the format rules that name them.
-/
namespace Sys2Proof.Machine

/-- Format codes (R83). -/
def fmtOf (c : Nat) : Fmt :=
  match c % 16 with
  | 0 => .f32 | 1 => .bf16 | 2 => .f16 | 3 => .f8e4 | 4 => .f8e5 | 5 => .f6e3 | 6 => .f6e2 | 7 => .f4
  | 8 => .i32 | 9 => .i8 | 10 => .i4 | 11 => .t2 | 12 => .s8 | 13 => .w128 | 14 => .f64 | _ => .e16

def fmtCode : Fmt → Nat
  | .f32 => 0 | .bf16 => 1 | .f16 => 2 | .f8e4 => 3 | .f8e5 => 4 | .f6e3 => 5 | .f6e2 => 6 | .f4 => 7
  | .i32 => 8 | .i8 => 9 | .i4 => 10 | .t2 => 11 | .s8 => 12 | .w128 => 13 | .f64 => 14 | .e16 => 15

/-- Element width in bits (R37, R83); for W128 the value array. -/
def fmtWidth : Fmt → Nat
  | .f64 => 64 | .f32 => 32 | .i32 => 32 | .bf16 => 16 | .f16 => 16 | .e16 => 16
  | .f8e4 => 8 | .f8e5 => 8 | .i8 => 8 | .s8 => 8 | .f6e3 => 6 | .f6e2 => 6 | .f4 => 4 | .i4 => 4 | .t2 => 2
  | .w128 => 128

/-- Exponent width, mantissa width and bias of a floating-point format (R37); all 0 for the others. -/
def fmtEMB : Fmt → Nat × Nat × Nat
  | .f64 => (11, 52, 1023) | .f32 => (8, 23, 127) | .bf16 => (8, 7, 127) | .f16 => (5, 10, 15)
  | .f8e4 => (4, 3, 7) | .f8e5 => (5, 2, 15) | .f6e3 => (3, 2, 3) | .f6e2 => (2, 3, 1) | .f4 => (2, 1, 1)
  | _ => (0, 0, 0)

def fmtIsFloat (f : Fmt) : Bool := (fmtEMB f).1 != 0

def fmtIsInt : Fmt → Bool
  | .i32 => true | .i8 => true | .i4 => true | _ => false

/-- Formats with an infinity (R37). -/
def fmtHasInf : Fmt → Bool
  | .f64 => true | .f32 => true | .bf16 => true | .f16 => true | .f8e5 => true | _ => false

/-- Sub-byte formats (R44). -/
def fmtSubByte (f : Fmt) : Bool := fmtWidth f < 8

/-- Formats that scales may be attached to (R43). -/
def fmtScalable : Fmt → Bool
  | .f8e4 => true | .f8e5 => true | .f6e3 => true | .f6e2 => true | .f4 => true | .i8 => true | .i4 => true
  | .t2 => true | _ => false

/-- Output formats of dot products (R43). -/
def fmtIsOutput : Fmt → Bool
  | .w128 => true | .f32 => true | .bf16 => true | .f16 => true | .f8e4 => true | .f8e5 => true | .f6e3 => true
  | .f6e2 => true | .f4 => true | .i32 => true | .i8 => true | .i4 => true | _ => false

/-- Scales on an output need a format of 8 bits or fewer (R43, R97). -/
def fmtOutScalable (f : Fmt) : Bool := fmtIsOutput f && decide (fmtWidth f ≤ 8)

/-- The scale block size of a code: 0 for no scales (R46). -/
def sblkSize : Nat → Nat
  | 1 => 16 | 2 => 32 | 3 => 64 | _ => 0

/-- The exact number m × 2^k. -/
def exPow (m k : Int) : Ex := if k < 0 then ⟨m, 2 ^ k.natAbs⟩ else ⟨m * (2 ^ k.natAbs : Nat), 1⟩

def exZero : Ex := ⟨0, 1⟩
def exAdd (x y : Ex) : Ex := if x.d = y.d then ⟨x.n + y.n, x.d⟩ else ⟨x.n * y.d + y.n * x.d, x.d * y.d⟩
def exNeg (x : Ex) : Ex := ⟨-x.n, x.d⟩
def exMul (x y : Ex) : Ex := ⟨x.n * y.n, x.d * y.d⟩
def exLt (x y : Ex) : Bool := decide (x.n * y.d < y.n * x.d)
def exAbs (x : Ex) : Ex := ⟨x.n.natAbs, x.d⟩
/-- x ÷ y for y ≠ 0. -/
def exDiv (x y : Ex) : Ex := ⟨(if y.n < 0 then -x.n else x.n) * y.d, x.d * y.n.natAbs⟩
/-- x × 2^k. -/
def exScale (x : Ex) (k : Int) : Ex := if k < 0 then ⟨x.n, x.d * 2 ^ k.natAbs⟩ else ⟨x.n * (2 ^ k.natAbs : Nat), x.d⟩

/-- ⌊log2 |x|⌋ for x ≠ 0 (R47). -/
def exLog2 (x : Ex) : Int :=
  let a := x.n.natAbs
  let k : Int := (Nat.log2 a : Int) - (Nat.log2 x.d : Int)
  let below := if k < 0 then decide (a * 2 ^ k.natAbs < x.d) else decide (a < x.d * 2 ^ k.natAbs)
  if below then k - 1 else k

def valZero : Val := .fin exZero

/-- The value a floating-point code stands for (R37, R39). -/
def decodeFloat (f : Fmt) (c : Nat) : Val :=
  let (eb, mb, bias) := fmtEMB f
  let neg := bit c (eb + mb)
  let e := bits c mb eb
  let m := bits c 0 mb
  let top := 2 ^ eb - 1
  if f = .f8e4 ∧ e = top ∧ m = 7 then .nan
  else if fmtHasInf f ∧ e = top then (if m = 0 then .inf neg else .nan)
  else
    let mag : Ex := if e = 0 then exPow m (1 - (bias : Int) - mb) else exPow (2 ^ mb + m : Nat) ((e : Int) - bias - mb)
    .fin (if neg then exNeg mag else mag)

/-- The value of an element code; none for the reserved T2 code 0b10 (R40). S8 reads as its scale (R41); W128 and E16
are not numbers here. -/
def decodeVal (f : Fmt) (c : Nat) : Option Val :=
  if fmtIsFloat f then some (decodeFloat f c)
  else match f with
    | .i32 => some (.fin ⟨signed 32 c, 1⟩)
    | .i8 => some (.fin ⟨signed 8 c, 1⟩)
    | .i4 => some (.fin ⟨signed 4 c, 1⟩)
    | .t2 =>
      match c % 4 with
      | 0 => some valZero | 1 => some (.fin ⟨1, 1⟩) | 3 => some (.fin ⟨-1, 1⟩) | _ => none
    | .s8 => some (if c % 256 = 255 then .nan else .fin (exPow 1 ((c % 256 : Nat) - 127)))
    | _ => some valZero

/-- A block scale applied to a value: code 0xFF makes it NaN (R41). -/
def applyScale (s : Option Nat) (v : Val) : Val :=
  match s with
  | none => v
  | some c =>
    if c % 256 = 255 then .nan
    else match v with
      | .fin x => .fin (exScale x ((c % 256 : Nat) - 127))
      | v => v

def valIsNan : Val → Bool
  | .nan => true | _ => false

/-- A finite non-zero value's exponent; none for zeros, infinities and NaNs (R47). -/
def valExp : Val → Option Int
  | .fin x => if x.n = 0 then none else some (exLog2 x)
  | _ => none

/-- The larger exponent, EMPTY entries ignored (R47, R48). -/
def maxExp : Option Int → Option Int → Option Int
  | none, b => b
  | a, none => a
  | some a, some b => some (if a < b then b else a)

/-- The 16-bit entry of an exponent summary; EMPTY is 0x8000 (R48). -/
def e16Of : Option Int → BitVec 16
  | none => 0x8000
  | some e => BitVec.ofInt 16 e

def e16Exp (e : BitVec 16) : Option Int := if e = 0x8000 then none else some e.toInt

/-- The product of two operands under R53: NaN when a factor is NaN or an infinity meets zero. -/
def valMul : Val → Val → Val
  | .nan, _ => .nan
  | _, .nan => .nan
  | .inf a, .inf b => .inf (a != b)
  | .inf a, .fin y => if y.n = 0 then .nan else .inf (a != decide (y.n < 0))
  | .fin x, .inf b => if x.n = 0 then .nan else .inf (b != decide (x.n < 0))
  | .fin x, .fin y => .fin (exMul x y)

/-- The sum of two values; opposite infinities give NaN (R71, IEEE 754). -/
def valAdd : Val → Val → Val
  | .nan, _ => .nan
  | _, .nan => .nan
  | .inf a, .inf b => if a = b then .inf a else .nan
  | .inf a, .fin _ => .inf a
  | .fin _, .inf b => .inf b
  | .fin x, .fin y => .fin (exAdd x y)

def valNeg : Val → Val
  | .nan => .nan
  | .inf a => .inf (!a)
  | .fin x => .fin (exNeg x)

/-- Products per MAC cell and cycle of R42, as (numerator, denominator); none for a pair the tiles do not accept. -/
def pairRate (a b : Fmt) : Option (Nat × Nat) :=
  let small : Fmt → Bool := fun f => f = .f4 || f = .f6e2 || f = .f6e3
  let eight : Fmt → Bool := fun f => f = .f8e4 || f = .f8e5
  let tiny : Fmt → Bool := fun f => f = .i4 || f = .t2
  if small a && small b then some (2, 1)
  else if tiny a && tiny b then some (2, 1)
  else if (eight a && (eight b || small b)) || (eight b && small a) then some (1, 1)
  else if (a = .i8 && (b = .i8 || tiny b)) || (b = .i8 && tiny a) then some (1, 1)
  else if a = .f16 ∧ b = .f16 then some (1, 2)
  else if a = .bf16 ∧ b = .bf16 then some (1, 2)
  else if a = .f32 ∧ b = .f32 then some (1, 8)
  else none

/-- m of R50 for a format on the fixed grid. -/
def gridM : Fmt → Int
  | .f16 => -24 | .f8e5 => -16 | .f8e4 => -9 | .f6e3 => -4 | .f6e2 => -3 | .f4 => -1 | _ => 0

/-- The fixed anchor of an unscaled pair on the fixed grid; none for the anchored pairs (R42, R50). -/
def fixedAnchor (a b : Fmt) (scaled : Bool) : Option Int :=
  if scaled || a = .bf16 || a = .f32 then none else some (110 + gridM a + gridM b)

/-- The format's largest exponent, the fallback maximum of R50; 127 more for a scaled operand. -/
def fallbackMax (f : Fmt) (scaled : Bool) : Int :=
  (match f with
    | .f32 => 127 | .bf16 => 127 | .f8e5 => 15 | .f16 => 15 | .f8e4 => 8 | .f6e3 => 4 | .f6e2 => 2 | .f4 => 2
    | .i8 => 7 | .i4 => 3 | _ => 0) + (if scaled then 127 else 0)

/-- Whether an anchor lies in −1,020 to 1,023 (R50). -/
def anchorOk : Anchor → Bool
  | .fin a => decide (-1020 ≤ a ∧ a ≤ 1023)
  | _ => true

end Sys2Proof.Machine
end

