-- ==== Sys2Proof/Machine/Flags.lean ====
section
/-!
DEFINITION. Final rounding and output (R58 to R64), output scales (R62), stochastic rounding (R63) and the numeric flags
of R65.
-/
namespace Sys2Proof.Machine

/-- The numeric flags of R65: bit 0 NAN_IN, bit 1 NAN_GEN, bit 2 OVERFLOW, bit 3 NAN_DROPPED. -/
def flagNanIn : BitVec 4 := 1
def flagNanGen : BitVec 4 := 2
def flagOverflow : BitVec 4 := 4
def flagNanDropped : BitVec 4 := 8

/-- NAN_IN and NAN_GEN of an operation with these operands and this result (R65). -/
def nanFlags (operandNan : Bool) (result : Val) : BitVec 4 :=
  if operandNan then flagNanIn else if valIsNan result then flagNanGen else 0

/-- One round of Philox4×32 on the counter words. -/
def philoxRound (c : Nat × Nat × Nat × Nat) (k0 k1 : Nat) : Nat × Nat × Nat × Nat :=
  let (c0, c1, c2, c3) := c
  let p0 := 0xD2511F53 * c0
  let p1 := 0xCD9E8D57 * c2
  ((p1 / 2 ^ 32) ^^^ c1 ^^^ k0, p1 % 2 ^ 32, (p0 / 2 ^ 32) ^^^ c3 ^^^ k1, p0 % 2 ^ 32)

def philoxRounds : Nat → (Nat × Nat × Nat × Nat) → Nat → Nat → Nat
  | 0, c, _, _ => c.1
  | n + 1, c, k0, k1 =>
    philoxRounds n (philoxRound c k0 k1) ((k0 + 0x9E3779B9) % 2 ^ 32) ((k1 + 0xBB67AE85) % 2 ^ 32)

/-- Output word 0 of Philox4×32-10 for element index `n` (R63). -/
def philox (seed stream n : Nat) : Nat :=
  philoxRounds 10 (bits n 0 32, bits n 32 32, bits stream 0 32, bits stream 32 32) (bits seed 0 32) (bits seed 32 32)

/-- How a command rounds: mode of R58, and the seed and stream number of R63. -/
structure Rnd where
  mode : Nat := 0
  seed : Nat := 0
  stream : Nat := 0
  deriving DecidableEq, Repr

/-- The magnitude num / den rounded to an integer in the mode, for element index `n` (R58, R59, R63). -/
def roundMag (rd : Rnd) (n : Nat) (neg : Bool) (num den : Nat) : Nat :=
  let q := num / den
  let r := num % den
  match rd.mode with
  | 0 => if 2 * r > den ∨ (2 * r = den ∧ q % 2 = 1) then q + 1 else q
  | 1 => q
  | 2 => if neg ∧ r ≠ 0 then q + 1 else q
  | 3 => if ¬neg ∧ r ≠ 0 then q + 1 else q
  | _ => if r ≠ 0 ∧ r * 2 ^ 32 / den + philox rd.seed rd.stream n ≥ 2 ^ 32 then q + 1 else q

/-- The code of the largest finite magnitude of a floating-point format (R37). -/
def maxFinite : Fmt → Nat
  | .f8e4 => 0x7E | .f6e3 => 0x1F | .f6e2 => 0x1F | .f4 => 0x7
  | f => let (eb, mb, _) := fmtEMB f; (2 ^ eb - 1) * 2 ^ mb - 1

/-- The code of the canonical NaN (R38); 0 for formats without NaN. -/
def nanCode : Fmt → Nat
  | .f64 => 0x7FF8000000000000 | .f32 => 0x7FC00000 | .bf16 => 0x7FC0 | .f16 => 0x7E00 | .f8e5 => 0x7E
  | .f8e4 => 0x7F | .s8 => 0xFF | _ => 0

/-- The code of +infinity of a format that has one (R37). -/
def infCode (f : Fmt) : Nat := maxFinite f + 1

/-- The sign bit of a floating-point format. -/
def signBit (f : Fmt) (neg : Bool) : Nat := if neg then 2 ^ (fmtWidth f - 1) else 0

/-- Overflow results of R60: the magnitude's code. -/
def overflowCode (f : Fmt) (mode : Nat) (neg : Bool) : Nat :=
  if ¬fmtHasInf f then maxFinite f
  else match mode with
    | 1 => maxFinite f
    | 2 => if neg then infCode f else maxFinite f
    | 3 => if neg then maxFinite f else infCode f
    | _ => infCode f

/-- A negative zero among exact values, as a function of R71 may give it: nearer to zero than any value a command forms, so every mode
writes it as −0 (R59). -/
def exNegZero : Ex := exPow (-1) (-2 ^ 17)

/-- A finite value rounded once to a floating-point format (R59, R60): code and flags. -/
def encodeFin (f : Fmt) (rd : Rnd) (n : Nat) (x : Ex) : Nat × BitVec 4 :=
  if x.n = 0 then (0, 0)
  else if x = exNegZero then (signBit f true, 0)
  else
    let (_, mb, bias) := fmtEMB f
    let neg := decide (x.n < 0)
    let emin : Int := 1 - bias
    let e0 := exLog2 x
    let e := if e0 < emin then emin else e0
    let s := exScale (exAbs x) ((mb : Int) - e)
    let q := roundMag rd n neg s.n.natAbs s.d
    let code := (e - emin).toNat * 2 ^ mb + q
    if code > maxFinite f then (signBit f neg + overflowCode f rd.mode neg, flagOverflow) else (signBit f neg + code, 0)

/-- The range of an integer or T2 output (R61). -/
def intRange : Fmt → Int × Int
  | .i32 => (-2 ^ 31, 2 ^ 31 - 1) | .i8 => (-128, 127) | .i4 => (-8, 7) | _ => (-1, 1)

/-- A value rounded once to a format in a mode (R59 to R61, R64), for element index `n`: code and flags. -/
def encodeVal (f : Fmt) (rd : Rnd) (n : Nat) (v : Val) : Nat × BitVec 4 :=
  if fmtIsFloat f then
    match v with
    | .nan => if f = .f6e3 ∨ f = .f6e2 ∨ f = .f4 then (0, flagNanDropped) else (nanCode f, 0)
    | .inf neg => if fmtHasInf f then (signBit f neg + infCode f, 0) else (signBit f neg + maxFinite f, flagOverflow)
    | .fin x => encodeFin f rd n x
  else
    let (lo, hi) := intRange f
    let w := fmtWidth f
    match v with
    | .nan => (0, flagNanDropped)
    | .inf neg => (unsigned w (if neg then lo else hi), flagOverflow)
    | .fin x =>
      let neg := decide (x.n < 0)
      let q : Int := roundMag rd n neg x.n.natAbs x.d
      let y := if neg then -q else q
      if y < lo then (unsigned w lo, flagOverflow)
      else if y > hi then (unsigned w hi, flagOverflow)
      else (unsigned w y, 0)

/-- q of R62. -/
def scaleQ : Fmt → Int
  | .f8e4 => 8 | .f8e5 => 15 | .f6e3 => 4 | .f6e2 => 2 | .f4 => 2 | .i8 => 6 | .i4 => 2 | _ => 0

/-- The largest exponent among values (R47). -/
def maxExpOf (vs : List Val) : Option Int := vs.foldl (fun m v => maxExp m (valExp v)) none

/-- The scale code of an output block (R62). -/
def scaleCode (f : Fmt) (vs : List Val) : Nat :=
  match maxExpOf vs with
  | none => 0
  | some e =>
    let c := e - scaleQ f + 127
    if c < 0 then 0 else if c > 254 then 254 else c.toNat

/-- The elements of a block of a scaled output under scale code `c` (R62): their codes and the flags; element i has index `n i`. -/
def encodeScaled (f : Fmt) (rd : Rnd) (n : Nat → Nat) (c : Nat) (vs : List Val) : List Nat × BitVec 4 :=
  let enc := fun (i : Nat) (v : Val) =>
    encodeVal f rd (n i) (match v with | .fin x => .fin (exScale x (127 - (c : Int))) | v => v)
  let rec go : Nat → List Val → List Nat × BitVec 4
    | _, [] => ([], 0)
    | i, v :: vs => let (k, g) := enc i v; let (ks, gs) := go (i + 1) vs; (k :: ks, g ||| gs)
  go 0 vs

/-- A block of a scaled output (R62): the scale's code, the elements' codes and the flags. -/
def encodeBlock (f : Fmt) (rd : Rnd) (n : Nat → Nat) (vs : List Val) : Nat × List Nat × BitVec 4 :=
  let c := scaleCode f vs
  (c, encodeScaled f rd n c vs)

/-- Rounding to nearest even with no stochastic index. -/
def rne : Rnd := {}

/-- F32 codes: what one stands for, and the one of a value, to nearest even. -/
def f32Val (c : Nat) : Val := decodeFloat .f32 c
def f32Code (v : Val) : Nat := (encodeVal .f32 rne 0 v).1

/-- A value rounded to F32, to nearest even, as a value again. -/
def toF32 (v : Val) : Val := decodeFloat .f32 (encodeVal .f32 rne 0 v).1

end Sys2Proof.Machine
end

