-- ==== Sys2Proof/Machine/Approx.lean ====
section
/-!
DEFINITION. The functions of R71 whose accuracy alone is stated: their exact values to some 800 bits, and the result that one
fixed algorithm gives within the stated number of ulps of them. Which of the results within the bound it gives is the
implementation's (log 4).
-/
namespace Sys2Proof.Machine

/-! ### Fixed-point series: an integer z stands for z ÷ 2^800 -/

def fxBits : Nat := 800
def fxOne : Int := (2 ^ fxBits : Nat)
def fxMul (a b : Int) : Int := a * b / fxOne
def fxDiv (a b : Int) : Int := a * fxOne / b

/-- An exact number in fixed point. -/
def fxOf (x : Ex) : Int := x.n * fxOne / (x.d : Int)

/-- A fixed-point number times 2^k as an exact number. -/
def fxEx (z k : Int) : Ex := exPow z (k - fxBits)

/-- Integer square root by bisection on bits, `i` bits left. -/
def isqrtBits : Nat → Nat → Nat → Nat
  | 0, _, r => r
  | i + 1, n, r => let t := r + 2 ^ i; isqrtBits i n (if t * t ≤ n then t else r)

/-- √z of a fixed-point number. -/
def fxSqrt (z : Int) : Int :=
  let m := z.toNat * 2 ^ fxBits
  (isqrtBits (Nat.log2 m / 2 + 1) m 0 : Nat)

/-- Σ t × z^j ÷ (n + 1)(n + 2)…(n + j): the exponential series from term `n`. -/
def fxExpFrom (z : Int) : Nat → Nat → Int → Int
  | 0, _, _ => 0
  | k + 1, n, t => t + fxExpFrom z k (n + 1) (fxMul t z / ((n + 1 : Nat) : Int))

/-- e^z for |z| at most 1. -/
def fxExp (z : Int) : Int := fxExpFrom z 220 0 fxOne

/-- Σ t × w^j ÷ (2n + 1 + 2j): the series of the inverse tangents. -/
def fxAtanFrom (w : Int) : Nat → Nat → Int → Int
  | 0, _, _ => 0
  | k + 1, n, t => t / ((2 * n + 1 : Nat) : Int) + fxAtanFrom w k (n + 1) (fxMul t w)

/-- artanh t for |t| at most 1/3, and arctan t. -/
def fxAtanh (t : Int) : Int := fxAtanFrom (fxMul t t) 270 0 t
def fxAtan (t : Int) : Int := fxAtanFrom (-(fxMul t t)) 270 0 t

def fxLn2 : Int := 2 * fxAtanh (fxOne / 3)
def fxPi : Int := 16 * fxAtan (fxOne / 5) - 4 * fxAtan (fxOne / 239)

/-- Σ t × (−w)^j ÷ (n + j)! × n! ÷ (2n + 1 + 2j): the series of erf. -/
def fxErfFrom (w : Int) : Nat → Nat → Int → Int
  | 0, _, _ => 0
  | k + 1, n, t => t / ((2 * n + 1 : Nat) : Int) + fxErfFrom w k (n + 1) (-(fxMul t w) / ((n + 1 : Nat) : Int))

/-- Σ t × (−w)^j ÷ (n + 1)(n + 2)…(n + 2j): the series of sine (n = 1) and cosine (n = 0). -/
def fxTrigFrom (w : Int) : Nat → Nat → Int → Int
  | 0, _, _ => 0
  | k + 1, n, t => t + fxTrigFrom w k (n + 2) (-(fxMul t w) / (((n + 1) * (n + 2) : Nat) : Int))

/-! ### Exact values -/

/-- 2^x and e^x; far outside every format's range a power of two stands for the value. -/
def exactExp2 (x : Ex) : Ex :=
  let k := x.n / (x.d : Int)
  if 1100 ≤ k then exPow 1 1100
  else if k < -1300 then exPow 1 (-1300)
  else fxEx (fxExp (fxMul (fxOf (exAdd x ⟨-k, 1⟩)) fxLn2)) k

def exactExp (x : Ex) : Ex :=
  if exLt ⟨1200, 1⟩ x then exPow 1 1100
  else if exLt x ⟨-1200, 1⟩ then exPow 1 (-1300)
  else
    let z := fxOf x
    let k := z / fxLn2
    fxEx (fxExp (z - k * fxLn2)) k

/-- ln x for x above 0. -/
def exactLog (x : Ex) : Ex :=
  let k := exLog2 x
  let m := fxOf (exScale x (-k))
  fxEx (k * fxLn2 + 2 * fxAtanh (fxDiv (m - fxOne) (m + fxOne))) 0

def exactLog2 (x : Ex) : Ex :=
  let k := exLog2 x
  let m := fxOf (exScale x (-k))
  fxEx (k * fxOne + fxDiv (2 * fxAtanh (fxDiv (m - fxOne) (m + fxOne))) fxLn2) 0

def exOne : Ex := ⟨1, 1⟩

/-- A number a very little nearer to zero. -/
def exBelow (x : Ex) : Ex := exMul x (exAdd exOne (exPow (-1) (-250)))

def exactTanh (x : Ex) : Ex :=
  if exLt ⟨200, 1⟩ (exAbs x) then exBelow ⟨if x.n < 0 then -1 else 1, 1⟩
  else
    let e := exactExp (exScale x 1)
    exDiv (exAdd e (exNeg exOne)) (exAdd e exOne)

def exactSigmoid (x : Ex) : Ex := exDiv exOne (exAdd exOne (exactExp (exNeg x)))

/-- erf x. -/
def exactErf (x : Ex) : Ex :=
  if exLt ⟨8, 1⟩ (exAbs x) then exBelow ⟨if x.n < 0 then -1 else 1, 1⟩
  else
    let z := fxOf x
    fxEx (fxErfFrom (fxMul z z) 900 0 (fxDiv (2 * z) (fxSqrt fxPi))) 0

/-- x ÷ 2 × (1 + erf(x ÷ √2)). -/
def exactGelu (x : Ex) : Ex :=
  if exLt ⟨15, 1⟩ x then exBelow x
  else if exLt x ⟨-15, 1⟩ then exPow (-1) (-300)
  else
    let z := fxOf x
    let e := fxErfFrom (fxMul z z / 2) 900 0 (fxMul z (fxSqrt (fxDiv (2 * fxOne) fxPi)))
    exMul (exScale x (-1)) (fxEx (fxOne + e) 0)

/-- The argument reduced exactly to within π of zero (R71). -/
def fxReduce (x : Ex) : Int :=
  let z := fxOf x
  let r := z % (2 * fxPi)
  if fxPi < r then r - 2 * fxPi else r

def exactSin (x : Ex) : Ex := let r := fxReduce x; fxEx (fxTrigFrom (fxMul r r) 120 1 r) 0
def exactCos (x : Ex) : Ex := let r := fxReduce x; fxEx (fxTrigFrom (fxMul r r) 120 0 fxOne) 0

/-- The exact value of a function of R101 with stated accuracy. -/
def exactFn (func : Nat) (x : Ex) : Ex :=
  match func with
  | 0x0C => exactExp2 x
  | 0x0D => exactExp x
  | 0x0E => exactLog x
  | 0x0F => exactLog2 x
  | 0x10 => exactTanh x
  | 0x11 => exactSigmoid x
  | 0x12 => exactErf x
  | 0x13 => exactGelu x
  | 0x14 => exactSin x
  | _ => exactCos x

/-- The bound of R71 in ulps. -/
def ulpBound (func : Nat) : Nat :=
  if func ≤ 0x0F then 1 else if func = 0x13 then 3 else 2

/-! ### A result within the bound -/

/-- The magnitude that a code of a format's exponent and mantissa fields stands for, one past the largest finite included. -/
def codeMag (f : Fmt) (c : Nat) : Ex :=
  let (_, mb, bias) := fmtEMB f
  let e := c / 2 ^ mb
  if e = 0 then exPow (c : Nat) (1 - (bias : Int) - mb) else exPow (2 ^ mb + c % 2 ^ mb : Nat) ((e : Int) - bias - mb)

/-- One ulp: the spacing of the format at an exact value (R71). -/
def ulpAt (f : Fmt) (x : Ex) : Ex :=
  let (_, mb, bias) := fmtEMB f
  let e := exLog2 x
  exPow 1 ((if e < 1 - (bias : Int) then 1 - (bias : Int) else e) - mb)

/-- The result for the exact value `x` in format `f`: a code within `bound` ulps of it, the one that `free` picks; a magnitude
beyond the format stays what it is and overflows where it is written (R60); a negative one that the code takes to zero keeps its
sign (R59). -/
def withinUlps (f : Fmt) (bound free : Nat) (x : Ex) : Val :=
  if x.n = 0 then valZero
  else
    let a := exAbs x
    if !exLt a (codeMag f (maxFinite f + 1)) then .fin x
    else
      let c := (encodeFin f { mode := 1 } 0 a).1
      let v := codeMag f (c + free % (2 * bound) - (bound - 1))
      let gap := exAbs (exAdd v (exNeg a))
      let v := if exLt (exMul ⟨bound, 1⟩ (ulpAt f x)) gap then codeMag f c else v
      .fin (if 0 ≤ x.n then v else if v.n = 0 then exNegZero else exNeg v)

/-- The value of a function with stated accuracy in format `f`, a function of the operand (R71, log 4). -/
def approxFin (func : Nat) (f : Fmt) (x : Ex) : Val :=
  withinUlps f (ulpBound func) (Config.approx func (fmtCode f) (encodeVal f rne 0 (.fin x)).1) (exactFn func x)

end Sys2Proof.Machine
end

