-- ==== Sys2Proof/Machine/Accum.lean ====
section
/-!
DEFINITION. Exact accumulation (R50 to R57, R533), W128 entries (R56), the vector functions (R71, R72) and the softmax
merge (R66 to R69): the one arithmetic that tiles, Cloves, vector units, movers and collectives share (R21).
-/
namespace Sys2Proof.Machine

/-- A value in units of the grid 2^(a − 110), rounded to nearest even (R52). -/
def gridUnits (a : Int) (x : Ex) : Int :=
  let s := exScale (exAbs x) (110 - a)
  let q : Int := roundMag rne 0 false s.n.natAbs s.d
  if x.n < 0 then -q else q

/-- The accumulator with `k` units more, wrapping at 133 bits (R54, R56). -/
def accAddUnits (c : Acc) (k : Int) : Acc := { c with acc := c.acc + BitVec.ofInt 133 k }

/-- The anchor of an element after a contribution with anchor `b` (R94, R533); none when finite anchors differ. -/
def anchorMeet : Anchor → Anchor → Option Anchor
  | .none, b => some b
  | a, .none => some a
  | .empty, b => some b
  | a, .empty => some a
  | .fin a, .fin b => if a = b then some (.fin a) else none

/-- A product or term added under the anchor (R52, R53, R55); none when a finite non-zero value meets no grid. -/
def accTerm (anc : Anchor) (c : Acc) : Val → Option Acc
  | .nan => some { c with nan := true }
  | .inf false => some { c with pinf := true }
  | .inf true => some { c with ninf := true }
  | .fin x =>
    if x.n = 0 then some c
    else match anc with
      | .fin a => some (accAddUnits c (gridUnits a x))
      | _ => none

/-- The products of two rows added in turn (R52). -/
def accDot (anc : Anchor) : Acc → List Val → List Val → Option Acc
  | c, x :: xs, y :: ys => match accTerm anc c (valMul x y) with | some c => accDot anc c xs ys | none => none
  | c, _, _ => some c

/-- An accumulator as an exact value under its flags (R53). -/
def accVal (c : Acc) : Val :=
  if c.nan || (c.pinf && c.ninf) then .nan
  else if c.pinf then .inf false
  else if c.ninf then .inf true
  else match c.anc with
    | .fin a => .fin (exPow c.acc.toInt (a - 110))
    | _ => valZero

/-- The W128 entry of an accumulator (R56, R97): its value is the low 128 bits as a two's-complement number, WRAP what is missing. -/
def accEntry (c : Acc) : BitVec 128 × BitVec 16 :=
  match accVal c with
  | .nan => (0, 0x401)
  | .inf false => (0, 0x402)
  | .inf true => (0, 0x403)
  | .fin _ =>
    match c.anc with
    | .fin a =>
      let v := c.acc.setWidth 128
      (v, BitVec.ofNat 16 ((c.acc - v.signExtend 133).toNat / 2 ^ 128 * 2 ^ 11 + unsigned 11 a))
    | _ => (0, 0x400)

/-- A W128 entry read as an accumulator (R56); none for an EMPTY entry whose V is not 0 (R57; its WRAP is not
looked at, log 140) or an anchor out of range. -/
def entryAcc (v : BitVec 128) (e : BitVec 16) : Option Acc :=
  let low := e.toNat % 2 ^ 11
  if low = 0x401 then some { nan := true }
  else if low = 0x402 then some { pinf := true }
  else if low = 0x403 then some { ninf := true }
  else if low = 0x400 then (if v = 0 then some { anc := .empty } else none)
  else
    let a := signed 11 low
    if -1020 ≤ a ∧ a ≤ 1023 then
      some { acc := BitVec.ofNat 133 (e.toNat / 2 ^ 11 * 2 ^ 128) + v.signExtend 133, anc := .fin a }
    else none

/-- The sum of two W128 entries or accumulators (R57, R533); none when finite anchors differ. -/
def accMerge (x y : Acc) : Option Acc :=
  match anchorMeet x.anc y.anc with
  | none => none
  | some a => some { acc := x.acc + y.acc, nan := x.nan || y.nan, pinf := x.pinf || y.pinf, ninf := x.ninf || y.ninf,
                     anc := a, poison := x.poison || y.poison }

/-- An accumulator that holds NaN or an infinity. -/
def accSpecial (c : Acc) : Bool := c.nan || c.pinf || c.ninf

/-- The sum of two W128 entries (R57): NaN and infinities win over any finite entry, whatever its anchor. -/
def entryAdd (x y : Acc) : Option Acc :=
  if accSpecial x || accSpecial y then
    some { nan := x.nan || y.nan || ((x.pinf || y.pinf) && (x.ninf || y.ninf)), pinf := x.pinf || y.pinf
           ninf := x.ninf || y.ninf, poison := x.poison || y.poison }
  else accMerge x y

/-- A floating-point or integer term added to a W128 entry (R55, R138, R533): to NaN or an infinity a finite term adds
nothing; none when a finite non-zero term meets no grid. -/
def entryTerm (c : Acc) (v : Val) : Option Acc :=
  match v with
  | .fin _ => if accSpecial c then some c else accTerm c.anc c v
  | .nan => some { c with nan := true }
  | .inf false => some { c with pinf := true }
  | .inf true => some { c with ninf := true }

/-- The exact sum of values under R72: anchor the maximum exponent. -/
def accSum (vs : List Val) : Acc :=
  let anc := match maxExpOf vs with | none => Anchor.empty | some e => .fin e
  vs.foldl (fun c v => (accTerm anc c v).getD c) { anc := anc }

/-- The tight anchor of two rows from their own data (R50). -/
def tightAnchor (xs ys : List Val) : Anchor :=
  match maxExpOf xs, maxExpOf ys with | some a, some b => .fin (a + b) | _, _ => .empty

/-- The exact dot product of two rows with tight anchors from their own data (R50, R52). -/
def accDotTight (xs ys : List Val) : Acc :=
  let anc := tightAnchor xs ys
  (accDot anc { anc := anc } xs ys).getD { anc := anc }

/-! ### Vector functions (R71) -/

/-- A quotient or root with enough bits below the last place that one rounding of it is the rounding of the exact value:
the last bit collects the rest. -/
def stickyQuot (n d : Nat) (k : Nat) : Ex :=
  let q := n * 2 ^ k / d
  ⟨(2 * q + (if n * 2 ^ k % d = 0 then 0 else 1) : Nat), 2 ^ (k + 1)⟩

/-- √x for x above 0, with a sticky last bit. -/
def exSqrt (x : Ex) : Ex :=
  let k := 2 * (Nat.log2 x.d + 1200)
  let m := x.n.natAbs * 2 ^ k / x.d
  let r := isqrtBits (Nat.log2 m / 2 + 1) m 0
  ⟨(2 * r + (if r * r * x.d = x.n.natAbs * 2 ^ k then 0 else 1) : Nat), 2 ^ (k / 2 + 1)⟩

def valDiv : Val → Val → Val
  | .nan, _ => .nan
  | _, .nan => .nan
  | .inf _, .inf _ => .nan
  | .inf a, .fin y => .inf (a != decide (y.n < 0))
  | .fin _, .inf _ => valZero
  | .fin x, .fin y =>
    if y.n = 0 then (if x.n = 0 then .nan else .inf (decide (x.n < 0))) else .fin (exDiv x y)

def valSqrt : Val → Val
  | .fin x => if x.n = 0 then valZero else if x.n < 0 then .nan else .fin (exSqrt x)
  | .inf false => .inf false
  | _ => .nan

/-- 1 ÷ √x, with a sticky last bit. -/
def valRsqrt : Val → Val
  | .fin x => if x.n = 0 then .inf false else if x.n < 0 then .nan else .fin (exSqrt (exDiv ⟨1, 1⟩ x))
  | .inf false => valZero
  | _ => .nan

/-- x < y; NaN compares unordered (R71). -/
def valLt : Val → Val → Bool
  | .nan, _ => false
  | _, .nan => false
  | .inf a, .inf b => a && !b
  | .inf a, .fin _ => a
  | .fin _, .inf b => !b
  | .fin x, .fin y => exLt x y

/-- The larger and the smaller of two values; a NaN operand gives NaN (log 16). -/
def valMax (x y : Val) : Val := if valIsNan x || valIsNan y then .nan else if valLt x y then y else x
def valMin (x y : Val) : Val := if valIsNan x || valIsNan y then .nan else if valLt y x then y else x

/-- The integer a value equals, if any. -/
def valInt? : Val → Option Int
  | .fin x => if x.n % x.d = 0 then some (x.n / x.d) else none
  | _ => none

/-- EXP2 (R71): exact on representable powers; special arguments as IEEE 754; beyond the format it overflows (R60). -/
def valExp2 (v : Val) : Val :=
  match v with
  | .nan => .nan
  | .inf false => .inf false
  | .inf true => valZero
  | .fin x =>
    match valInt? v with
    | some k => if -149 ≤ k ∧ k ≤ 127 then .fin (exPow 1 k) else approxFin 0x0C .f32 x
    | none => approxFin 0x0C .f32 x

/-- LOG and LOG2 in a format (R71): special arguments as IEEE 754. -/
def valLog (func : Nat) (f : Fmt) (v : Val) : Val :=
  match v with
  | .nan => .nan
  | .inf false => .inf false
  | .inf true => .nan
  | .fin x => if x.n = 0 then .inf true else if x.n < 0 then .nan else approxFin func f x

/-- The other functions of one operand with stated accuracy (R71, R101): at an infinity what IEEE 754 gives or the function's
limit (log 4), otherwise a result within the bound. -/
def valApprox (func : Nat) (f : Fmt) (v : Val) : Val :=
  match v with
  | .nan => .nan
  | .inf neg =>
    match func with
    | 0x0D => if neg then valZero else .inf false
    | 0x10 => .fin ⟨if neg then -1 else 1, 1⟩
    | 0x11 => if neg then valZero else .fin ⟨1, 1⟩
    | 0x12 => .fin ⟨if neg then -1 else 1, 1⟩
    | 0x13 => if neg then valZero else .inf false
    | _ => .nan
  | .fin x =>
    if x.n = 0 ∧ (func = 0x0D ∨ func = 0x15) then .fin ⟨1, 1⟩
    else if x.n = 0 ∧ func ≠ 0x11 then valZero
    else approxFin func f x

/-- c0 × x + c1 × y formed exactly (R68, BV.MIX2). -/
def valMix (c0 x c1 y : Val) : Val := valAdd (valMul c0 x) (valMul c1 y)

/-! ### Softmax merge (R66 to R69) -/

/-- A node of the merge tree: EMPTY, or its vector, maximum and sum, each an F32 code. -/
inductive Node where
  | empty
  | node (o : List Nat) (m s : Nat)
  deriving DecidableEq, Repr

/-- The larger of two F32 codes by value; NaN where one is (log 16). -/
def f32Max (a b : Nat) : Nat :=
  if valIsNan (f32Val a) || valIsNan (f32Val b) then nanCode .f32 else if valLt (f32Val a) (f32Val b) then b else a

/-- OVERFLOW of a rounding to F32, to nearest even, on the way to a result (R60, R65). -/
def f32Over (v : Val) : BitVec 4 := (encodeVal .f32 rne 0 v).2

/-- 1 ÷ x in F32, to nearest even (R71). -/
def valRcp (v : Val) : Val := valDiv (.fin ⟨1, 1⟩) v

/-- x − y rounded to F32. -/
def f32Diff (x y : Val) : Val := toF32 (valAdd x (valNeg y))

/-- Two nodes merged, lower positions first (R66, R68): each two-term sum exact and rounded once, its sign kept (R59). -/
def nodeMerge : Node → Node → Node
  | .empty, b => b
  | a, .empty => a
  | .node oa ma sa, .node ob mb sb =>
    let m := f32Max ma mb
    let ca := valExp2 (f32Diff (f32Val ma) (f32Val m))
    let cb := valExp2 (f32Diff (f32Val mb) (f32Val m))
    .node (List.zipWith (fun x y => f32Code (valMix ca (f32Val x) cb (f32Val y))) oa ob) m
      (f32Code (valMix ca (f32Val sa) cb (f32Val sb)))

def valIsInf : Val → Bool | .inf _ => true | _ => false

/-- The flags of one rounding to F32 of `r`, made from operands `xs` (R65). -/
def f32Flags (xs : List Val) (r : Val) : BitVec 4 := f32Over r ||| nanFlags (xs.any valIsNan) r

/-- The flags of a merge, element by element (R65). -/
def nodeMergeFlags : Node → Node → BitVec 4
  | .node oa ma sa, .node ob mb sb =>
    let m := f32Val (f32Max ma mb)
    let da := valAdd (f32Val ma) (valNeg m)
    let db := valAdd (f32Val mb) (valNeg m)
    let ca := valExp2 (toF32 da)
    let cb := valExp2 (toF32 db)
    let one := fun (x y : Nat) => f32Flags [ca, f32Val x, cb, f32Val y] (valMix ca (f32Val x) cb (f32Val y))
    (List.zipWith one oa ob).foldl (· ||| ·)
      (one sa sb ||| f32Flags [f32Val ma, f32Val mb] m ||| f32Flags [f32Val ma, m] da ||| f32Flags [f32Val mb, m] db)
  | _, _ => 0

/-- The merge tree's root over leaves in order: neighbours merged level by level (R66). -/
def nodePairs : List Node → List Node
  | a :: b :: t => nodeMerge a b :: nodePairs t
  | t => t

def nodeRoot : Nat → List Node → Node
  | _, [] => .empty
  | _, [a] => a
  | 0, a :: _ => a
  | k + 1, t => nodeRoot k (nodePairs t)

/-- The flags of the merges that make a root (R65). -/
def nodePairsFlags : List Node → BitVec 4
  | a :: b :: t => nodeMergeFlags a b ||| nodePairsFlags t
  | _ => 0

def nodeRootFlags : Nat → List Node → BitVec 4
  | 0, _ => 0
  | _, [] => 0
  | _, [_] => 0
  | k + 1, t => nodePairsFlags t ||| nodeRootFlags k (nodePairs t)

/-- A leaf from its unmasked scores, F32 codes, and the value row of each (R67 steps 2 to 5); `dim` elements to a row. -/
def leafOf (dim : Nat) (ys : List Nat) (vs : List (List Val)) : Node :=
  match ys with
  | [] => .empty
  | y :: rest =>
    let m := rest.foldl f32Max y
    let ps := ys.map fun t => valExp2 (f32Diff (f32Val t) (f32Val m))
    .node ((rangeFrom 0 dim).map fun d => f32Code (accVal (accDotTight ps (vs.map fun v => v.getD d valZero)))) m
      (f32Code (accVal (accSum ps)))

/-- The flags of a leaf's differences and sums (R65). -/
def leafFlags (dim : Nat) (ys : List Nat) (vs : List (List Val)) : BitVec 4 :=
  match ys with
  | [] => 0
  | y :: rest =>
    let m := f32Val (rest.foldl f32Max y)
    let ds := ys.map fun t => valAdd (f32Val t) (valNeg m)
    let ps := ds.map fun d => valExp2 (toF32 d)
    let sums := (rangeFrom 0 dim).map fun d =>
      let col := vs.map fun v => v.getD d valZero
      f32Flags (ps ++ col) (accVal (accDotTight ps col))
    (List.zipWith (fun t d => f32Flags [f32Val t, m] d) ys ds ++ sums).foldl (· ||| ·) (f32Flags ps (accVal (accSum ps)))

/-- A plain softmax leaf over up to 32 scores, with no vector (R67). -/
def softLeaf (ys : List Nat) : Node := leafOf 0 ys []

/-- A score: σ × (q · k), exact and rounded once to F32 (R67 step 1). -/
def scoreOf (sigma : Val) (q k : List Val) : Nat := f32Code (valMul sigma (accVal (accDotTight q k)))

/-- An attention leaf over the unmasked positions' key and value rows (R67). -/
def attnLeaf (sigma : Val) (q : List Val) (kv : List (List Val × List Val)) : Node :=
  leafOf q.length (kv.map fun r => scoreOf sigma q r.1) (kv.map (·.2))

/-- The flags of an attention leaf, its scores' roundings among them (R65). -/
def attnLeafFlags (sigma : Val) (q : List Val) (kv : List (List Val × List Val)) : BitVec 4 :=
  (kv.map fun r => f32Flags (sigma :: q ++ r.1) (valMul sigma (accVal (accDotTight q r.1)))).foldl (· ||| ·)
    (leafFlags q.length (kv.map fun r => scoreOf sigma q r.1) (kv.map (·.2)))

/-- Lists of at most 32, `fuel` of them. -/
def leaves32 {α : Type} : Nat → List α → List (List α)
  | 0, _ => []
  | _, [] => []
  | k + 1, t => t.take 32 :: leaves32 k (t.drop 32)

/-- The root over leaves: the node of the smallest level that covers them all (R66). -/
def rootOf (l : List Node) : Node := nodeRoot (l.length + 1) l

/-- L = m + LOG2(s), LOG2(s) rounded to F32 first (R69). -/
def nodeLog (m s : Nat) : Val := toF32 (valAdd (f32Val m) (toF32 (valLog 0x0F .f32 (f32Val s))))

/-- The row log-normaliser of scores, F32 codes (R69, R316). -/
def logNormaliser (ys : List Nat) : Val :=
  match rootOf ((leaves32 (ys.length + 1) ys).map softLeaf) with
  | .empty => .inf true
  | .node _ m s => nodeLog m s

/-- The attention output of a root: o[d] ÷ s rounded once (R69); an EMPTY root gives zeros. -/
def nodeOut (f : Fmt) (rd : Rnd) (dim : Nat) : Node → List Nat
  | .empty => (rangeFrom 0 dim).map fun _ => 0
  | .node o _ s => List.zipWith (fun (d : Nat) x => (encodeVal f rd d (valDiv (f32Val x) (f32Val s))).1) (rangeFrom 0 o.length) o

end Sys2Proof.Machine
end

