-- ==== Sys2Proof/Machine/SafOps.lean ====
section
/-!
DEFINITION. The datapath of a Saffron core (R76 to R105): packed elements, address generators, operand blocks, anchor
registers, tiles and vector steps, over a core and its scratchpad.
-/
namespace Sys2Proof.Machine

/-- A fault: the status and the cause of R121. -/
abbrev Flt := Status × Nat

/-- The fault reported of several conditions (R10): the highest-ranked status, the first listed of equals. -/
def firstFault (l : List (Bool × Status × Nat)) : Option Flt :=
  (l.filter (·.1)).foldl (fun b e =>
    match b with
    | none => some e.2
    | some x => if statusRank e.2.1 < statusRank x.1 then some e.2 else b) none

/-- A core and its scratchpad, and what the steps of a reduction's present group have read. -/
structure Saf where
  core : Core
  spad : Space
  red : List (List Val × List Val) := []
  redPoison : Bool := false
  deriving DecidableEq, Repr

/-! ### Packed elements (R44) -/

/-- `k` codes of `w` bits, least significant first. -/
def unpackCodes (w : Nat) : Nat → Nat → List Nat
  | 0, _ => []
  | k + 1, x => x % 2 ^ w :: unpackCodes w k (x / 2 ^ w)

/-- Codes of `w` bits packed into a number, the first in its low bits. -/
def packCodes (w : Nat) : List Nat → Nat
  | [] => 0
  | c :: t => c % 2 ^ w + 2 ^ w * packCodes w t

/-- Bytes of `k` elements of `w` bits. -/
def packedLen (w k : Nat) : Nat := ceilDiv (w * k) 8

/-- Values of codes; none when one is the reserved T2 code (R40). -/
def codeVals (f : Fmt) : List Nat → Option (List Val)
  | [] => some []
  | c :: t =>
    match decodeVal f c, codeVals f t with
    | some v, some vs => some (v :: vs)
    | _, _ => none

/-- Every element of a list of at most `n` long groups, `fuel` groups. -/
def groupsOf {α : Type} (n : Nat) : Nat → List α → List (List α)
  | 0, _ => []
  | _, [] => []
  | k + 1, t => t.take n :: groupsOf n k (t.drop n)

/-- Lines of `len` elements from packed bytes. -/
def packedLines (w len k : Nat) (bs : List Byte) : List (List Nat) :=
  (groupsOf (packedLen w len) k bs).map fun l => unpackCodes w len (leNat l)

/-- A line's values with its scales, block size `n` (0: none). -/
def scaleLine (n : Nat) (scales : List Nat) (vs : List Val) : List Val :=
  if n = 0 then vs
  else (List.zipWith (fun (k : Nat) v => applyScale (scales[k / n]?) v) (rangeFrom 0 vs.length) vs)

/-! ### Address generators (R84 to R87) -/

def agOf (x : Core) (i : Nat) : Ag := tabGet {} x.ags i

/-- The yielded address in bits. -/
def agBits (a : Ag) : Int :=
  (a.base * 8 : Nat) + (List.zipWith (fun (i : Nat) (st : Int) => (i : Int) * st * (fmtWidth a.fmt : Nat)) a.idx a.strides).foldl (· + ·) 0

/-- The address, when it is a whole byte. -/
def agAddr (a : Ag) : Option Int := if agBits a % 8 = 0 then some (agBits a / 8) else none

/-- Indices advanced by one step, the innermost first. -/
def agNext : List Nat → List Nat → List Nat
  | i :: is, c :: cs => if i + 1 < c then (i + 1) :: is else 0 :: agNext is cs
  | is, _ => is

def agStep (i : Nat) (x : Core) : Core :=
  if i < 16 then { x with ags := tabMod {} x.ags i fun a => { a with idx := agNext a.idx a.counts } } else x

/-- One step of each generator named (R84). -/
def agSteps (l : List Nat) (x : Core) : Core := l.eraseDups.foldl (fun x i => agStep i x) x

def scratchEnd : Int := 0x300000

/-- A port's use of a generator in one step: its address, the alignment it needs, and the byte ranges it touches from that
address (R86). -/
structure Port1 where
  ag : Nat
  align : Nat
  ranges : List (Nat × Nat)
  deriving DecidableEq, Repr

/-- The faults of R86 for one port. -/
def portFaults (x : Core) (p : Port1) : List (Bool × Status × Nat) :=
  match agAddr (agOf x p.ag) with
  | none => [(true, .alignFault, 0x020)]
  | some a =>
    [(a % (p.align : Nat) != 0, .alignFault, 0x020),
     (decide (a < 0) || p.ranges.any (fun r => decide (scratchEnd < a + (r.1 : Nat) + (r.2 : Nat))), .boundsFault, 0x030)]

/-- The address of a checked port. -/
def portAddr (x : Core) (i : Nat) : Nat := ((agAddr (agOf x i)).getD 0).toNat

/-- The faults of a selector (R87): reserved, missing where required, or naming an unloaded generator. -/
def selFaults (x : Core) (sel : Nat) (required : Bool) : List (Bool × Status × Nat) :=
  [(decide (16 ≤ sel ∧ sel < 31), .descFault, 0x004), (required && sel = 31, .descFault, 0x004),
   (decide (sel < 16) && !(agOf x sel).loaded, .descFault, 0x004)]

/-- A generator's format must be its port's (R87). -/
def fmtFault (x : Core) (sel : Nat) (f : Fmt) : Bool × Status × Nat :=
  (decide (sel < 16) && (agOf x sel).loaded && (agOf x sel).fmt != f, .formatFault, 0x010)

/-! ### Scratchpad access of a step -/

/-- Bytes of the core's scratchpad; a poisoned sector among them is noted (R120). -/
def safGet (z : Saf) (a n : Nat) : List Byte × Bool := spaceGet z.spad a n

/-- Bytes written, with poison on every sector they touch when they derive from poison (R120). -/
def safPut (a : Nat) (bs : List Byte) (poison : Bool) (z : Saf) : Saf :=
  let sp := spacePut z.spad a bs
  { z with spad := if poison then (unitsOf 64 a bs.length).foldl spacePoison sp else sp }

def notePoison (p : Bool) (z : Saf) : Saf := if p then { z with core := { z.core with poisoned := true } } else z
def noteFlags (f : BitVec 4) (z : Saf) : Saf := { z with core := { z.core with flags := z.core.flags ||| f } }

/-! ### Operand blocks (R76) -/

def blockBytes (f : Fmt) : Nat := 512 * fmtWidth f
def scaleBytes (sblk : Nat) : Nat := if sblkSize sblk = 0 then 0 else 4096 / sblkSize sblk

/-- An operand block's 64 lines of 64 values, its scales at `sa`; none with a reserved T2 code. Also whether it read
poison. -/
def readBlock (z : Saf) (f : Fmt) (sblk a sa : Nat) : Option (List (List Val)) × Bool :=
  let (bs, p) := safGet z a (blockBytes f)
  let n := sblkSize sblk
  let (sc, ps) := if n = 0 then ([], false) else safGet z sa (scaleBytes sblk)
  let per := if n = 0 then 0 else 64 / n
  let lines := packedLines (fmtWidth f) 64 64 bs
  let vals := (List.zipWith (fun (l : Nat) cs =>
    (codeVals f cs).map (scaleLine n (((sc.drop (l * per)).take per).map (·.toNat)))) (rangeFrom 0 64) lines)
  (vals.foldr (fun v t => match v, t with | some v, some t => some (v :: t) | _, _ => none) (some []), p || ps)

/-- 64 E16 entries from `a`, `stride` entries apart, as exponents. -/
def readEntries (z : Saf) (a stride : Nat) : List (Option Int) × Bool :=
  let r := (rangeFrom 0 64).map fun l => safGet z (a + 2 * l * stride) 2
  (r.map fun e => e16Exp (BitVec.ofNat 16 (leNat e.1)), r.any (·.2))

/-- The ranges of entries of block `q` (R93). -/
def entryRanges (q stride : Nat) : List (Nat × Nat) := (rangeFrom 0 64).map fun l => (2 * (64 * q + l) * stride, 2)

/-! ### Anchor registers (R79, R89) -/

/-- Register `q` of a bank: AA 0 to 3, AB 4 to 7. -/
def ancOf (x : Core) (bank q : Nat) : AncReg := tabGet {} x.ancs (4 * bank + q)

def ancEntry (r : AncReg) (l : Nat) : Option Int := e16Exp (tabGet 0x8000#16 r.e l)

def ancWrite (r : AncReg) (scan poison : Bool) (es : List (Option Int)) : AncReg :=
  { loaded := true, scan := scan, poison := r.poison || poison
    e := (List.zip (rangeFrom 0 64) es).foldl (fun t e => tabSet 0x8000#16 t e.1 (e16Of e.2)) r.e }

/-- A line's exponent exceeds an entry (R51, R93). -/
def exceeds : Option Int → Option Int → Bool
  | none, _ => false
  | some _, none => true
  | some e, some b => decide (b < e)

/-! ### Tiles (R77, R78, R90 to R99) -/

def tileOf (x : Core) (t : Nat) : Tile := tabGet {} x.tiles t
def setTile (t : Nat) (v : Tile) (x : Core) : Core := { x with tiles := tabSet {} x.tiles t v }

def masked (tmask : Nat) : List Nat := (rangeFrom 0 4).filter fun t => bit tmask t

/-- Block row and block column of tile `t` in a shape (R91). -/
def tilePos (shape t : Nat) : Nat × Nat :=
  match shape with
  | 0 => (t / 2, t % 2)
  | 1 => (0, t)
  | _ => (t, 0)

/-- The anchor of a cell from its line maxima (R79, R92). -/
def meetLines : Option Int → Option Int → Anchor
  | some a, some b => .fin (a + b)
  | _, _ => .empty

/-- NaN produced from operands that are not NaN (R65). -/
def dotGenNan (xs ys : List Val) : Bool :=
  (List.zipWith (fun x y => valIsNan (valMul x y) && !(valIsNan x) && !(valIsNan y)) xs ys).any id

def dotInNan (ls : List (List Val)) : Bool := ls.any fun l => l.any valIsNan

/-- The cells of a tile after one step (R52, R94); none when a finite anchor disagrees or a product meets no grid. -/
def tileCells (t : Tile) (anc : Nat → Nat → Anchor) (a b : List (List Val)) (poison : Bool) : Option (Tab Acc) :=
  (rangeFrom 0 4096).foldr (fun k rest =>
    let i := k / 64
    let j := k % 64
    let c := tabGet {} t.cells k
    match rest, anchorMeet c.anc (anc i j) with
    | some rest, some m =>
      match accDot m { c with anc := m, poison := c.poison || poison } (a.getD i []) (b.getD j []) with
      | some c => some (if c = {} then rest else (k, c) :: rest)
      | none => none
    | _, _ => none) (some [])

/-- Whether every cell can take its step's anchor: in range and equal to a finite latched one (R50, R94). -/
def tileAnchorsOk (t : Tile) (anc : Nat → Nat → Anchor) : Bool :=
  (rangeFrom 0 4096).all fun k =>
    let m := anc (k / 64) (k % 64)
    anchorOk m && (anchorMeet (tabGet {} t.cells k).anc m).isSome

/-- Element (i, j) of a drained tile as a value and its flags (R53, R65, R97). -/
def cellVal (t : Tile) (k : Nat) : Val × BitVec 4 :=
  let c := tabGet {} t.cells k
  (accVal c, if c.pinf && c.ninf && !c.nan then flagNanGen else 0)

/-- Bytes of one tile's output array and of its scale or anchor array (R97). -/
def outBytes (f : Fmt) : Nat := blockBytes f
def sideBytes (f : Fmt) (sblk : Nat) : Nat := if f = .w128 then 8192 else scaleBytes sblk

/-- A tile's output block: value bytes, side bytes, flags and poison (R97). -/
def drainBlock (rd : Rnd) (f : Fmt) (sblk : Nat) (index : Nat → Nat → Nat) (t : Tile) :
    List Byte × List Byte × BitVec 4 × Bool :=
  let poison := t.cells.any fun e => e.2.poison
  if f = .w128 then
    let es := (rangeFrom 0 4096).map fun k => accEntry (tabGet {} t.cells k)
    let g := (rangeFrom 0 4096).foldl (fun g k => g ||| (cellVal t k).2) 0
    (es.flatMap (fun e => natLe 16 e.1.toNat), es.flatMap (fun e => natLe 2 e.2.toNat), g, poison)
  else
    let w := fmtWidth f
    let n := sblkSize sblk
    let rows := (rangeFrom 0 64).map fun i =>
      let vs := (rangeFrom 0 64).map fun j => cellVal t (64 * i + j)
      let g := vs.foldl (fun g v => g ||| v.2) 0
      if n = 0 then
        let es := List.zipWith (fun (j : Nat) (v : Val × BitVec 4) => encodeVal f rd (index i j) v.1) (rangeFrom 0 64) vs
        (natLe (packedLen w 64) (packCodes w (es.map (·.1))), [], es.foldl (fun g e => g ||| e.2) g)
      else
        let bl := (rangeFrom 0 (64 / n)).map fun b =>
          encodeBlock f rd (fun k => index i (b * n + k)) (((vs.drop (b * n)).take n).map (·.1))
        (natLe (packedLen w 64) (packCodes w (bl.flatMap (·.2.1))), bl.map (fun e => BitVec.ofNat 8 e.1),
          bl.foldl (fun g e => g ||| e.2.2) g)
    (rows.flatMap (·.1), rows.flatMap (·.2.1), rows.foldl (fun g r => g ||| r.2.2) 0, poison)

/-- What a drain does (R97): ROUND, format, scale code, generators, pitch, logical place and KEEP. -/
structure Drain where
  rd : Rnd
  tmask : Nat
  fmt : Fmt
  sblk : Nat
  ago : Nat
  agos : Nat
  pitch : Nat
  lbase : Nat := 0
  lrow : Nat := 0
  keep : Bool := false

/-- The ports of a drain or a load. The array of W128 anchor entries lies on 64 bytes in both directions (log 37). -/
def Drain.ports (d : Drain) : List Port1 :=
  let side := sideBytes d.fmt d.sblk
  ⟨d.ago, 64, (masked d.tmask).map fun t => (t * d.pitch, outBytes d.fmt)⟩
    :: (if side = 0 then [] else [⟨d.agos, 64, (masked d.tmask).map fun t => (t * side, side)⟩])

def drainTile (d : Drain) (t : Nat) (z : Saf) : Saf :=
  let v := tileOf z.core t
  let (r, c) := tilePos v.shape t
  let (bs, sd, g, p) := drainBlock d.rd d.fmt d.sblk (fun i j => d.lbase + (64 * r + i) * d.lrow + 64 * c + j) v
  let z := safPut (portAddr z.core d.ago + t * d.pitch) bs p z
  let z := if sd = [] then z else safPut (portAddr z.core d.agos + t * sideBytes d.fmt d.sblk) sd p z
  noteFlags g (if d.keep then z else { z with core := setTile t {} z.core })

/-- One drain of every masked tile, checked first (R86, R95, R97); the generators have yet to step. -/
def drainWork (d : Drain) (z : Saf) : Except Flt Saf :=
  match firstFault (d.ports.flatMap (portFaults z.core)) with
  | some f => .error f
  | none => .ok ((masked d.tmask).foldl (fun z t => drainTile d t z) z)

/-- A drain with its generators' step. -/
def drainStep (d : Drain) (z : Saf) : Except Flt Saf :=
  match drainWork d z with
  | .error f => .error f
  | .ok z => .ok { z with core := agSteps [d.ago, d.agos] z.core }

end Sys2Proof.Machine
end

