-- ==== Sys2Proof/Machine/TileWords.lean ====
section
/-!
DEFINITION. The tile words (R88 to R99): the checks at decode and the steps of ANCHOR_LOAD, TILE_MAC, TILE_DRAIN and
TILE_LOAD.
-/
namespace Sys2Proof.Machine

/-- Field `lo` upwards of a control word. -/
def cw (w lo n : Nat) : Nat := bits w lo n
def cwRepeat (w : Nat) : Nat := cw w 8 24 + 1
def cwRound (w : Nat) : Nat := cw w 36 3

/-- Steps run in turn, stopping before one that faults; answers the core and scratchpad, the steps completed and the
fault. -/
def runSteps (f : Nat → Saf → Except Flt Saf) : (fuel i : Nat) → Saf → Saf × Nat × Option Flt
  | 0, i, z => (z, i, none)
  | k + 1, i, z =>
    match f i z with
    | .ok z => runSteps f k (i + 1) z
    | .error e => (z, i, some e)

/-! ### ANCHOR_LOAD (R88, R89) -/

structure AncLoad where
  bank : Nat
  first : Nat
  nreg : Nat
  source : Nat
  merge : Bool
  fmt : Fmt
  sblk : Nat
  agx : Nat
  ags : Nat
  lstride : Nat
  pitch : Nat

def ancLoadOf (w : Nat) : AncLoad :=
  { bank := cw w 64 2, first := cw w 66 2, nreg := cw w 68 2 + 1, source := cw w 70 2, merge := bit w 72
    fmt := fmtOf (cw w 74 4), sblk := cw w 78 2, agx := cw w 80 5, ags := cw w 85 5, lstride := cw w 96 16
    pitch := cw w 128 24 }

/-- The scale generator and SBLK must agree, on a format that takes scales (R89, R94). -/
def scaleFaults (x : Core) (f : Fmt) (sblk sel : Nat) : List (Bool × Status × Nat) :=
  [(sblk != 0 && sel = 31, .descFault, 0x004), (sblk = 0 && sel != 31, .formatFault, 0x010),
   (sblk != 0 && !fmtScalable f, .formatFault, 0x010), fmtFault x sel .s8]

/-- A tile operand format (R42): any that pairs with some format; the formats that SCAN accepts (log 136). -/
def fmtIsOperand (f : Fmt) : Bool :=
  f != .f64 && f != .i32 && f != .s8 && f != .w128 && f != .e16

def ancLoadDecode (w : Nat) (x : Core) : Option Flt :=
  let a := ancLoadOf w
  let scan := a.source = 1
  firstFault ([(decide (2 ≤ a.bank) || decide (2 ≤ a.source), .descFault, 0x003),
    (decide (4 < a.first + a.nreg), .descFault, 0x005)]
    ++ selFaults x a.agx true ++ selFaults x a.ags false
    ++ (if scan then scaleFaults x a.fmt a.sblk a.ags
          ++ [(!fmtIsOperand a.fmt, .formatFault, 0x010), fmtFault x a.agx a.fmt]
        else [fmtFault x a.agx .e16]) ++ [(a.pitch % 64 != 0, .alignFault, 0x021)])

/-- Line maxima of an operand block's effective exponents (R47). -/
def lineMax (b : List (List Val)) : List (Option Int) := b.map maxExpOf

def maxEntries (a b : List (Option Int)) : List (Option Int) := List.zipWith maxExp a b

/-- One register of a step. -/
def ancLoadReg (a : AncLoad) (q : Nat) (z : Saf) : Except Flt Saf :=
  let k := 4 * a.bank + a.first + q
  let r := tabGet {} z.core.ancs k
  let old := (rangeFrom 0 64).map (ancEntry r)
  let put := fun (es : List (Option Int)) (p : Bool) =>
    notePoison p { z with core := { z.core with ancs := tabSet {} z.core.ancs k (ancWrite r (a.source = 1) p (maxEntries old es)) } }
  if a.source = 1 then
    match readBlock z a.fmt a.sblk (portAddr z.core a.agx + q * a.pitch) (portAddr z.core a.ags + q * scaleBytes a.sblk) with
    | (some b, p) => .ok (put (lineMax b) p)
    | (none, _) => .error (.formatFault, 0x013)
  else
    let (es, p) := readEntries z (portAddr z.core a.agx + 2 * (64 * q) * a.lstride) a.lstride
    .ok (put es p)

def ancLoadPorts (a : AncLoad) : List Port1 :=
  let qs := rangeFrom 0 a.nreg
  if a.source = 1 then
    ⟨a.agx, 64, qs.map fun q => (q * a.pitch, blockBytes a.fmt)⟩
      :: (if a.sblk = 0 then [] else [⟨a.ags, 64, [(0, a.nreg * scaleBytes a.sblk)]⟩])
  else [⟨a.agx, 2, qs.flatMap fun q => entryRanges q a.lstride⟩]

/-- A data condition of one block of a step ends the step, so nothing of it is kept. -/
def foldExcept {α : Type} (f : α → Saf → Except Flt Saf) : List α → Saf → Except Flt Saf
  | [], z => .ok z
  | a :: t, z => match f a z with | .ok z => foldExcept f t z | .error e => .error e

def ancLoadStep (w i : Nat) (z : Saf) : Except Flt Saf :=
  let a := ancLoadOf w
  match firstFault ((ancLoadPorts a).flatMap (portFaults z.core)) with
  | some f => .error f
  | none =>
    let clear := fun (q : Nat) (x : Core) => { x with ancs := tabSet {} x.ancs (4 * a.bank + a.first + q) {} }
    let z' := if i = 0 ∧ ¬a.merge then { z with core := iter clear 0 a.nreg z.core } else z
    match foldExcept (ancLoadReg a) (rangeFrom 0 a.nreg) z' with
    | .error e => .error e
    | .ok z => .ok { z with core := agSteps [a.agx, a.ags] z.core }

/-! ### TILE_MAC (R90 to R95) -/

structure TileMac where
  shape : Nat
  tmask : Nat
  init : Bool
  fa : Fmt
  fb : Fmt
  sa : Nat
  sb : Nat
  regA : Bool
  regB : Bool
  aga : Nat
  agb : Nat
  agsa : Nat
  agsb : Nat
  agxa : Nat
  agxb : Nat
  pitchA : Nat
  pitchB : Nat
  lsa : Nat
  lsb : Nat
  adrain : Nat
  out : Drain

def tileMacOf (w : Nat) (rd : Rnd) : TileMac :=
  { shape := cw w 64 2, tmask := cw w 66 4, init := bit w 70, fa := fmtOf (cw w 72 4), fb := fmtOf (cw w 76 4)
    sa := cw w 80 2, sb := cw w 82 2, regA := bit w 84, regB := bit w 85, aga := cw w 88 5, agb := cw w 93 5
    agsa := cw w 98 5, agsb := cw w 103 5, agxa := cw w 108 5, agxb := cw w 113 5, pitchA := cw w 128 24
    pitchB := cw w 152 24, lsa := cw w 176 16, lsb := cw w 192 16, adrain := cw w 208 24
    out := { rd := rd, tmask := cw w 66 4, fmt := fmtOf (cw w 232 4), sblk := cw w 236 2, ago := cw w 239 5
             agos := cw w 244 5, pitch := cw w 256 24 } }

/-- The A and B block of tile `t` (R91). -/
def tileBlocks (shape t : Nat) : Nat × Nat := tilePos shape t

def usedA (m : TileMac) : List Nat := ((masked m.tmask).map fun t => (tileBlocks m.shape t).1).eraseDups
def usedB (m : TileMac) : List Nat := ((masked m.tmask).map fun t => (tileBlocks m.shape t).2).eraseDups

/-- Whether the pair stands on the fixed grid, so that the anchor sources are ignored (R92). -/
def macFixed (m : TileMac) : Option Int := fixedAnchor m.fa m.fb (m.sa != 0 || m.sb != 0)

/-- Decode faults of an output port's format, scales and generators (R43, R87, R97, R98). -/
def outFaults (x : Core) (d : Drain) : List (Bool × Status × Nat) :=
  selFaults x d.ago true ++ selFaults x d.agos (d.sblk != 0 || d.fmt = .w128)
    ++ [(!fmtIsOutput d.fmt, .formatFault, 0x010), (d.sblk != 0 && !fmtOutScalable d.fmt, .formatFault, 0x010),
        fmtFault x d.ago d.fmt, (decide (1 < d.tmask) && d.pitch % 64 != 0, .alignFault, 0x021)]
    ++ (if d.fmt = .w128 then [fmtFault x d.agos .e16] else if d.sblk != 0 then [fmtFault x d.agos .s8] else [])

/-- An operand whose anchor comes from registers: each loaded, and a SUMMARY register with its check generator (R92). -/
def regFaults (x : Core) (bank : Nat) (used : List Nat) (check : Nat) : List (Bool × Status × Nat) :=
  used.flatMap fun q =>
    let r := ancOf x bank q
    [(!r.loaded, .descFault, 0x004), (r.loaded && !r.scan && check = 31, .descFault, 0x004)]

def tileMacDecode (w : Nat) (x : Core) : Option Flt :=
  let m := tileMacOf w {}
  let dr := m.adrain != 0
  let modes : List (Bool × Status × Nat) :=
    [(m.shape = 3, .descFault, 0x003), (dr && decide (5 ≤ cwRound w), .descFault, 0x003),
     (!dr && cwRound w != 0, .descFault, 0x002),
     (dr && cwRepeat w % m.adrain != 0, .descFault, 0x005), (dr && cwRound w = 4, .descFault, 0x005)]
  firstFault (modes
    ++ selFaults x m.aga true ++ selFaults x m.agb true ++ selFaults x m.agsa false ++ selFaults x m.agsb false
    ++ selFaults x m.agxa false ++ selFaults x m.agxb false
    ++ [((pairRate m.fa m.fb).isNone, .formatFault, 0x010), fmtFault x m.aga m.fa, fmtFault x m.agb m.fb,
        fmtFault x m.agxa .e16, fmtFault x m.agxb .e16,
        (m.shape != 1 && m.pitchA % 64 != 0, .alignFault, 0x021), (m.shape != 2 && m.pitchB % 64 != 0, .alignFault, 0x021)]
    ++ scaleFaults x m.fa m.sa m.agsa ++ scaleFaults x m.fb m.sb m.agsb
    ++ (if (macFixed m).isNone && m.regA then regFaults x 0 (usedA m) m.agxa else [])
    ++ (if (macFixed m).isNone && m.regB then regFaults x 1 (usedB m) m.agxb else [])
    ++ (if dr then outFaults x m.out else []))

/-- The ports of a step. A check generator that is named is checked even where no check entry is read (log 138). -/
def macPorts (m : TileMac) : List Port1 :=
  let scale := fun ag (sblk : Nat) (used : List Nat) =>
    if sblk = 0 then [] else [(⟨ag, 64, used.map fun q => (q * scaleBytes sblk, scaleBytes sblk)⟩ : Port1)]
  let check := fun ag (used : List Nat) (ls : Nat) =>
    if ag = 31 then [] else [(⟨ag, 2, used.flatMap fun q => entryRanges q ls⟩ : Port1)]
  [⟨m.aga, 64, (usedA m).map fun q => (q * m.pitchA, blockBytes m.fa)⟩,
   ⟨m.agb, 64, (usedB m).map fun q => (q * m.pitchB, blockBytes m.fb)⟩]
    ++ scale m.agsa m.sa (usedA m) ++ scale m.agsb m.sb (usedB m)
    ++ check m.agxa (usedA m) m.lsa ++ check m.agxb (usedB m) m.lsb

/-- The line maxima of block `q` of an operand: from its register, or the fallback maximum (R92). -/
def lineAnchor (x : Core) (bank : Nat) (reg : Bool) (f : Fmt) (scaled : Bool) (q l : Nat) : Option Int :=
  if reg then ancEntry (ancOf x bank q) l else some (fallbackMax f scaled)

def macAnchor (m : TileMac) (x : Core) (t i j : Nat) : Anchor :=
  match macFixed m with
  | some a => .fin a
  | none =>
    let (qa, qb) := tileBlocks m.shape t
    meetLines (lineAnchor x 0 m.regA m.fa (m.sa != 0) qa i) (lineAnchor x 1 m.regB m.fb (m.sb != 0) qb j)

/-- Block `q` of an operand read and checked against its register and check entries (R93). -/
def macOperand (z : Saf) (m : TileMac) (isB : Bool) (q : Nat) : Except Flt (List (List Val) × Bool) :=
  let f := if isB then m.fb else m.fa
  let sblk := if isB then m.sb else m.sa
  let ag := if isB then m.agb else m.aga
  let pitch := if isB then m.pitchB else m.pitchA
  let sg := if isB then m.agsb else m.agsa
  let xg := if isB then m.agxb else m.agxa
  let ls := if isB then m.lsb else m.lsa
  let reg := (if isB then m.regB else m.regA) && (macFixed m).isNone
  match readBlock z f sblk (portAddr z.core ag + q * pitch) (portAddr z.core sg + q * scaleBytes sblk) with
  | (none, _) => .error (.formatFault, 0x013)
  | (some b, p) =>
    if ¬reg then .ok (b, p)
    else
      let r := ancOf z.core (b01 isB) q
      let top := lineMax b
      let (es, pe) := if r.scan ∨ xg = 31 then ([], false) else readEntries z (portAddr z.core xg + 2 * (64 * q) * ls) ls
      let bad := (List.zipWith (fun (l : Nat) e => exceeds e (ancEntry r l)) (rangeFrom 0 64) top).any id
        || (List.zipWith exceeds top es).any id
      if bad then .error (.formatFault, 0x011) else .ok (b, p || pe || r.poison)

/-- Operand blocks by number. -/
def macOperands (z : Saf) (m : TileMac) (isB : Bool) : List Nat → Except Flt (Tab (List (List Val)) × Bool)
  | [] => .ok ([], false)
  | q :: t =>
    match macOperand z m isB q, macOperands z m isB t with
    | .ok (b, p), .ok (r, p') => .ok ((q, b) :: r, p || p')
    | .error e, _ => .error e
    | _, .error e => .error e

/-- One tile of a step. -/
def macTile (m : TileMac) (as bs : Tab (List (List Val))) (poison : Bool) (t : Nat) (z : Saf) : Except Flt Saf :=
  let v := tileOf z.core t
  let (qa, qb) := tileBlocks m.shape t
  let a := tabGet [] as qa
  let b := tabGet [] bs qb
  match tileCells v (macAnchor m z.core t) a b poison with
  | none => .error (.formatFault, 0x012)
  | some cs =>
    let gen := a.any fun xs => b.any fun ys => dotGenNan xs ys
    let g := (if dotInNan a || dotInNan b then flagNanIn else 0) ||| (if gen then flagNanGen else 0)
    .ok (noteFlags g { z with core := setTile t { empty := false, shape := m.shape, cells := cs } z.core })

/-- One step (R92 to R95). An automatic drain follows the step's accumulation, so its output address is checked after the
step's data (log 137); a generator that both name steps once (R84). -/
def tileMacStep (w : Nat) (rd : Rnd) (i : Nat) (z : Saf) : Except Flt Saf :=
  let m := tileMacOf w rd
  let z := if i = 0 ∧ m.init then { z with core := (masked m.tmask).foldl (fun x t => setTile t {} x) z.core } else z
  let shapeBad := (masked m.tmask).any fun t => !(tileOf z.core t).empty && (tileOf z.core t).shape != m.shape
  let ancBad := (masked m.tmask).any fun t => !(tileAnchorsOk (tileOf z.core t) (macAnchor m z.core t))
  match firstFault ([(shapeBad, .descFault, 0x008), (ancBad, .formatFault, 0x012)]
      ++ (macPorts m).flatMap (portFaults z.core)) with
  | some f => .error f
  | none =>
    match macOperands z m false (usedA m), macOperands z m true (usedB m) with
    | .error e, _ => .error e
    | _, .error e => .error e
    | .ok (as, pa), .ok (bs, pb) =>
      match foldExcept (macTile m as bs (pa || pb)) (masked m.tmask) (notePoison (pa || pb) z) with
      | .error e => .error e
      | .ok z =>
        let gens := [m.aga, m.agb, m.agsa, m.agsb, m.agxa, m.agxb]
        if m.adrain ≠ 0 ∧ (i + 1) % m.adrain = 0 then
          match drainWork m.out z with
          | .error e => .error e
          | .ok z => .ok { z with core := agSteps (gens ++ [m.out.ago, m.out.agos]) z.core }
        else .ok { z with core := agSteps gens z.core }

/-! ### TILE_DRAIN and TILE_LOAD (R96 to R98) -/

def drainOf (w : Nat) (rd : Rnd) : Drain :=
  { rd := rd, tmask := cw w 64 4, keep := bit w 68, fmt := fmtOf (cw w 72 4), sblk := cw w 76 2, ago := cw w 80 5
    agos := cw w 85 5, pitch := cw w 96 24, lbase := cw w 128 48, lrow := cw w 176 32 }

def drainDecode (w : Nat) (x : Core) : Option Flt :=
  firstFault ((decide (5 ≤ cwRound w), .descFault, 0x003) :: outFaults x (drainOf w {}))

def loadShape (w : Nat) : Nat := cw w 69 2

def loadDecode (w : Nat) (x : Core) : Option Flt :=
  firstFault ((loadShape w = 3, .descFault, 0x003) :: outFaults x (drainOf w {}))

/-- The terms of a TILE_LOAD block: accumulators of W128 entries, or values (R98). -/
def loadTerms (z : Saf) (d : Drain) (t : Nat) : Except Flt (List (Acc ⊕ Val) × Bool) :=
  let a := portAddr z.core d.ago + t * d.pitch
  let sa := portAddr z.core d.agos + t * sideBytes d.fmt d.sblk
  if d.fmt = .w128 then
    let (vs, p) := safGet z a 65536
    let (es, pe) := safGet z sa 8192
    let accs := (rangeFrom 0 4096).map fun k =>
      entryAcc (BitVec.ofNat 128 (leNat ((vs.drop (16 * k)).take 16))) (BitVec.ofNat 16 (leNat ((es.drop (2 * k)).take 2)))
    match accs.foldr (fun c t => match c, t with | some c, some t => some (c :: t) | _, _ => none) (some []) with
    | none => .error (.formatFault, 0x012)
    | some cs => .ok (cs.map .inl, p || pe)
  else
    match readBlock z d.fmt d.sblk a sa with
    | (none, _) => .error (.formatFault, 0x013)
    | (some b, p) => .ok ((b.flatMap id).map .inr, p)

/-- One term added to a cell (R55, R57, R533). A cell that holds NaN or an infinity still latches and compares a finite entry's
anchor, and a NaN or infinite entry latches none (log 139). -/
def loadCell (c : Acc) : Acc ⊕ Val → Except Flt Acc
  | .inl e => match accMerge c e with | some c => .ok c | none => .error (.formatFault, 0x012)
  | .inr v => match accTerm c.anc c v with | some c => .ok c | none => .error (.formatFault, 0x014)

def loadCells (t : Tile) (poison : Bool) : Nat → List (Acc ⊕ Val) → Except Flt (Tab Acc)
  | _, [] => .ok []
  | k, e :: es =>
    match loadCell (tabGet {} t.cells k) e, loadCells t poison (k + 1) es with
    | .ok c, .ok r => let c := { c with poison := c.poison || poison }; .ok (if c = {} then r else (k, c) :: r)
    | .error f, _ => .error f
    | _, .error f => .error f

/-- NaN in and NaN made by a load (R57, R65). -/
def loadFlags (old new : Tile) (ts : List (Acc ⊕ Val)) : BitVec 4 :=
  let isNan : Acc ⊕ Val → Bool := fun e => match e with | .inl c => c.nan | .inr v => valIsNan v
  let gen := new.cells.any fun e =>
    !e.2.nan && e.2.pinf && e.2.ninf && !((tabGet {} old.cells e.1).pinf && (tabGet {} old.cells e.1).ninf)
  (if ts.any isNan then flagNanIn else 0) ||| (if gen then flagNanGen else 0)

/-- One tile of a TILE_LOAD (R98). DESIGN CHOICE (log 168): SHAPE is latched by an empty tile alone (R96); a SHAPE that differs from the latched
shape of a tile that is not empty is ignored, and no 0x008 ends the RUN. -/
def loadTile (w : Nat) (d : Drain) (t : Nat) (z : Saf) : Except Flt Saf :=
  let v := tileOf z.core t
  match loadTerms z d t with
  | .error e => .error e
  | .ok (ts, p) =>
    match loadCells v p 0 ts with
    | .error e => .error e
    | .ok cs =>
      let v' : Tile := { empty := false, shape := if v.empty then loadShape w else v.shape, cells := cs }
      .ok (notePoison p (noteFlags (loadFlags v v' ts) { z with core := setTile t v' z.core }))

def loadStep (w : Nat) (z : Saf) : Except Flt Saf :=
  let d := drainOf w {}
  let ts := masked d.tmask
  let z := if d.keep then z else { z with core := ts.foldl (fun x t => setTile t {} x) z.core }
  let noGrid := d.fmt != .w128 && ts.any fun t => (tileOf z.core t).empty
  match firstFault ((noGrid, .formatFault, 0x014) :: d.ports.flatMap (portFaults z.core)) with
  | some f => .error f
  | none =>
    match foldExcept (loadTile w d) ts z with
    | .error e => .error e
    | .ok z => .ok { z with core := agSteps [d.ago, d.agos] z.core }

end Sys2Proof.Machine
end

