-- ==== Sys2Proof/Machine/VecWords.lean ====
section
/-!
DEFINITION. VEC (R100 to R105): its decode checks, elementwise functions, reductions and partial records.
-/
namespace Sys2Proof.Machine

structure Vec where
  rd : Rnd
  func : Nat
  horiz : Bool
  bcast : Bool
  fd : Fmt
  f0 : Fmt
  f1 : Fmt
  f2 : Fmt
  agd : Nat
  agd2 : Nat
  ag0 : Nat
  ag1 : Nat
  ag2 : Nat
  rlen : Nat
  lspan : Nat
  lbase : Nat
  lrow : Nat

def vecWordOf (w : Nat) (rd : Rnd) : Vec :=
  { rd := rd, func := cw w 64 6, horiz := bit w 70, bcast := bit w 71, fd := fmtOf (cw w 72 4), f0 := fmtOf (cw w 76 4)
    f1 := fmtOf (cw w 80 4), f2 := fmtOf (cw w 84 4), agd := cw w 88 5, agd2 := cw w 93 5, ag0 := cw w 98 5
    ag1 := cw w 103 5, ag2 := cw w 108 5, rlen := cw w 128 24, lspan := cw w 152 24, lbase := cw w 192 48
    lrow := cw w 240 32 }

/-- Sources a function reads (R101); none for a reserved code. -/
def vecSources (func : Nat) : Option Nat :=
  if [0x01, 0x02, 0x03, 0x05, 0x09, 0x0A, 0x0B, 0x16, 0x23, 0x28].contains func then some 2
  else if func = 0x04 then some 3
  else if func ≤ 0x15 ∨ func = 0x20 ∨ func = 0x21 ∨ func = 0x22 ∨ func = 0x29 then some 1
  else none

def vecIsReduce (func : Nat) : Bool := decide (0x20 ≤ func ∧ func ≤ 0x23)
def vecIsRecord (func : Nat) : Bool := decide (0x28 ≤ func)

/-- Formats of arithmetic and functions (R71, R102). -/
def vecFloat (f : Fmt) : Bool := f = .f64 || f = .f32 || f = .bf16 || f = .f16

/-- Functions that take F64 (R71). -/
def vecTakes64 (func : Nat) : Bool :=
  [0x01, 0x02, 0x03, 0x04, 0x05, 0x06, 0x09, 0x0A, 0x0B, 0x0D, 0x0E, 0x0F, 0x20, 0x21, 0x22, 0x23].contains func

/-- Conversions of VEC COPY: those of R141 between unscaled formats (R102). -/
def vecCopyOk (a b : Fmt) : Bool :=
  let num : Fmt → Bool := fun f => fmtIsFloat f || fmtIsInt f
  if b = .t2 then a = .t2
  else if (a = .t2 || num a) && num b then true
  else a = b

/-- A format outside R102. A sum writes no format narrower than F16 but W128 (log 134). -/
def vecFmtBad (v : Vec) : Bool :=
  let k := (vecSources v.func).getD 0
  if v.func = 0x00 then !(vecCopyOk v.f0 v.fd)
  else if v.func = 0x28 then v.f0 != .f32 || v.f1 != .f32 || v.fd != .f32
  else if v.func = 0x29 then v.f0 != .f32 || !(vecFloat v.fd)
  else
    let fs := [v.f0] ++ (if 2 ≤ k then [v.f1] else []) ++ (if k = 3 then [v.f2] else [])
    let w128 := v.fd = .w128 && (v.func = 0x20 || v.func = 0x23)
    fs.any (fun f => !vecFloat f) || (!w128 && !vecFloat v.fd)
      || (!vecTakes64 v.func && (v.fd :: fs).any fun f => f = .f64)

/-- W128 output of a sum, with its anchors (R104). -/
def vecW128 (v : Vec) : Bool := v.fd = .w128 && (v.func = 0x20 || v.func = 0x23)

def vecDecode (w : Nat) (x : Core) : Option Flt :=
  let v := vecWordOf w {}
  let k := (vecSources v.func).getD 0
  let modes : List (Bool × Status × Nat) :=
    [((vecSources v.func).isNone, .descFault, 0x003), (decide (5 ≤ cwRound w), .descFault, 0x003),
     (vecIsReduce v.func && cwRepeat w % (v.rlen + 1) != 0, .descFault, 0x005),
     (vecIsRecord v.func && decide (31 < v.rlen), .descFault, 0x005),
     (cwRound w = 4 && v.lspan = 0, .descFault, 0x005)]
  firstFault (modes ++ selFaults x v.agd true ++ selFaults x v.agd2 (vecW128 v) ++ selFaults x v.ag0 true
    ++ selFaults x v.ag1 (decide (2 ≤ k)) ++ selFaults x v.ag2 (k = 3 || vecW128 v)
    ++ [(vecFmtBad v, .formatFault, 0x010), fmtFault x v.agd v.fd, fmtFault x v.ag0 v.f0]
    ++ (if 2 ≤ k then [fmtFault x v.ag1 v.f1] else [])
    ++ (if k = 3 then [fmtFault x v.ag2 v.f2] else [])
    ++ (if vecW128 v then [fmtFault x v.ag2 .e16, fmtFault x v.agd2 .e16] else [])
    ++ (if v.func = 0x29 then [fmtFault x v.agd2 .f32] else []))

/-- Lanes of a step (R102): a destination in F64 counts as an operand (log 133). -/
def vecLanes (v : Vec) : Nat :=
  let k := (vecSources v.func).getD 0
  if v.f0 = .f64 ∨ v.fd = .f64 ∨ (2 ≤ k ∧ v.f1 = .f64) ∨ (k = 3 ∧ v.f2 = .f64) then 16 else 32

/-- The logical index of the k-th element a word writes (R102). -/
def vecIndex (v : Vec) (k : Nat) : Nat := v.lbase + k / v.lspan * v.lrow + k % v.lspan

/-- A vector port: `n` elements of a format. -/
def vecPort (ag : Nat) (f : Fmt) (n : Nat) : Port1 :=
  ⟨ag, if fmtWidth f < 8 then 1 else fmtWidth f / 8, [(0, packedLen (fmtWidth f) n)]⟩

/-- `n` element codes of a port's format, and whether they were poisoned. -/
def vecRead (z : Saf) (ag : Nat) (f : Fmt) (n : Nat) : List Nat × Bool :=
  let (bs, p) := safGet z (portAddr z.core ag) (packedLen (fmtWidth f) n)
  (unpackCodes (fmtWidth f) n (leNat bs), p)

def vecWrite (ag : Nat) (f : Fmt) (cs : List Nat) (poison : Bool) (z : Saf) : Saf :=
  safPut (portAddr z.core ag) (natLe (packedLen (fmtWidth f) cs.length) (packCodes (fmtWidth f) cs)) poison z

/-- The format a function is computed in: F64 when an operand or the result is (R71). -/
def vecCompute (v : Vec) : Fmt := if vecLanes v = 16 then .f64 else .f32

/-- A function of its lane's operands (R71, R101). The reciprocals are rounded to nearest even in F32, whatever the word's mode; a
BF16 or F16 result is that F32 value rounded once more (log 131). -/
def vecFunc (v : Vec) (a b c : Val) : Val :=
  match v.func with
  | 0x01 => valAdd a b
  | 0x02 => valAdd a (valNeg b)
  | 0x03 => valMul a b
  | 0x04 => valAdd (valMul a b) c
  | 0x05 => valDiv a b
  | 0x06 => valSqrt a
  | 0x07 => toF32 (valRcp a)
  | 0x08 => toF32 (valRsqrt a)
  | 0x09 => valMax a b
  | 0x0A => valMin a b
  | 0x0B => if valLt a b then .fin ⟨1, 1⟩ else valZero
  | 0x0C => valExp2 a
  | 0x0E => valLog 0x0E (vecCompute v) a
  | 0x0F => valLog 0x0F (vecCompute v) a
  | 0x16 => valExp2 (toF32 (valAdd a (valNeg b)))
  | 0x00 => a
  | k => valApprox k (vecCompute v) a

/-- OVERFLOW of the rounding to F32 that a function makes before its result is written (R65, R71). -/
def vecPre (v : Vec) (a b : Val) : BitVec 4 :=
  match v.func with
  | 0x07 => f32Over (valRcp a)
  | 0x16 => f32Over (valAdd a (valNeg b))
  | _ => 0

/-- NaN operands of the function. -/
def vecNanIn (k : Nat) (a b c : Val) : Bool :=
  valIsNan a || (decide (2 ≤ k) && valIsNan b) || (k = 3 && valIsNan c)

/-- Elements of an elementwise step: codes and flags (R65, R71). -/
def vecElems (v : Vec) (i : Nat) (as bs cs : List Val) : List Nat × BitVec 4 :=
  let k := (vecSources v.func).getD 0
  let n := vecLanes v
  let es := (rangeFrom 0 n).map fun l =>
    let a := as.getD l valZero
    let b := if v.bcast then bs.getD 0 valZero else bs.getD l valZero
    let c := cs.getD l valZero
    let r := vecFunc v a b c
    let (code, g) := encodeVal v.fd v.rd (vecIndex v (i * n + l)) r
    (code, g ||| vecPre v a b ||| nanFlags (vecNanIn k a b c) r)
  (es.map (·.1), es.foldl (fun g e => g ||| e.2) 0)

/-- The sources of a step as values; none with a reserved T2 code (R40). -/
def vecVals (z : Saf) (v : Vec) : Option (List Val × List Val × List Val) × Bool :=
  let k := (vecSources v.func).getD 0
  let n := vecLanes v
  let (a, pa) := vecRead z v.ag0 v.f0 n
  let (b, pb) := if 2 ≤ k then vecRead z v.ag1 v.f1 (if v.bcast then 1 else n) else ([], false)
  let (c, pc) := if k = 3 then vecRead z v.ag2 v.f2 n else ([], false)
  (match codeVals v.f0 a, codeVals v.f1 b, codeVals v.f2 c with
    | some a, some b, some c => some (a, b, c)
    | _, _, _ => none, pa || pb || pc)

/-- The source ports whose format and address are checked: those that the function reads. DESIGN CHOICE (log 169): a generator named on a port
that the word does not use is checked by its selector and stepped, but neither its FMT nor its address is checked (R87). -/
def vecSrcPorts (v : Vec) : List Port1 :=
  let k := (vecSources v.func).getD 0
  let n := vecLanes v
  [vecPort v.ag0 v.f0 n] ++ (if 2 ≤ k then [vecPort v.ag1 v.f1 (if v.bcast then 1 else n)] else [])
    ++ (if k = 3 then [vecPort v.ag2 v.f2 n] else [])

def vecElemStep (v : Vec) (i : Nat) (z : Saf) : Except Flt Saf :=
  match firstFault ((vecSrcPorts v ++ [vecPort v.agd v.fd (vecLanes v)]).flatMap (portFaults z.core)) with
  | some f => .error f
  | none =>
    let done := fun (z : Saf) => { z with core := agSteps [v.ag0, v.ag1, v.ag2, v.agd, v.agd2] z.core }
    if v.func = 0x00 ∧ (v.f0 = .s8 ∨ v.f0 = .e16 ∨ v.f0 = .w128) then
      let (cs, p) := vecRead z v.ag0 v.f0 (vecLanes v)
      .ok (done (notePoison p (vecWrite v.agd v.fd cs p z)))
    else match vecVals z v with
      | (none, _) => .error (.formatFault, 0x013)
      | (some (a, b, c), p) =>
        let (cs, g) := vecElems v i a b c
        .ok (done (notePoison p (noteFlags g (vecWrite v.agd v.fd cs p z))))

/-! ### Reductions (R103, R104) -/

/-- Elements written per group. -/
def vecOut (v : Vec) : Nat := if v.horiz then 1 else vecLanes v

/-- The group's operands that make up output `l`. -/
def groupLane (v : Vec) (red : List (List Val × List Val)) (l : Nat) : List Val × List Val :=
  if v.horiz then (red.flatMap (·.1), red.flatMap (·.2))
  else (red.map fun r => r.1.getD l valZero, red.map fun r => r.2.getD l valZero)

/-- A sum or dot product under an anchor given, of the fixed grid of a pair of F16 operands, or taken from the data (R50, R72,
R52): its accumulator. Of a dot product, an element's effective exponent under a given anchor is the sum of its factors' (log 132). -/
def vecAcc (v : Vec) (anc : Option Anchor) (xs ys : List Val) : Except Flt Acc :=
  let ys := if v.func = 0x20 then xs.map fun _ => Val.fin ⟨1, 1⟩ else ys
  let own := if v.func = 0x23 ∧ v.f0 = .f16 ∧ v.f1 = .f16 then Anchor.fin (110 + gridM .f16 + gridM .f16) else tightAnchor xs ys
  let a := anc.getD own
  let tooBig := anc.isSome && (List.zipWith (fun x y =>
    match valExp x, valExp y, a with
    | some e, some k, .fin m => decide (m < e + k)
    | some _, some _, _ => true
    | _, _, _ => false) xs ys).any id
  if ¬anchorOk a then .error (.formatFault, 0x012)
  else if tooBig then .error (.formatFault, 0x011)
  else match accDot a { anc := a } xs ys with
    | some c => .ok c
    | none => .error (.formatFault, 0x011)

/-- One output of a reduction as a value. -/
def vecRedVal (v : Vec) (xs ys : List Val) : Except Flt Val :=
  if v.func = 0x21 then .ok (match xs with | [] => valZero | x :: t => t.foldl valMax x)
  else if v.func = 0x22 then .ok (match xs with | [] => valZero | x :: t => t.foldl valMin x)
  else match vecAcc v none xs ys with | .ok c => .ok (accVal c) | .error e => .error e

def exceptAll {α : Type} : List (Except Flt α) → Except Flt (List α)
  | [] => .ok []
  | .ok a :: t => match exceptAll t with | .ok l => .ok (a :: l) | .error e => .error e
  | .error e :: _ => .error e

/-- An operand of an output is NaN. -/
def laneNan (v : Vec) (l : List Val × List Val) : Bool := l.1.any valIsNan || (v.func = 0x23 && l.2.any valIsNan)

/-- What a group writes: element codes, anchor entries for W128, flags; NAN_IN and NAN_GEN are judged output by output (R65). -/
def vecGroup (v : Vec) (g : Nat) (red : List (List Val × List Val)) (ancs : List (Option Int)) :
    Except Flt (List Nat × List Nat × BitVec 4) :=
  let lanes := (rangeFrom 0 (vecOut v)).map (groupLane v red)
  if vecW128 v then
    match exceptAll (List.zipWith (fun (l : List Val × List Val) (e : Option Int) =>
        vecAcc v (some (match e with | some a => Anchor.fin a | none => .empty)) l.1 l.2) lanes ancs) with
    | .error e => .error e
    | .ok cs =>
      let es := cs.map accEntry
      let gs := List.zipWith (fun l c => nanFlags (laneNan v l) (accVal c)) lanes cs
      .ok (es.map (·.1.toNat), es.map (·.2.toNat), gs.foldl (· ||| ·) 0)
  else
    match exceptAll (lanes.map fun l => vecRedVal v l.1 l.2) with
    | .error e => .error e
    | .ok vs =>
      let es := List.zipWith (fun (l : Nat) r => encodeVal v.fd v.rd (vecIndex v (g * vecOut v + l)) r)
        (rangeFrom 0 vs.length) vs
      let gs := List.zipWith (fun l r => nanFlags (laneNan v l) r) lanes vs
      .ok (es.map (·.1), [], es.foldl (fun g e => g ||| e.2) (gs.foldl (· ||| ·) 0))

/-- A step of a reduction (R103, R104). DESIGN CHOICE (log 170): an anchor read through AG_S2 is R48's 16-bit two's-complement exponent, 0x8000
standing for EMPTY. -/
def vecReduceStep (v : Vec) (i : Nat) (z : Saf) : Except Flt Saf :=
  let last := (i + 1) % (v.rlen + 1) = 0
  let n := vecOut v
  let ports := vecSrcPorts v ++ (if last then [vecPort v.agd v.fd n]
    ++ (if vecW128 v then [⟨v.ag2, 2, [(0, 2 * n)]⟩, ⟨v.agd2, 2, [(0, 2 * n)]⟩] else []) else [])
  match firstFault (ports.flatMap (portFaults z.core)) with
  | some f => .error f
  | none =>
    match vecVals z v with
    | (none, _) => .error (.formatFault, 0x013)
    | (some (a, b, _), p) =>
      let b := if v.bcast then a.map fun _ => b.getD 0 valZero else b
      let z := notePoison p { z with red := z.red ++ [(a, b)], redPoison := z.redPoison || p }
      let srcs := [v.ag0, v.ag1] ++ (if vecW128 v then [] else [v.ag2])
      if ¬last then .ok { z with core := agSteps srcs z.core }
      else
        let (anc, pa) := if vecW128 v then safGet z (portAddr z.core v.ag2) (2 * n) else ([], false)
        let ancs := (rangeFrom 0 n).map fun l => e16Exp (BitVec.ofNat 16 (leNat ((anc.drop (2 * l)).take 2)))
        match vecGroup v (i / (v.rlen + 1)) z.red ancs with
        | .error e => .error e
        | .ok (cs, es, g) =>
          let p := z.redPoison || pa
          let z := vecWrite v.agd v.fd cs p z
          let z := if vecW128 v then vecWrite v.agd2 .e16 es p z else z
          let z := notePoison pa (noteFlags g { z with red := [], redPoison := false })
          .ok { z with core := agSteps (srcs ++ [v.agd, v.agd2, v.ag2]) z.core }

/-! ### Partial records (R105) -/

/-- D of a record. -/
def recDim (v : Vec) : Nat := 32 * (v.rlen + 1)

/-- A record's codes: o, m and s. -/
def readRecord (z : Saf) (ag dim : Nat) : List Nat × Bool := vecRead z ag .f32 (dim + 2)

/-- A record with m = −∞ and s = +0 is EMPTY. -/
def recNode (dim : Nat) (cs : List Nat) : Node :=
  if cs.getD dim 0 = 0xFF800000 ∧ cs.getD (dim + 1) 0 = 0 then .empty
  else .node (cs.take dim) (cs.getD dim 0) (cs.getD (dim + 1) 0)

/-- Two records merged (R66, R68): merging with EMPTY returns the other. -/
def mergeRecords (dim : Nat) (a b : List Nat) : List Nat × BitVec 4 :=
  match recNode dim a, recNode dim b with
  | .empty, _ => (b, 0)
  | _, .empty => (a, 0)
  | x, y =>
    match nodeMerge x y with
    | .empty => (b, 0)
    | .node o m s => (o ++ [m, s], nodeMergeFlags x y)

/-- A root record finished (R69): element codes, L, and the flags of the elements and of L (R65). -/
def finishRecord (v : Vec) (i : Nat) (cs : List Nat) : List Nat × Nat × BitVec 4 × BitVec 4 :=
  let dim := recDim v
  match recNode dim cs with
  | .empty => ((rangeFrom 0 dim).map fun _ => 0, 0xFF800000, 0, 0)
  | .node o m s =>
    let es := List.zipWith (fun (d : Nat) x =>
      let r := valDiv (f32Val x) (f32Val s)
      let (c, g) := encodeVal v.fd v.rd (vecIndex v (i * dim + d)) r
      (c, g ||| nanFlags (valIsNan (f32Val x) || valIsNan (f32Val s)) r)) (rangeFrom 0 dim) o
    let l := nodeLog m s
    (es.map (·.1), f32Code l, es.foldl (fun g e => g ||| e.2) 0, nanFlags (valIsNan (f32Val m) || valIsNan (f32Val s)) l)

def vecRecordStep (v : Vec) (i : Nat) (z : Saf) : Except Flt Saf :=
  let dim := recDim v
  let rec1 := fun (ag : Nat) => (⟨ag, 8, [(0, 4 * dim + 8)]⟩ : Port1)
  let ports := if v.func = 0x28 then [rec1 v.ag0, rec1 v.ag1, rec1 v.agd]
    else [rec1 v.ag0, vecPort v.agd v.fd dim] ++ (if v.agd2 = 31 then [] else [vecPort v.agd2 .f32 1])
  match firstFault (ports.flatMap (portFaults z.core)) with
  | some f => .error f
  | none =>
    let (a, pa) := readRecord z v.ag0 dim
    let done := fun (z : Saf) => { z with core := agSteps [v.ag0, v.ag1, v.ag2, v.agd, v.agd2] z.core }
    if v.func = 0x28 then
      let (b, pb) := readRecord z v.ag1 dim
      let (r, g) := mergeRecords dim a b
      .ok (done (notePoison (pa || pb) (noteFlags g (vecWrite v.agd .f32 r (pa || pb) z))))
    else
      let (es, l, g, gl) := finishRecord v i a
      let z := vecWrite v.agd v.fd es pa z
      let z := if v.agd2 = 31 then z else vecWrite v.agd2 .f32 [l] pa z
      .ok (done (notePoison pa (noteFlags (if v.agd2 = 31 then g else g ||| gl) z)))

/-- One step of a VEC word. -/
def vecStep (w : Nat) (rd : Rnd) (i : Nat) (z : Saf) : Except Flt Saf :=
  let v := vecWordOf w rd
  if vecIsReduce v.func then vecReduceStep v i z
  else if vecIsRecord v.func then vecRecordStep v i z
  else vecElemStep v i z

end Sys2Proof.Machine
end

