-- ==== Sys2Proof/Machine/Saffron.lean ====
section
/-!
DEFINITION. RUN and the control words of a Saffron core (R80 to R122, R339): the start of a RUN, the fetch of its streams,
each word at the head of the queue, the end of a RUN, and a wait ended by its inheritance budget (R377).
-/
namespace Sys2Proof.Machine

/-! ### The end of a RUN (R116) -/

/-- The cores of a RUN stop with its status, each raising its source (R116, R446), and its waits are abandoned. -/
def haltRun (st : Status) (c : Nat) (s : State) : State :=
  let ns := coresOf s c ++ imageCores s c
  let s := foldState ns (fun n s => raise (256 + n) s) (stopCores st c s)
  setWaiters (s.sem.waiters.filter fun w => waitCmd w.who != c) s

/-- The numeric flags of a RUN so far: those of its cores, with those of indices put aside (R65). -/
def runFlags (s : State) (c : Nat) : BitVec 4 :=
  ((coresOf s c).foldl (fun g n => g ||| (coreOf s n).flags) 0)
    ||| (((partOf s (homeOf s (cmdOf s c).fn)).swapped.filter fun e => e.2.core.run = c).foldl
      (fun g e => g ||| e.2.core.flags) 0)

/-- A RUN ends with a failure found on partition core index `i` (R116). -/
def failRun (c i : Nat) (st : Status) (cause : Nat) (s : State) : State :=
  settleWaits (homeOf s (cmdOf s c).fn) s (finish c st cause 0 i (runFlags s c) (haltRun st c s))

/-- Core `n` faults at a word (R116, R121, R122). -/
def coreFault (n op pos : Nat) (f : Flt) (s : State) : State :=
  let x := coreOf s n
  let s := modCore n (fun x => { x with
    faultStatus := BitVec.ofNat 8 (statusCode f.1), faultOp := BitVec.ofNat 8 op, faultCause := BitVec.ofNat 12 f.2
    faultPos := BitVec.ofNat 64 pos }) s
  failRun x.run x.pidx f.1 f.2 s

/-- When every core of a RUN has executed END, the RUN completes (R116): POISON_CONSUMED when a core consumed poison, with
the lowest such index (R120). -/
def settleRun (c : Nat) (s : State) : State :=
  let p := homeOf s (cmdOf s c).fn
  let ns := coresOf s c
  let aside := (partOf s p).swapped.filter fun e => e.2.core.run = c
  if ns.all (fun n => (coreOf s n).done) ∧ aside.all (fun e => e.2.core.done) then
    let bad := ((ns.filter fun n => (coreOf s n).poisoned).map fun n => (coreOf s n).pidx)
      ++ (aside.filter fun e => e.2.core.poisoned).map (·.1)
    let st := if bad = [] then Status.ok else .poisonConsumed
    let flags := runFlags s c
    let s := leaveKept c (foldState ns (fun n s => modCore n (coreStop (statusCode (okStatus (cmdOf s c).replayed st))) s) s)
    if bad = [] then finish c .ok 0 0 0 flags s
    else finish c .poisonConsumed 0x042 0 (bad.foldl Nat.min 256) flags s
  else s

/-! ### RUN (R113, R339) -/

/-- An entry of a core table. -/
structure CoreEntry where
  stream : Nat
  len : Nat
  index : Nat
  host : Bool
  reserved : Bool

def coreEntries : List Byte → Nat → List CoreEntry
  | _, 0 => []
  | bs, k + 1 =>
    let n := leNat (bs.take 16)
    { stream := bits n 0 64, len := bits n 64 32, index := bits n 96 8, host := bit n 104, reserved := bits n 105 23 != 0 }
      :: coreEntries (bs.drop 16) k

/-- Bytes of device memory or of a registered buffer of the command's function: in range, as delivered, and poisoned or
unauthenticated (R338, R343, R349). -/
def bodyGet (s : State) (x : Cmd) (host : Bool) (a n : Nat) : Bool × List Byte × Bool :=
  let p := homeOf s x.fn
  if host then (hostOk s x.fn a n false, (hostGet s x.fn a n).1, !(hostGet s x.fn a n).2)
  else (devOk s p a n, (devGet s p a n).1, (devGet s p a n).2)

/-- The effect of such a read on the stacks (R196, R206). -/
def bodyNote (x : Cmd) (host : Bool) (a n : Nat) (s : State) : State :=
  if host then s else devNote (homeOf s x.fn) a n s

def runTable (x : Cmd) : Nat := field x 8 8
def runCores (x : Cmd) : Nat := field x 36 2
def runHost (x : Cmd) : Bool := bit (field x 38 1) 0

/-- The entries of the core table that were read: of a table delivered poisoned, those whose word with the index and the reserved bits
came clean (R10). -/
def entriesRead (s : State) (x : Cmd) (bs : List Byte) (bad : Bool) : List CoreEntry :=
  let es := coreEntries bs (runCores x)
  if ¬bad then es
  else ((List.zip (rangeFrom 0 (runCores x)) es).filter fun e => !(bodyGet s x (runHost x) (runTable x + 16 * e.1 + 8) 8).2.2).map (·.2)

/-- The faults of a RUN that start no core (R339, R340, R343). -/
def runFault (s : State) (x : Cmd) : Option Flt :=
  let n := runCores x
  if n < 1 ∨ 256 < n then some (.descFault, 0x604)
  else if runTable x % 16 ≠ 0 then some (.alignFault, 0x620)
  else
    let (ok, bs, bad) := bodyGet s x (runHost x) (runTable x) (16 * n)
    let es := entriesRead s x bs bad
    if ¬ok then some (.boundsFault, 0x630)
    else firstFault [(es.any (·.reserved), .descFault, 0x601), (!noDup (es.map (·.index)), .descFault, 0x604),
      (es.any fun e => (physCore s (homeOf s x.fn) e.index).isNone, .boundsFault, 0x631),
      (bad, .poisonConsumed, if runHost x then 0x650 else 0x043)]

/-- A core at the start of a RUN (R113, R122): its fault registers clear, its scratchpad as it stands. -/
def startCore (c p : Nat) (x : Cmd) (e : CoreEntry) (y : Core) : Core :=
  { state := .running, run := c, pidx := e.index, part := p, seed := BitVec.ofNat 64 (field x 16 8)
    stream := BitVec.ofNat 64 (field x 24 8), fetchHost := e.host, fetchAddr := e.stream, fetchLeft := e.len
    lastStatus := y.lastStatus, cycles := y.cycles, steps := y.steps }

/-- One entry of the table: its core starts, or its index stands ready aside (R466). -/
def startEntry (c p : Nat) (x : Cmd) (e : CoreEntry) (s : State) : State :=
  if isAside s p e.index then
    setAside p e.index { indexImage s p e.index with core := { startCore c p x e {} with state := .suspended } } s
  else match physCore s p e.index with
    | none => s
    | some n => modCore n (startCore c p x e) (dropAsk (2 * n + 1) s)

/-- The core table of a RUN can be read (R339): its length and its address pass their checks. -/
def runReads (x : Cmd) : Bool := decide (1 ≤ runCores x ∧ runCores x ≤ 256) && runTable x % 16 = 0

/-- A RUN whose core table is read: the read's effects, then its fault, or its cores start. -/
def runServed (c : Nat) (x : Cmd) (s : State) : State :=
  let p := homeOf s x.fn
  let n := 16 * runCores x
  let s' := if runReads x then bodyNote x (runHost x) (runTable x) n s else s
  match runFault s x with
  | some (st, cause) => fail c st cause s'
  | none =>
    let es := coreEntries (bodyGet s x (runHost x) (runTable x) n).2.1 (runCores x)
    let s' := modCmd c (fun x => { x with cores := es.filterMap fun e => (physCore s' p e.index).map fun n => (e.index, n) }) s'
    foldState es (startEntry c p x) s'

/-- An index that a RUN names is busy: another RUN uses it, or it is out of service. -/
def runBusy (s : State) (x : Cmd) : Bool :=
  (coreEntries (bodyGet s x (runHost x) (runTable x) (16 * runCores x)).2.1 (runCores x)).any fun e =>
    let m := (indexImage s (homeOf s x.fn) e.index).core
    m.run != 0 || m.state = .deconfigured

def runEffect (c : Nat) (s : State) : State :=
  let x := cmdOf s c
  if ¬classReady s c 0x02 ∨ coresOf s c ≠ [] ∨ (runFault s x = none ∧ runBusy s x) ∨ hostHeld s x.fn (runHost x) then notTaken s
  else withAccess (2 * c) (homeOf s x.fn) (if runHost x ∨ ¬runReads x then [] else [(runTable x, 16 * runCores x)]) [] (runServed c x) s

/-- RUN (R113, R339): the streams of its core table start on the cores named. -/
def execRun (c : Nat) (s : State) : Host.Outcome State Fault Refusal := take (.run c) s (runEffect c)

/-! ### Fetch (R114, R115) -/

/-- The address of word `i` of the next block, and whether it is in range and delivered whole. -/
def fetchWordAt (s : State) (x : Core) (i : Nat) : Bool × List Byte × Bool :=
  bodyGet s (cmdOf s x.run) x.fetchHost (x.fetchAddr + 64 * i) 64

/-- The first word of a block that cannot be fetched, and its fault. -/
def fetchFault (s : State) (x : Core) : Nat → Nat → Option (Nat × Flt)
  | 0, _ => none
  | k + 1, i =>
    let (ok, _, bad) := fetchWordAt s x i
    if ¬ok then some (i, .boundsFault, 0x032)
    else if bad then some (i, .poisonConsumed, if x.fetchHost then 0x650 else 0x041)
    else fetchFault s x k (i + 1)

def coreLive (x : Core) : Bool := x.state = .running && x.run != 0 && !x.done

/-- The next `k` words read into the queue. A fault of the fetch records OP 0: no word has been decoded (log 154). -/
def fetchBlock (n k : Nat) (s : State) : State :=
  let x := coreOf s n
  match fetchFault s x k 0 with
  | some (i, .poisonConsumed, cause) =>
    coreFault n 0 (x.fetchOff + 64 * i) (.poisonConsumed, cause)
      (bodyNote (cmdOf s x.run) x.fetchHost x.fetchAddr (64 * (i + 1)) s)
  | some (0, f) => if x.queue = [] then coreFault n 0 x.fetchOff f s else notTaken s
  | r =>
    let m := match r with | some (i, _) => i | none => k
    let s' := bodyNote (cmdOf s x.run) x.fetchHost x.fetchAddr (64 * m) s
    let ws := (rangeFrom 0 m).map fun i =>
      ({ w := BitVec.ofNat 512 (leNat (fetchWordAt s x i).2.1), off := x.fetchOff + 64 * i } : QWord)
    modCore n (fun x => { x with queue := x.queue ++ ws, fetchAddr := x.fetchAddr + 64 * m
                                 fetchOff := x.fetchOff + 64 * m, fetchLeft := x.fetchLeft - m }) s'

def streamFetchEffect (n : Nat) (s : State) : State :=
  let x := coreOf s n
  if ¬(coreLive x ∧ running s) then notTaken s
  else if x.fetchLeft = 0 then
    if x.queue = [] then coreFault n 0 x.fetchOff (.descFault, 0x007) s else notTaken s
  else if x.fetchAddr % 64 ≠ 0 then coreFault n 0 x.fetchOff (.alignFault, 0x021) s
  else
    let k := Nat.min 16 x.fetchLeft
    if 64 < x.queue.length + k ∨ hostHeld s (cmdOf s x.run).fn x.fetchHost then notTaken s
    else withAccess (2 * n + 1) x.part (if x.fetchHost then [] else [(x.fetchAddr, 64 * k)]) [] (fetchBlock n k) s

/-- The fetch unit reads a block of words into the queue as slots free (R114); a poisoned word ends the RUN at once (R120); a block in a chunk being moved or in an
EXCLUSIVE window waits (R201, R239); a stream
that has run out without END or lies out of range once the words before have left the queue (log 34). -/
def execStreamFetch (n : Nat) (s : State) : Host.Outcome State Fault Refusal :=
  take (.streamFetch n) s (streamFetchEffect n)

/-! ### Words at the head of the queue -/

/-- The defined bits of a word's body and of ROUND (R80, R82, R85, R88, R90, R96, R100, R108). -/
def wordBits (op : Nat) : Nat :=
  let f := fun (lo hi : Nat) => (2 ^ (hi - lo + 1) - 1) * 2 ^ lo
  let common := f 462 511 + f 32 33 + f 0 31 + f 36 38
  common + match op with
    | 0x01 => f 64 431
    | 0x02 => f 64 72 + f 74 89 + f 96 111 + f 128 151
    | 0x03 => f 64 70 + f 72 85 + f 88 117 + f 128 237 + f 239 248 + f 256 279
    | 0x04 => f 64 68 + f 72 77 + f 80 89 + f 96 119 + f 128 207
    | 0x05 => f 64 70 + f 72 77 + f 80 89 + f 96 119
    | 0x08 => f 64 112 + f 128 175 + f 192 271
    | 0x10 => f 64 79 + f 80 111
    | 0x11 => f 64 79 + f 80 112
    | 0x12 => f 64 65 + f 96 159 + f 160 191
    | 0x20 => f 64 65 + f 128 215
    | _ => 0

/-- The defined operation codes (R81). -/
def opCodes : List Nat := [0x00, 0x01, 0x02, 0x03, 0x04, 0x05, 0x08, 0x10, 0x11, 0x12, 0x13, 0x20, 0x3F]

/-- REPEAT may be non-zero (R81). -/
def opRepeats (op : Nat) : Bool := op = 0x02 || op = 0x03 || op = 0x08

/-- ROUND may be non-zero (R80); TILE_MAC decides for itself by ADRAIN. -/
def opRounds (op : Nat) : Bool := op = 0x03 || op = 0x04 || op = 0x08

/-- The faults of every word at decode (R80 to R82). -/
def commonFault (w : Nat) : Option Flt :=
  let op := w % 256
  firstFault [(!opCodes.contains op, .descFault, 0x001),
    (w ||| wordBits op != wordBits op || (!opRepeats op && cwRepeat w != 1) || (!opRounds op && cwRound w != 0),
      .descFault, 0x002)]

/-- The faults of two lists of checks, by R10. -/
def worseOf (a b : Option Flt) : Option Flt :=
  match a, b with
  | none, b => b
  | a, none => a
  | some a, some b => if statusRank b.1 < statusRank a.1 then some b else some a

def agSetFault (w : Nat) : Option Flt :=
  firstFault [((rangeFrom 0 6).any (fun l => cw w (96 + 56 * l) 24 = 0), .descFault, 0x006),
    (decide (0x2FFFFF < cw w 72 24), .boundsFault, 0x030)]

/-- The space that ACQUIRE names holds its whole range (R111). -/
def acquireFault (s : State) (x : Core) (w : Nat) : Option Flt :=
  let a := cw w 96 64
  let n := cw w 160 32
  firstFault [(decide (2 ≤ cw w 64 2), .descFault, 0x003), (n = 0, .descFault, 0x006),
    (cw w 64 2 = 0 && decide (0x300000 < a + n), .boundsFault, 0x030),
    (cw w 64 2 = 1 && !(devOk s x.part a n), .boundsFault, 0x032)]

/-- The checks of a JUMP at its decode; whether its address lies in the partition's chunks or buffers is found by the fetch that follows,
with the new segment's offset 0 (0x032, log 153). -/
def jumpFault (w : Nat) : Option Flt :=
  firstFault [(decide (2 ≤ cw w 64 2), .descFault, 0x003), (cw w 192 24 = 0, .descFault, 0x006),
    (cw w 128 64 % 64 != 0, .alignFault, 0x021)]

def semFault (s : State) (x : Core) (w : Nat) : Option Flt :=
  firstFault [((semNum s x.part (cw w 64 16)).isNone, .boundsFault, 0x031)]

/-- The faults of a word at decode. -/
def decodeFault (s : State) (x : Core) (w : Nat) : Option Flt :=
  let own := match w % 256 with
    | 0x01 => agSetFault w
    | 0x02 => ancLoadDecode w x
    | 0x03 => tileMacDecode w x
    | 0x04 => drainDecode w x
    | 0x05 => loadDecode w x
    | 0x08 => vecDecode w x
    | 0x10 => semFault s x w
    | 0x11 => semFault s x w
    | 0x12 => acquireFault s x w
    | 0x20 => jumpFault w
    | _ => none
  match commonFault w with
  | some (st, 0x001) => some (st, 0x001)
  | f => worseOf f own

/-- A word may start: its core runs, holds no WAIT, and a suspension without grace has not stopped issue (R117). -/
def coreIssues (s : State) (n : Nat) : Bool :=
  let x := coreOf s n
  running s && coreLive x && !x.held && !(x.suspendReq && x.grace = 0)

/-- The word at the head leaves the queue. -/
def retire (n : Nat) (s : State) : State := spendCycles n (modCore n (fun x => { x with queue := x.queue.drop 1 }) s)

/-- A word of operation `op` at the head of core `n`'s queue, decoded (R121), then `f`. -/
def onWord (n op : Nat) (f : QWord → State → State) (s : State) : State :=
  match (coreOf s n).queue with
  | [] => notTaken s
  | q :: _ =>
    if ¬coreIssues s n ∨ q.w.toNat % 256 ≠ op then notTaken s
    else match decodeFault s (coreOf s n) q.w.toNat with
      | some e => coreFault n op q.off e s
      | none => f q s

/-- The rounding of a word: its mode with the seed and stream number of its RUN (R63, R113). -/
def wordRnd (x : Core) (w : Nat) : Rnd := { mode := cwRound w, seed := x.seed.toNat, stream := x.stream.toNat }

/-- A word of `k` steps on the datapath (R86), from its saved step count on (R119): the steps before a fault stand, the fault
ends the RUN. -/
def datapath (n op k : Nat) (step : Nat → Saf → Except Flt Saf) (q : QWord) (s : State) : State :=
  let x := coreOf s n
  let (z, done, e) := runSteps step (k - x.wstep) x.wstep { core := x, spad := spadOf s n, red := x.red, redPoison := x.redPoison }
  let s := modSpad n (fun _ => z.spad) (modCore n (fun _ => { z.core with
    steps := satAdd 64 z.core.steps (done - x.wstep), wstep := 0, red := [], redPoison := false }) s)
  match e with
  | some e => coreFault n op q.off e s
  | none => retire n s

def nopEffect (n : Nat) (s : State) : State := onWord n 0x00 (fun _ => retire n) s

/-- NOP (R81). -/
def execNop (n : Nat) (s : State) : Host.Outcome State Fault Refusal := take (.nop n) s (nopEffect n)

/-- The generator that AG_SET loads, every index 0 (R84, R85). -/
def agSetOf (w : Nat) : Ag :=
  { loaded := true, base := cw w 72 24, fmt := fmtOf (cw w 68 4)
    counts := (rangeFrom 0 6).map fun l => cw w (96 + 56 * l) 24
    strides := (rangeFrom 0 6).map fun l => signed 32 (cw w (120 + 56 * l) 32)
    idx := [0, 0, 0, 0, 0, 0] }

def agSetEffect (n : Nat) (s : State) : State :=
  onWord n 0x01 (fun q s => retire n (modCore n (fun x =>
    { x with ags := tabSet {} x.ags (cw q.w.toNat 64 4) (agSetOf q.w.toNat) }) s)) s

/-- AG_SET (R84, R85). -/
def execAgSet (n : Nat) (s : State) : Host.Outcome State Fault Refusal := take (.agSet n) s (agSetEffect n)

def anchorLoadEffect (n : Nat) (s : State) : State :=
  onWord n 0x02 (fun q s => datapath n 0x02 (cwRepeat q.w.toNat) (ancLoadStep q.w.toNat) q s) s

/-- ANCHOR_LOAD (R88, R89). -/
def execAnchorLoad (n : Nat) (s : State) : Host.Outcome State Fault Refusal := take (.anchorLoad n) s (anchorLoadEffect n)

def tileMacEffect (n : Nat) (s : State) : State :=
  onWord n 0x03 (fun q s => datapath n 0x03 (cwRepeat q.w.toNat) (tileMacStep q.w.toNat (wordRnd (coreOf s n) q.w.toNat)) q s) s

/-- TILE_MAC (R90 to R95). -/
def execTileMac (n : Nat) (s : State) : Host.Outcome State Fault Refusal := take (.tileMac n) s (tileMacEffect n)

def tileDrainEffect (n : Nat) (s : State) : State :=
  onWord n 0x04 (fun q s => datapath n 0x04 1 (fun _ => drainStep (drainOf q.w.toNat (wordRnd (coreOf s n) q.w.toNat))) q s) s

/-- TILE_DRAIN (R96, R97). -/
def execTileDrain (n : Nat) (s : State) : Host.Outcome State Fault Refusal := take (.tileDrain n) s (tileDrainEffect n)

def tileLoadEffect (n : Nat) (s : State) : State :=
  onWord n 0x05 (fun q s => datapath n 0x05 1 (fun _ => loadStep q.w.toNat) q s) s

/-- TILE_LOAD (R96, R98). -/
def execTileLoad (n : Nat) (s : State) : Host.Outcome State Fault Refusal := take (.tileLoad n) s (tileLoadEffect n)

def vecEffect (n : Nat) (s : State) : State :=
  onWord n 0x08 (fun q s => datapath n 0x08 (cwRepeat q.w.toNat) (vecStep q.w.toNat (wordRnd (coreOf s n) q.w.toNat)) q s) s

/-- VEC (R100 to R105). -/
def execVec (n : Nat) (s : State) : Host.Outcome State Fault Refusal := take (.vec n) s (vecEffect n)

/-- The semaphore operation at hand was applied by an earlier run of the group (R177). -/
def semReplayed (s : State) (n : Nat) : Bool :=
  let x := coreOf s n
  decide (x.semSeen < tabGet 0 (cmdOf s x.run).semDone x.pidx)

/-- The job that a core works for. -/
def coreJob (s : State) (n : Nat) : Nat × Nat := ((cmdOf s (coreOf s n).run).fn, (cmdOf s (coreOf s n).run).ring)

def passSem (n : Nat) (s : State) : State := retire n (modCore n (fun x => { x with semSeen := x.semSeen + 1 }) s)

def signalWord (n : Nat) (q : QWord) (s : State) : State :=
  let w := q.w.toNat
  if semReplayed s n then passSem n s
  else match semNum s (coreOf s n).part (cw w 64 16) with
    | none => notTaken s
    | some k =>
      let j := coreJob s n
      semAdd k (cw w 80 32) j (passSem n (noteSemOp (coreOf s n).run (coreOf s n).pidx s))

def signalEffect (n : Nat) (s : State) : State := onWord n 0x10 (signalWord n) s

/-- SIGNAL (R109): earlier words have completed and their writes are visible; VALUE is added. -/
def execSignal (n : Nat) (s : State) : Host.Outcome State Fault Refusal := take (.signal n) s (signalEffect n)

def waitWord (n : Nat) (q : QWord) (s : State) : State :=
  let w := q.w.toNat
  if semReplayed s n then passSem n s
  else match semNum s (coreOf s n).part (cw w 64 16) with
    | none => notTaken s
    | some k =>
      let j := coreJob s n
      let (now, s) := semWaitNow { sem := k, value := cw w 80 32, consume := bit w 112, who := .word (coreOf s n).run (coreOf s n).pidx, fn := j.1,
                                   ring := j.2 } s
      if now then passSem n (noteSemOp (coreOf s n).run (coreOf s n).pidx s)
      else reinherit (homeOf s j.1) (modCore n (fun x => { x with held := true }) s)

def waitEffect (n : Nat) (s : State) : State := onWord n 0x11 (waitWord n) s

/-- WAIT (R110): passed at once when its threshold is met, otherwise it holds issue. -/
def execWait (n : Nat) (s : State) : Host.Outcome State Fault Refusal := take (.wait n) s (waitEffect n)

/-- Fetched words of device memory that overlap a range are fetched again, with all that follow them (R111, R115). -/
def dropFetched (a len : Nat) (x : Core) : Core :=
  let base := x.fetchAddr - x.fetchOff
  let hit := fun (q : QWord) => decide (base + q.off < a + len ∧ a < base + q.off + 64)
  let rest := x.queue.drop 1
  let keep := rest.takeWhile fun q => !(hit q)
  if x.fetchHost ∨ keep.length = rest.length then x
  else
    let n := rest.length - keep.length
    { x with queue := x.queue.take 1 ++ keep, fetchAddr := x.fetchAddr - 64 * n, fetchOff := x.fetchOff - 64 * n
             fetchLeft := x.fetchLeft + n }

def acquireWord (n : Nat) (q : QWord) (s : State) : State :=
  let w := q.w.toNat
  retire n (if cw w 64 2 = 1 then modCore n (dropFetched (cw w 96 64) (cw w 160 32)) s else s)

def acquireEffect (n : Nat) (s : State) : State := onWord n 0x12 (acquireWord n) s

/-- ACQUIRE (R111): copies of the range are discarded. The model's tile and vector units hold none; the queue's words of
the range are fetched again. -/
def execAcquire (n : Nat) (s : State) : Host.Outcome State Fault Refusal := take (.acquire n) s (acquireEffect n)

def yieldWord (n : Nat) (s : State) : State := if (coreOf s n).suspendReq then coreSuspend n s else retire n s

def yieldPointEffect (n : Nat) (s : State) : State := onWord n 0x13 (fun _ => yieldWord n) s

/-- YIELD_POINT (R112): stops the core when a suspension is pending, otherwise does nothing. -/
def execYieldPoint (n : Nat) (s : State) : Host.Outcome State Fault Refusal := take (.yieldPoint n) s (yieldPointEffect n)

def jumpWord (n : Nat) (q : QWord) (s : State) : State :=
  let w := q.w.toNat
  modCore n (fun x => { x with queue := [], fetchHost := cw w 64 2 = 1, fetchAddr := cw w 128 64, fetchOff := 0
                               fetchLeft := cw w 192 24 }) (retire n s)

def jumpEffect (n : Nat) (s : State) : State := onWord n 0x20 (jumpWord n) s

/-- JUMP (R114): the words fetched after it are discarded, the stream goes on at ADDR. -/
def execJump (n : Nat) (s : State) : Host.Outcome State Fault Refusal := take (.jump n) s (jumpEffect n)

def endWordDo (n : Nat) (s : State) : State :=
  let c := (coreOf s n).run
  let s := retire n s
  let s := modCore n (fun x => { x with state := .idle, done := true, queue := [], fetchLeft := 0, suspendReq := false
                                        graceRun := false }) s
  settleRun c (raise (256 + n) s)

def endWordEffect (n : Nat) (s : State) : State := onWord n 0x3F (fun _ => endWordDo n) s

/-- END (R116): the core is done; the RUN completes when all its cores are. -/
def execEndWord (n : Nat) (s : State) : Host.Outcome State Fault Refusal := take (.endWord n) s (endWordEffect n)

def reservedWordEffect (n : Nat) (s : State) : State :=
  match (coreOf s n).queue with
  | [] => notTaken s
  | q :: _ =>
    let op := q.w.toNat % 256
    if ¬coreIssues s n ∨ opCodes.contains op then notTaken s else coreFault n op q.off (.descFault, 0x001) s

/-- A reserved OP at the head ends the RUN (R81, R121). -/
def execReservedControlWord (n : Nat) (s : State) : Host.Outcome State Fault Refusal :=
  take (.reservedControlWord n) s (reservedWordEffect n)

/-! ### Suspension of a core (R117) -/

/-- The steps of a word of the tile or vector unit. -/
def wordSteps (x : Core) (w : Nat) : Option (Nat × (Nat → Saf → Except Flt Saf)) :=
  match w % 256 with
  | 0x02 => some (cwRepeat w, ancLoadStep w)
  | 0x03 => some (cwRepeat w, tileMacStep w (wordRnd x w))
  | 0x04 => some (1, fun _ => drainStep (drainOf w (wordRnd x w)))
  | 0x05 => some (1, fun _ => loadStep w)
  | 0x08 => some (cwRepeat w, vecStep w (wordRnd x w))
  | _ => none

/-- What of the word at the head is done when a stop takes hold (R117): fewer than all of its steps, how many being a free
value (log 141); its step count and its reduction's state stay with the core. -/
def partWord (n k : Nat) (s : State) : State :=
  let x := coreOf s n
  match x.queue with
  | [] => s
  | q :: _ =>
    match wordSteps x q.w.toNat, decodeFault s x q.w.toNat with
    | some (m, step), none =>
      let (z, done, e) := runSteps step (k % Nat.max 1 (m - x.wstep)) x.wstep
        { core := x, spad := spadOf s n, red := x.red, redPoison := x.redPoison }
      let s := modSpad n (fun _ => z.spad) (modCore n (fun _ => { z.core with
        steps := satAdd 64 z.core.steps (done - x.wstep), wstep := done, red := z.red, redPoison := z.redPoison }) s)
      match e with
      | some e => coreFault n (q.w.toNat % 256) q.off e s
      | none => spendCycles n s
    | _, _ => s

def yieldGraceExpiredEffect (n : Nat) (s : State) : State :=
  let x := coreOf s n
  when (running s && coreLive x && x.suspendReq && x.graceRun) s
    (let (k, s) := draw s
     let s := partWord n k s
     if coreLive (coreOf s n) then coreSuspend n s else s)

/-- The grace of a pending suspension runs out (R117): issue stops, and the word in flight at its next step boundary. -/
def execYieldGraceExpired (n : Nat) (s : State) : Host.Outcome State Fault Refusal :=
  take (.yieldGraceExpired n) s (yieldGraceExpiredEffect n)

def coreSaveCompleteEffect (n : Nat) (s : State) : State :=
  let x := coreOf s n
  when (running s && x.state = .suspended && x.saving) s (modCore n (fun x => { x with saving := false }) s)

/-- A core's save image is written (R117). -/
def execCoreSaveComplete (n : Nat) (s : State) : Host.Outcome State Fault Refusal :=
  take (.coreSaveComplete n) s (coreSaveCompleteEffect n)

/-! ### The inheritance budget (R377) -/

/-- A wait causes inheritance: a holder of its semaphore has a less urgent class of its own (R376). -/
def causesInheritance (s : State) (w : Waiter) : Bool :=
  s.sem.holders.any fun h => h.sem = w.sem && (h.fn != w.fn || h.ring != w.ring)
    && decide (effClass (ringOf s w.fn w.ring) < (ringOf s h.fn h.ring).cls.toNat)

/-- Where the WAIT word of RUN `c` on index `i` stands: the core that serves the index, and the word's byte offset, from the core
that holds issue at it or the image that keeps it. -/
def waitPlace (s : State) (p c i : Nat) : Nat × Nat :=
  let pos := fun (x : Core) => (x.queue.head?.map (·.off)).getD x.fetchOff
  match wordCore s c i with
  | some n => (n, pos (coreOf s n))
  | none =>
    let kept := keptImages s p
    ((physCore s p i).getD 0, ((kept.find? fun y => y.core.run = c && y.core.pidx = i).map fun y => pos y.core).getD 0)

/-- The fault registers of a WAIT word that its budget ends (R110, R122). -/
def budgetFault (pos : Nat) (x : Core) : Core :=
  { x with
    faultStatus := BitVec.ofNat 8 (statusCode .semInheritExpired), faultOp := 0x11, faultCause := 0x040
    faultPos := BitVec.ofNat 64 pos }

def budgetEffect (who : WaitName) (s : State) : State :=
  match s.sem.waiters.find? fun w => w.who = who with
  | none => notTaken s
  | some w =>
    if ¬(running s ∧ causesInheritance s w) then notTaken s
    else
      let s0 := s
      let s := setWaiters (s.sem.waiters.erase w) s
      let s := match who with
        | .command c => fail c .semInheritExpired 0x742 s
        | .word c i =>
          let (n, pos) := waitPlace s (homeOf s w.fn) c i
          failRun c i .semInheritExpired 0x040 (modCore n (budgetFault pos) s)
      settleWaits (homeOf s w.fn) s0 (wakeJob (waiterJob w) s)

/-- A wait's inheritance budget runs out (R377): SEM_WAIT completes and consumes nothing, a WAIT word ends its RUN (R110);
inheritance ends. -/
def execInheritBudgetExpired (w : WaitName) (s : State) : Host.Outcome State Fault Refusal :=
  take (.inheritBudgetExpired w) s (budgetEffect w)

end Sys2Proof.Machine
end

