-- ==== Sys2Proof/Machine/CopyOps.lean ====
section
/-!
DEFINITION. Tensor descriptors and their layouts (R125 to R132), the spaces a mover reaches (R26, R126), and the checks of
a COPY (R133 to R147).
-/
namespace Sys2Proof.Machine

/-- A tensor descriptor, read (R125). -/
structure TDesc where
  addr : Nat := 0
  scale : Nat := 0
  rsum : Nat := 0
  csum : Nat := 0
  ext : List Nat := []
  str : List Int := []
  rank : Nat := 0
  fmt : Fmt := .f32
  sblk : Nat := 0
  space : Nat := 0
  layout : Nat := 0
  core : Nat := 0
  emitR : Bool := false
  emitC : Bool := false
  idxAddr : Nat := 0
  nidx : Nat := 0
  perm : List Nat := []
  permEn : Bool := false
  reduce : Bool := false
  indexed : Bool := false
  gdim : Nat := 0
  istaging : Bool := false
  reserved : Bool := false
  deriving DecidableEq, Repr

/-- The descriptor that 128 bytes hold; extents and strides below RANK. -/
def tdescOf (bs : List Byte) : TDesc :=
  let n := leNat bs
  let rank := bits n 428 3
  { addr := bits n 0 64, scale := bits n 64 64, rsum := bits n 128 64, csum := bits n 192 64
    ext := (rangeFrom 0 rank).map fun d => bits n (256 + 32 * d) 32
    str := (rangeFrom 0 rank).map fun d => signed 64 (bits n (448 + 64 * d) 64)
    rank := rank, fmt := fmtOf (bits n 416 4), sblk := bits n 420 2, space := bits n 422 3, layout := bits n 425 3
    core := bits n 432 8, emitR := bit n 441, emitC := bit n 442
    idxAddr := bits n 768 64, nidx := bits n 864 32
    perm := (rangeFrom 0 5).map fun d => bits n (832 + 3 * d) 3
    gdim := bits n 847 3, indexed := bit n 850, permEn := bit n 851, reduce := bit n 852, istaging := bit n 853
    reserved := bits n 896 128 != 0 || bits n 443 5 != 0 || bit n 440 || bit n 431 || bits n 854 10 != 0 }

def TDesc.blocked (t : TDesc) : Bool := decide (1 ≤ t.layout ∧ t.layout ≤ 3)
def TDesc.width (t : TDesc) : Nat := fmtWidth t.fmt
def TDesc.blk (t : TDesc) : Nat := sblkSize t.sblk
def TDesc.w128 (t : TDesc) : Bool := t.fmt = .w128

/-- Coordinates of a row-major index, innermost first. -/
def coordsOf : List Nat → Nat → List Nat
  | [], _ => []
  | d :: ds, k => k % d :: coordsOf ds (k / d)

/-- The row-major index of coordinates. -/
def rowMajor : List Nat → List Nat → Nat
  | d :: ds, c :: cs => c + d * rowMajor ds cs
  | _, _ => 0

def product (l : List Nat) : Nat := l.foldl (· * ·) 1

def roundUp64 (n : Nat) : Nat := 64 * ceilDiv n 64

/-- Padded extents of a blocked tensor (R129): C' and R'. -/
def TDesc.padC (t : TDesc) : Nat := roundUp64 (t.ext.getD 0 0)
def TDesc.padR (t : TDesc) : Nat := roundUp64 (t.ext.getD 1 0)

/-- Effective strides of the leading dimensions (R129). -/
def leadEff : Int → List Nat → List Int → List Int
  | prev, e :: es, s :: ss => let t := if s = 0 then prev else s; t :: leadEff (t * (e : Int)) es ss
  | _, _, _ => []

def TDesc.lead (t : TDesc) : List Int := leadEff ((t.padR * t.padC : Nat) : Int) (t.ext.drop 2) (t.str.drop 2)

def dotInt (cs : List Nat) (ss : List Int) : Int := (List.zipWith (fun (c : Nat) (s : Int) => (c : Int) * s) cs ss).foldl (· + ·) 0

/-- Block index and element offset within the block of (r, c) (R129). -/
def TDesc.block (t : TDesc) (r c : Nat) : Nat × Nat :=
  if t.layout = 2 then (c / 64 * (t.padR / 64) + r / 64, 64 * (c % 64) + r % 64)
  else (r / 64 * (t.padC / 64) + c / 64, 64 * (r % 64) + c % 64)

/-- The element offset of coordinates, in elements from ADDR (R128, R129). -/
def TDesc.off (t : TDesc) (cs : List Nat) : Int :=
  if t.blocked then
    let (b, e) := t.block (cs.getD 1 0) (cs.getD 0 0)
    dotInt (cs.drop 2) t.lead + ((b * 4096 + e : Nat) : Int)
  else dotInt cs t.str

/-- Matrix number of coordinates (R131). -/
def TDesc.matrix (t : TDesc) (cs : List Nat) : Nat := rowMajor (t.ext.drop 2) (cs.drop 2)

/-- The element's place in the scale array: index of its scale, and its position in that scale's block (R131). -/
def TDesc.scalePos (t : TDesc) (cs : List Nat) : Nat × Nat :=
  let n := t.blk
  if t.blocked then
    let (b, e) := t.block (cs.getD 1 0) (cs.getD 0 0)
    ((t.matrix cs * (t.padR * t.padC / 4096) + b) * (4096 / n) + e / n, e % n)
  else
    let l := rowMajor t.ext cs
    (l / n, l % n)

/-- Row and column for the summaries (R48, R127, R142): the extents they run over, and those of coordinates. -/
def TDesc.sumRows (t : TDesc) : Nat :=
  if t.blocked then t.padR * product (t.ext.drop 2) else product (t.ext.drop 1)
def TDesc.sumCols (t : TDesc) : Nat := if t.blocked then t.padC else t.ext.getD 0 0
def TDesc.sumPos (t : TDesc) (cs : List Nat) : Nat × Nat :=
  if t.blocked then (t.matrix cs * t.padR + cs.getD 1 0, cs.getD 0 0)
  else (rowMajor (t.ext.drop 1) (cs.drop 1), cs.getD 0 0)

def TDesc.rsumBytes (t : TDesc) : Nat := 2 * t.sumRows * ceilDiv t.sumCols 64
def TDesc.csumBytes (t : TDesc) : Nat := 2 * t.sumCols * ceilDiv t.sumRows 64

/-! ### The spaces (R26, R126) -/

/-- A read of [a, a + n) in a descriptor's space: in range; the bytes; poisoned or unauthenticated. -/
def spRead (s : State) (x : Cmd) (t : TDesc) (a n : Nat) : Bool × List Byte × Bool :=
  let p := homeOf s x.fn
  match t.space with
  | 0 =>
    let r := spaceGet (indexImage s p t.core).spad a n
    (decide (a + n ≤ 0x300000), r.1, r.2)
  | 1 => let r := spaceGet s.staging a n; (stagingOk s p a n, r.1, r.2)
  | 2 => let r := devGet s p a n; (devOk s p a n, r.1, r.2)
  | 3 => let r := farGet s p a n; (farOk s p a n, r.1, r.2)
  | _ => let r := hostGet s x.fn a n; (hostOk s x.fn a n false, r.1, !r.2)

/-- Whether a write of [a, a + n) is in range. -/
def spWriteOk (s : State) (x : Cmd) (t : TDesc) (a n : Nat) : Bool :=
  if t.space = 4 then hostOk s x.fn a n true else (spRead s x t a n).1

/-- The scratchpad of a partition core index changed, on its core or put aside. -/
def modIndexSpad (p i : Nat) (g : Space → Space) (s : State) : State :=
  if isAside s p i then let m := indexImage s p i; setAside p i { m with spad := g m.spad } s
  else match physCore s p i with
    | none => s
    | some n => modSpad n g s

/-- Bytes written in a descriptor's space. -/
def spWrite (x : Cmd) (t : TDesc) (a : Nat) (bs : List Byte) (s : State) : State :=
  let p := homeOf s x.fn
  match t.space with
  | 0 => modIndexSpad p t.core (fun sp => spacePut sp a bs) s
  | 1 => { s with staging := spacePut s.staging a bs }
  | 2 => devPut p a bs s
  | 3 => farPut p a bs s
  | _ => hostPut x.fn a bs s

/-- The sector of address `a` marked poisoned (R145); a host buffer carries no mark, so the sector becomes free bytes. -/
def spPoison (x : Cmd) (t : TDesc) (a : Nat) (s : State) : State :=
  let p := homeOf s x.fn
  match t.space with
  | 0 => modIndexSpad p t.core (fun sp => spacePoison sp a) s
  | 1 => { s with staging := spacePoison s.staging a }
  | 2 => devPoisonSector p a s
  | 3 => farPoisonSector p a s
  | _ => s

/-- The effect of a COPY's reads on the memories: each word and sector once. -/
def spNote (x : Cmd) (t : TDesc) (l : List (Nat × Nat)) (s : State) : State :=
  let p := homeOf s x.fn
  let units := fun (u : Nat) => (l.flatMap fun e => unitsOf u e.1 e.2).eraseDups
  match t.space with
  | 2 => countAt p (units 64) (foldState (units 8) (fun a s => devReport p a 8 s) s)
  | 3 => foldState (units 64) (fun a s => farNote p a 64 s) s
  | _ => s

/-! ### One element -/

/-- Byte range of `w` bits at bit address `b`. -/
def bitSpan (b : Int) (w : Nat) : Int × Nat := (b / 8, ceilDiv ((b % 8).toNat + w) 8)

/-- The bit address of an element's data. -/
def TDesc.bitAddr (t : TDesc) (off : Int) : Int := ((t.addr * 8 : Nat) : Int) + off * (t.width : Int)

/-- Byte ranges of an element: its data, and its anchor entry or its scale. -/
def TDesc.spans (t : TDesc) (off : Int) (sidx : Nat) : List (Int × Nat) :=
  bitSpan (t.bitAddr off) t.width ::
    (if t.w128 then [(((t.scale : Nat) : Int) + 2 * off, 2)] else if t.blk = 0 then [] else [(((t.scale + sidx : Nat) : Int), 1)])

/-- The spans as ranges of addresses; none when one lies below 0. -/
def spansNat (l : List (Int × Nat)) : Option (List (Nat × Nat)) :=
  if l.all fun e => decide (0 ≤ e.1) then some (l.map fun e => (e.1.toNat, e.2)) else none

/-- An element as read: code, scale or anchor entry, and poison. -/
structure ElemRead where
  code : Nat := 0
  side : Nat := 0
  poison : Bool := false
  deriving DecidableEq, Repr

/-- An element read at an offset with its scale or anchor; none outside its space (R126). -/
def elemRead (s : State) (x : Cmd) (t : TDesc) (off : Int) (sidx : Nat) : Option ElemRead :=
  match spansNat (t.spans off sidx) with
  | none => none
  | some l =>
    let rs := l.map fun e => spRead s x t e.1 e.2
    if ¬rs.all (·.1) then none
    else
      let word := fun (i : Nat) => leNat ((rs[i]?.map (·.2.1)).getD [])
      some { code := word 0 / 2 ^ (t.bitAddr off % 8).toNat % 2 ^ t.width, side := word 1, poison := rs.any (·.2.2) }

/-- The value of an element that is no W128 entry; none for the reserved T2 code. -/
def elemVal (t : TDesc) (e : ElemRead) : Option Val :=
  (decodeVal t.fmt e.code).map (applyScale (if t.blk = 0 then none else some e.side))

/-! ### Checks (R125, R126, R128 to R146) -/

/-- A fault with the SIDE of R148. -/
abbrev SideFlt := Nat × Status × Nat

/-- The fault reported of several (R10). -/
def firstSided (l : List (Bool × Nat × Status × Nat)) : Option SideFlt :=
  (l.filter (·.1)).foldl (fun b e =>
    match b with
    | none => some e.2
    | some y => if statusRank e.2.2.1 < statusRank y.2.1 then some e.2 else b) none

def addrAlign (f : Fmt) : Nat := match fmtWidth f with | 128 => 16 | 64 => 8 | 32 => 4 | 16 => 2 | _ => 1

/-- PERM is a permutation of the dimensions below RANK, the others naming themselves (R134). -/
def permOk (t : TDesc) : Bool :=
  noDup t.perm && (List.zip (rangeFrom 0 5) t.perm).all fun e => if e.1 < t.rank then decide (e.2 < t.rank) else e.2 = e.1

/-- The innermost multiple of R45: 1 where it asks for none. -/
def innerMultiple (t : TDesc) : Nat :=
  if t.blk != 0 then t.blk
  else match t.fmt with | .f6e3 => 4 | .f6e2 => 4 | .t2 => 4 | .f4 => 2 | .i4 => 2 | _ => 1

/-- The checks of one descriptor. -/
def tdescFaults (s : State) (x : Cmd) (side : Nat) (t : TDesc) : List (Bool × Nat × Status × Nat) :=
  let dst := side = 1
  let w : Int := t.width
  let far := t.space = 3 || t.space = 4
  [(t.reserved || decide (5 ≤ t.space) || decide (4 ≤ t.layout) || t.rank = 0 || decide (5 < t.rank), side, .descFault, 0x101),
   (t.ext.any (fun e => e = 0 || decide (2 ^ 31 < e)) || (t.indexed && t.nidx = 0), side, .descFault, 0x102),
   (!dst && (t.permEn || t.reduce || t.emitR || t.emitC), side, .descFault, 0x102),
   (dst && t.permEn && !permOk t, side, .descFault, 0x102),
   (t.indexed && (t.blocked || decide (t.rank ≤ t.gdim) || (dst && (t.emitR || t.emitC))), side, .descFault, 0x103),
   (t.blocked && (t.str.getD 0 0 != 0 || t.str.getD 1 0 != 0 || decide (t.rank < 2)), side, .descFault, 0x103),
   (t.sblk != 0 && !fmtScalable t.fmt, side, .formatFault, 0x110),
   (dst && (t.emitR || t.emitC) && (t.fmt = .w128 || t.fmt = .s8 || t.fmt = .e16), side, .formatFault, 0x110),
   (dst && t.reduce && t.fmt != .w128, side, .formatFault, 0x110),
   (t.addr % (if t.blocked || far then 64 else addrAlign t.fmt) != 0 || (t.w128 && t.scale % 2 != 0)
      || (t.emitR && t.rsum % 2 != 0) || (t.emitC && t.csum % 2 != 0), side, .alignFault, 0x120),
   (t.indexed && t.idxAddr % 4 != 0, 2, .alignFault, 0x120),
   (!t.blocked && ((t.str.drop 1).any (fun v => v * w % 8 != 0) || (fmtSubByte t.fmt && t.str.getD 0 1 != 1)), side, .alignFault, 0x121),
   (t.blocked && (t.str.drop 2).any (fun v => v * w % 512 != 0), side, .alignFault, 0x121),
   (!t.blocked && t.ext.getD 0 0 % innerMultiple t != 0, side, .alignFault, 0x122),
   (dst && !t.blocked && t.emitC && decide (3 ≤ t.rank) && t.ext.getD 1 0 % 64 != 0, side, .alignFault, 0x122),
   (t.space = 0 && (physCore s (homeOf s x.fn) t.core).isNone, side, .boundsFault, 0x132),
   (t.emitR && !spWriteOk s x t t.rsum t.rsumBytes, side, .boundsFault, 0x130),
   (t.emitC && !spWriteOk s x t t.csum t.csumBytes, side, .boundsFault, 0x130)]

def setAt (l : List Nat) (i v : Nat) : List Nat := l.set i v

/-- The logical shape with the extent of GDIM replaced by NIDX (R133). -/
def TDesc.shape (t : TDesc) : List Nat := if t.indexed then setAt t.ext t.gdim t.nidx else t.ext

/-- The copy shape (R133). -/
def copyShape (src dst : TDesc) : List Nat :=
  if dst.permEn then (dst.perm.take src.rank).map fun d => src.shape.getD d 0 else src.shape

/-- Formats that R141 converts among. -/
def fmtPlain (f : Fmt) : Bool := f != .w128 && f != .s8 && f != .e16

/-- The pairings of R141. -/
def convOk (a b : Fmt) (reduce : Bool) : Bool :=
  if b = .w128 then a = .w128 || (reduce && fmtIsOutput a)
  else if a = .w128 then fmtIsOutput b
  else if a = .s8 ∨ a = .e16 then b = a
  else if b = .t2 then a = .t2
  else fmtPlain b

/-- Element offsets lowest and highest that a descriptor can reach (R143): a destination's padding is written. -/
def TDesc.reach (t : TDesc) (dst : Bool) : Int × Int :=
  let lead := if t.blocked then t.lead else t.str
  let es := if t.blocked then t.ext.drop 2 else t.ext
  let step := List.zipWith (fun (e : Nat) (v : Int) => ((e : Int) - 1) * v) es lead
  let lo := step.foldl (fun a v => if v < 0 then a + v else a) 0
  let hi := step.foldl (fun a v => if v < 0 then a else a + v) 0
  if t.blocked then
    let (b, e) := if dst then t.block (t.padR - 1) (t.padC - 1) else t.block (t.ext.getD 1 1 - 1) (t.ext.getD 0 1 - 1)
    (lo, hi + ((b * 4096 + e : Nat) : Int))
  else (lo, hi)

/-- The number of scales of a tensor that it can reach: a blocked source's padding is never read (R130, R143). -/
def TDesc.scales (t : TDesc) (dst : Bool) : Nat :=
  if ¬t.blocked then product t.ext / t.blk
  else if dst then product (t.ext.drop 2) * (t.padR * t.padC / t.blk)
  else (t.scalePos (t.ext.map (· - 1))).1 + 1

/-- Byte ranges [lo, hi) that a tensor's arrays span. -/
def TDesc.arrays (t : TDesc) (dst : Bool) : List (Int × Int) :=
  let (lo, hi) := t.reach dst
  let a := bitSpan (t.bitAddr lo) t.width
  let b := bitSpan (t.bitAddr hi) t.width
  let sc : Int := t.scale
  [(a.1, b.1 + (b.2 : Nat))]
    ++ (if t.w128 then [(sc + 2 * lo, sc + 2 * hi + 2)] else if t.blk = 0 then [] else [(sc, sc + (t.scales dst : Nat))])
    ++ (if t.emitR then [((t.rsum : Int), ((t.rsum + t.rsumBytes : Nat) : Int))] else [])
    ++ (if t.emitC then [((t.csum : Int), ((t.csum + t.csumBytes : Nat) : Int))] else [])

/-- Both arrays lie in one space. -/
def sameSpace (a b : TDesc) : Bool := a.space = b.space && (a.space != 0 || a.core = b.core)

/-- The exception of R143: one descriptor twice, but for REDUCE, which a source may not carry. -/
def selfReduce (src dst : TDesc) : Bool := dst.reduce && { dst with reduce := false } = src

def arraysMeet (src dst : TDesc) : Bool :=
  sameSpace src dst && !selfReduce src dst
    && (src.arrays false).any fun a => (dst.arrays true).any fun b => decide (a.1 < b.2 ∧ b.1 < a.2)

/-- Every offset that a destination's strides give, padding included (R128, R130). -/
def dstOffsets (t : TDesc) : List Int :=
  let dims := if t.blocked then t.padC :: t.padR :: t.ext.drop 2 else t.ext
  (rangeFrom 0 (product dims)).map fun k => t.off (coordsOf dims k)

def noDupInt : List Int → Bool
  | [] => true
  | a :: t => !t.contains a && noDupInt t

/-- The checks of the pair. -/
def pairChecks (src dst : TDesc) : List (Bool × Nat × Status × Nat) :=
  [(src.rank != dst.rank || copyShape src dst != dst.shape, 3, .descFault, 0x102),
   (src.indexed && dst.indexed, 3, .descFault, 0x103),
   (!noDupInt (dstOffsets dst), 1, .descFault, 0x104),
   (arraysMeet src dst, 3, .descFault, 0x104),
   (!convOk src.fmt dst.fmt dst.reduce, 3, .formatFault, 0x110)]

/-! ### The index tensor (R135) -/

/-- The tensor that an INDEXED descriptor indexes through, as a descriptor of its space. -/
def indexDesc (t : TDesc) : TDesc := { addr := t.idxAddr, space := if t.istaging then 1 else 2 }

/-- The entries of the index tensor: in range, the signed entries, poisoned. -/
def indexRead (s : State) (x : Cmd) (t : TDesc) : Bool × List Int × Bool :=
  let (ok, bs, bad) := spRead s x (indexDesc t) t.idxAddr (4 * t.nidx)
  (ok, (rangeFrom 0 t.nidx).map fun i => signed 32 (leNat ((bs.drop (4 * i)).take 4)), bad)

/-- An entry of the index tensor delivered clean. -/
def indexClean (s : State) (x : Cmd) (t : TDesc) (i : Nat) : Bool := !(spRead s x (indexDesc t) (t.idxAddr + 4 * i) 4).2.2

/-- The faults of the index tensor: of one delivered poisoned, the entries that came clean are checked (R10). -/
def indexFaults (s : State) (x : Cmd) (t : TDesc) : List (Bool × Nat × Status × Nat) :=
  if ¬t.indexed then []
  else
    let (ok, l, bad) := indexRead s x t
    let out := fun (v : Int) => decide (v < -1 ∨ (t.ext.getD t.gdim 0 : Int) ≤ v)
    if ¬ok then [(true, 2, .boundsFault, 0x130)]
    else [(bad, 2, .poisonConsumed, 0x140),
      ((List.zip (rangeFrom 0 t.nidx) l).any (fun e => out e.2 && (!bad || indexClean s x t e.1)), 2, .boundsFault, 0x131)]

end Sys2Proof.Machine
end

