-- ==== Sys2Proof/Machine/Copy.lean ====
section
/-!
DEFINITION. COPY (R133 to R148): which element goes where, conversion in flight, reduction, summaries, poison, and the
mover's registers.
-/
namespace Sys2Proof.Machine

/-- One destination element of a COPY: its index in the copy shape (the element count for padding, R147), where it is read
from (none: a skipped or padding element, written as zero), its place in the destination and its logical index there. -/
structure Item where
  k : Nat
  src : Option (Int × Nat) := none
  off : Int
  sidx : Nat := 0
  pos : Nat := 0
  n : Option Nat := none
  row : Nat := 0
  col : Nat := 0
  deriving DecidableEq, Repr

/-- Coordinates of the indexed tensor: entry −1 skips (R135). -/
def indexedAt (t : TDesc) (idx : List Int) (cs : List Nat) : Option (List Nat) :=
  if ¬t.indexed then some cs
  else
    let v := idx.getD (cs.getD t.gdim 0) (-1)
    if v < 0 then none else some (setAt cs t.gdim v.toNat)

/-- The source's coordinates of a copy-shape position (R134). -/
def unpermute (dst : TDesc) (rank : Nat) (cs : List Nat) : List Nat :=
  if dst.permEn then (rangeFrom 0 rank).map fun j => cs.getD (dst.perm.idxOf j) 0 else cs

def placeOf (t : TDesc) (cs : List Nat) : Option (Int × Nat) :=
  some (t.off cs, if t.blk = 0 then 0 else (t.scalePos cs).1)

def itemAt (dst : TDesc) (k : Nat) (src : Option (Int × Nat)) (n : Option Nat) (dc : List Nat) : Item :=
  let sp := if dst.blk = 0 then (0, 0) else dst.scalePos dc
  let rc := dst.sumPos dc
  { k := k, src := src, off := dst.off dc, sidx := sp.1, pos := sp.2, n := n, row := rc.1, col := rc.2 }

/-- The elements a COPY writes, in the order of the copy shape (R133 to R137). -/
def copyItems (src dst : TDesc) (sidx didx : List Int) : List Item :=
  let dims := copyShape src dst
  (rangeFrom 0 (product dims)).filterMap fun k =>
    let cs := coordsOf dims k
    (indexedAt dst didx cs).map fun dc =>
      itemAt dst k ((indexedAt src sidx (unpermute dst src.rank cs)).bind (placeOf src)) (some (rowMajor dst.ext dc)) dc

/-- The padding of a blocked destination (R130). -/
def paddingItems (dst : TDesc) (count : Nat) : List Item :=
  if ¬dst.blocked then []
  else
    let dims := dst.padC :: dst.padR :: dst.ext.drop 2
    (rangeFrom 0 (product dims)).filterMap fun k =>
      let dc := coordsOf dims k
      if dc.getD 0 0 < dst.ext.getD 0 0 ∧ dc.getD 1 0 < dst.ext.getD 1 0 then none
      else some (itemAt dst count none none dc)

/-! ### Output bytes -/

/-- Destination bytes by address: value and mask of the bits written; sectors to poison; the bit addresses of the elements derived from
poisoned words (R145); numeric flags. -/
structure Out where
  bytes : Tab (Nat × Nat) := []
  poison : List Nat := []
  derived : List Int := []
  flags : BitVec 4 := 0
  deriving DecidableEq, Repr

/-- One byte's bits replaced. -/
def outByte (a v m : Nat) (o : Out) : Out :=
  { o with bytes := tabMod (0, 0) o.bytes a fun e => (e.1 - (e.1 &&& m) + v, e.2 ||| m) }

/-- `w` bits of a code at bit address `b`. -/
def outBits (b : Int) (w code : Nat) (poison : Bool) (o : Out) : Out :=
  let sh := (b % 8).toNat
  let a := (b / 8).toNat
  let n := ceilDiv (sh + w) 8
  let v := code % 2 ^ w * 2 ^ sh
  let m := (2 ^ w - 1) * 2 ^ sh
  let o := iter (fun i o => outByte (a + i) (v / 2 ^ (8 * i) % 256) (m / 2 ^ (8 * i) % 256) o) 0 n o
  if poison then { o with poison := unitsOf 64 a n ++ o.poison } else o

/-- An element's code and its side value (anchor entry or scale) written. -/
def outElem (t : TDesc) (i : Item) (code side : Nat) (poison : Bool) (o : Out) : Out :=
  let o := outBits (t.bitAddr i.off) t.width code poison o
  let o := if poison then { o with derived := t.bitAddr i.off :: o.derived } else o
  if t.w128 then outBits (8 * ((t.scale : Int) + 2 * i.off)) 16 side poison o
  else if t.blk = 0 then o
  else outBits (8 * ((t.scale + i.sidx : Nat) : Int)) 8 side poison o

/-- The code that stands at an element of the output. -/
def outCode (o : Out) (b : Int) (w : Nat) : Nat :=
  let a := (b / 8).toNat
  leNat ((rangeFrom a (ceilDiv ((b % 8).toNat + w) 8)).map fun k => BitVec.ofNat 8 (tabGet (0, 0) o.bytes k).1)
    / 2 ^ (b % 8).toNat % 2 ^ w

/-! ### Elements copied unchanged (R139) -/

/-- The source place of an item, and its position in its scale block. -/
def srcBlockPos (src : TDesc) (idx : List Int) (dst : TDesc) (k : Nat) : Option (Nat × Nat) :=
  (indexedAt src idx (unpermute dst src.rank (coordsOf (copyShape src dst) k))).map src.scalePos

/-- A destination scale block receives one whole source block in order, or skipped positions alone. -/
def blockWhole (src dst : TDesc) (idx : List Int) (l : List Item) : Bool :=
  let at_ := (rangeFrom 0 dst.blk).map fun j => (l.find? fun i => i.pos = j).map fun i => (i.n.isSome, srcBlockPos src idx dst i.k, i.src)
  at_.all (fun e => match e with | some (true, _, none) => true | _ => false)
    || match at_.head? with
      | some (some (_, some (b, _), some _)) =>
        (List.zip (rangeFrom 0 dst.blk) at_).all fun e => match e.2 with
          | some (true, some (b', j), some _) => b' = b && j = e.1
          | _ => false
      | _ => false

/-- Items grouped by destination scale block. -/
def byBlock (l : List Item) : List (Nat × List Item) :=
  (l.map (·.sidx)).eraseDups.map fun b => (b, (l.filter fun i => i.sidx = b).reverse)

/-- Codes, scales and anchors are copied unchanged (R139). -/
def rawCopy (src dst : TDesc) (idx : List Int) (items : List Item) : Bool :=
  src.fmt = dst.fmt && src.sblk = dst.sblk && !dst.reduce
    && (dst.blk = 0 || (byBlock items).all fun g => g.2.all (·.n.isNone) || blockWhole src dst idx g.2)

/-! ### Conversion (R139, R140) -/

/-- What a COPY finds at an element: a fault there, by its index in the copy shape. -/
abbrev AtElem := Nat × SideFlt

/-- The value an item carries, with poison; zero for skipped and padding elements. -/
def itemVal (s : State) (x : Cmd) (src : TDesc) (i : Item) : Val × Bool :=
  match i.src with
  | none => (valZero, false)
  | some (off, sx) =>
    match elemRead s x src off sx with
    | none => (valZero, false)
    | some e =>
      if src.w128 then (match entryAcc (BitVec.ofNat 128 e.code) (BitVec.ofNat 16 e.side) with
        | none => valZero | some c => accVal c, e.poison)
      else ((elemVal src e).getD valZero, e.poison)

/-- An item of an unscaled destination converted. -/
def convItem (s : State) (x : Cmd) (rd : Rnd) (src dst : TDesc) (o : Out) (i : Item) : Out :=
  let (v, p) := itemVal s x src i
  let (code, g) := encodeVal dst.fmt rd (i.n.getD 0) v
  let o := outElem dst i code 0 p o
  { o with flags := o.flags ||| g ||| (if valIsNan v then flagNanIn else 0) }

/-- The member of a destination block that a COPY leaves: its place and logical index (R140). -/
def keptItem (dst : TDesc) (b j k : Nat) : Item :=
  let n := b * dst.blk + j
  { itemAt dst k none (some n) (coordsOf dst.ext n) with k := k }

/-- The members of a destination block in order: an item written, or one read back, whose faults are reported at the lowest index written
in the block, on the destination's side (log 152). -/
def blockMembers (dst : TDesc) (g : Nat × List Item) : List (Bool × Item) :=
  let k := g.2.foldl (fun m i => Nat.min m i.k) ((g.2.head?.map (·.k)).getD 0)
  (rangeFrom 0 dst.blk).map fun j =>
    match g.2.find? fun i => i.pos = j with
    | some i => (true, i)
    | none => (false, keptItem dst g.1 j k)

/-- A member's value: as converted, or as decoded with the block's present scale. -/
def memberVal (s : State) (x : Cmd) (src dst : TDesc) (m : Bool × Item) : Val × Bool :=
  if m.1 then itemVal s x src m.2
  else match elemRead s x dst m.2.off m.2.sidx with
    | none => (valZero, false)
    | some e => ((elemVal dst e).getD valZero, e.poison)

/-- A destination scale block encoded (R62, R140). -/
def convBlock (s : State) (x : Cmd) (rd : Rnd) (src dst : TDesc) (o : Out) (g : Nat × List Item) : Out :=
  let ms := blockMembers dst g
  let vs := ms.map (memberVal s x src dst)
  let poison := vs.any (·.2)
  let (sc, codes, flags) := encodeBlock dst.fmt rd (fun j => ((ms[j]?.bind fun m => m.2.n)).getD 0) (vs.map (·.1))
  let o := (List.zip ms codes).foldl (fun o e => outElem dst e.1.2 e.2 sc poison o) o
  { o with flags := o.flags ||| flags ||| (if vs.any fun v => valIsNan v.1 then flagNanIn else 0) }

/-! ### Reduction (R138) -/

/-- A destination entry so far, by logical index. -/
structure Reduced where
  accs : Tab Acc := []
  flags : BitVec 4 := 0
  fault : Option AtElem := none
  deriving DecidableEq, Repr

def accNan (c : Acc) : Bool := c.nan || (c.pinf && c.ninf)

/-- Every address of a destination element may be written. -/
def dstWriteOk (s : State) (x : Cmd) (dst : TDesc) (i : Item) : Bool :=
  match spansNat (dst.spans i.off i.sidx) with
  | none => false
  | some l => l.all fun e => spWriteOk s x dst e.1 e.2

/-- Both address checks of an element hold; one that fails a check reads nothing (R10). -/
def itemReads (s : State) (x : Cmd) (src dst : TDesc) (i : Item) : Bool :=
  dstWriteOk s x dst i && (match i.src with | none => true | some e => (elemRead s x src e.1 e.2).isSome)

/-- One source element added to its destination entry (R55, R57, R533). -/
def reduceItem (s : State) (x : Cmd) (src dst : TDesc) (z : Reduced) (i : Item) : Reduced :=
  match z.fault, (if itemReads s x src dst i then i.n else none) with
  | none, some n =>
    let bad := fun (side : Nat) => { z with fault := some (i.k, side, .formatFault, 0x112) }
    let now : Option Acc :=
      match z.accs.find? (fun e => e.1 = n) with
      | some e => some e.2
      | none =>
        match elemRead s x dst i.off i.sidx with
        | none => some { anc := .empty }
        | some e => (entryAcc (BitVec.ofNat 128 e.code) (BitVec.ofNat 16 e.side)).map fun c => { c with poison := e.poison }
    match now with
    | none => bad 1
    | some c =>
      let sum : Option Acc × Bool × Nat :=
        match i.src with
        | none => (entryAdd c { anc := .empty }, false, 1)
        | some (off, sx) =>
          match elemRead s x src off sx with
          | none => (some c, false, 0)
          | some e =>
            if src.w128 then
              match entryAcc (BitVec.ofNat 128 e.code) (BitVec.ofNat 16 e.side) with
              | none => (none, false, 0)
              | some d => (entryAdd c { d with poison := e.poison }, accNan d, 3)
            else
              let v := (elemVal src e).getD valZero
              (entryTerm { c with poison := c.poison || e.poison } v, valIsNan v, 1)
      match sum with
      | (none, _, side) => bad side
      | (some d, nan, _) =>
        { z with
          accs := tabPut z.accs n d
          flags := z.flags ||| nanFlags (nan || accNan c) (accVal d) }
  | _, _ => z

def reduceAll (s : State) (x : Cmd) (src dst : TDesc) (items : List Item) : Reduced :=
  items.foldl (reduceItem s x src dst) {}

/-! ### Faults at elements (R147) -/

/-- The fault at one element, the reduction's own apart: those of its data only where its addresses stand. -/
def itemFault (s : State) (x : Cmd) (src dst : TDesc) (raw : Bool) (i : Item) : Option AtElem :=
  let rd := i.src.map fun e => elemRead s x src e.1 e.2
  let out := match rd with | some none => true | _ => false
  let open_ := itemReads s x src dst i
  let t2 := match rd with | some (some e) => open_ && src.fmt = .t2 && e.code = 2 | _ => false
  let entry := match rd with
    | some (some e) => open_ && src.w128 && !raw && !dst.reduce
        && (entryAcc (BitVec.ofNat 128 e.code) (BitVec.ofNat 16 e.side)).isNone
    | _ => false
  (firstSided [(entry, 0, .formatFault, 0x110), (t2, 0, .formatFault, 0x111), (out, 0, .boundsFault, 0x130),
    (!dstWriteOk s x dst i, 1, .boundsFault, 0x130)]).map fun f => (i.k, f)

/-- The fault of an element read back for a block written in part (R140). -/
def keptFault (s : State) (x : Cmd) (dst : TDesc) (m : Bool × Item) : Option AtElem :=
  if m.1 then none
  else match elemRead s x dst m.2.off m.2.sidx with
    | none => some (m.2.k, 1, .boundsFault, 0x130)
    | some e => if (elemVal dst e).isNone then some (m.2.k, 1, .formatFault, 0x111) else none

/-- The fault at the lowest index, R10 deciding at one index. -/
def lowestFault (l : List AtElem) : Option AtElem :=
  l.foldl (fun b e =>
    match b with
    | none => some e
    | some y => if e.1 < y.1 ∨ (e.1 = y.1 ∧ statusRank e.2.2.1 < statusRank y.2.2.1) then some e else b) none

/-- What a checked COPY does: its fault, or its output, with the lowest poisoned element; `kept` are the members of destination blocks
that it reads back (R140). -/
structure Plan where
  kept : List Item := []
  fault : Option AtElem := none
  out : Out := {}
  poisonAt : Option Nat := none

def itemPoison (s : State) (x : Cmd) (t : TDesc) (e : Int × Nat) : Bool :=
  match elemRead s x t e.1 e.2 with | none => false | some r => r.poison

/-- Whether an element, or the destination data it is combined with, was read poisoned. -/
def itemPoisoned (s : State) (x : Cmd) (src dst : TDesc) (i : Item) : Bool :=
  (match i.src with | none => false | some e => itemPoison s x src e)
    || (dst.reduce && i.n.isSome && itemPoison s x dst (i.off, i.sidx))

def rawItem (s : State) (x : Cmd) (src dst : TDesc) (o : Out) (i : Item) : Out :=
  match i.src.bind fun e => elemRead s x src e.1 e.2 with
  | some e => outElem dst i e.code e.side e.poison o
  | none => outElem dst i 0 (if dst.w128 then 0x400 else 0) false o

/-- The plan of a COPY whose descriptors stand. -/
def copyPlan (s : State) (x : Cmd) (rd : Rnd) (src dst : TDesc) (sidx didx : List Int) : Plan :=
  let items := copyItems src dst sidx didx
  let pad := paddingItems dst (product (copyShape src dst))
  let every := items ++ pad
  let raw := rawCopy src dst sidx every
  let red := if dst.reduce then reduceAll s x src dst items else {}
  let blocks := if dst.reduce ∨ raw ∨ dst.blk = 0 then [] else byBlock every
  let kept := blocks.flatMap fun g => (blockMembers dst g).filter fun m => !m.1
  let faults := every.filterMap (itemFault s x src dst raw) ++ kept.filterMap (keptFault s x dst) ++ red.fault.toList
  let bad := (items.filter (itemPoisoned s x src dst)).map (·.k)
    ++ (kept.filter fun m => itemPoison s x dst (m.2.off, m.2.sidx)).map (·.2.k)
  { kept := kept.map (·.2)
    fault := lowestFault faults
    poisonAt := match bad with | [] => none | k :: l => some (l.foldl Nat.min k)
    out :=
      if dst.reduce then
        let o := items.foldl (fun o i => match i.n with
          | none => o
          | some n =>
            let c := tabGet ({} : Acc) red.accs n
            let e := accEntry c
            outElem dst i e.1.toNat e.2.toNat c.poison o) {}
        { o with flags := red.flags }
      else if raw then every.foldl (rawItem s x src dst) {}
      else if dst.blk = 0 then every.foldl (convItem s x rd src dst) {}
      else blocks.foldl (convBlock s x rd src dst) {} }

/-! ### Summaries (R48, R49, R142) -/

/-- The effective exponent of an item's final value, and whether it is derived from a poisoned word (R145). -/
def itemExp (dst : TDesc) (o : Out) (i : Item) : Option Int × Bool :=
  let code := outCode o (dst.bitAddr i.off) dst.width
  let side := if dst.blk = 0 then 0 else outCode o (8 * ((dst.scale + i.sidx : Nat) : Int)) 8
  ((elemVal dst { code := code, side := side }).bind valExp, o.derived.contains (dst.bitAddr i.off))

/-- A summary's `n` entries at `base`, item i in entry `ix i`. -/
def outSummary (dst : TDesc) (items : List Item) (base n : Nat) (ix : Item → Nat) (o : Out) : Out :=
  let tab : Tab (Option Int × Bool) := items.foldl (fun t i =>
    let (e, p) := itemExp dst o i
    tabMod (none, false) t (ix i) fun y => (maxExp y.1 e, y.2 || p)) []
  iter (fun k o =>
    let (e, p) := tabGet (none, false) tab k
    outBits (8 * ((base + 2 * k : Nat) : Int)) 16 (e16Of e).toNat p o) 0 n o

def outSummaries (dst : TDesc) (items : List Item) (o : Out) : Out :=
  let cb := ceilDiv dst.sumCols 64
  let rb := ceilDiv dst.sumRows 64
  let r := fun (z : Out) => if dst.emitR then
    outSummary dst items dst.rsum (dst.sumRows * cb) (fun i => i.row * cb + i.col / 64) z else z
  let c := fun (z : Out) => if dst.emitC then
    outSummary dst items dst.csum (dst.sumCols * rb) (fun i => i.col * rb + i.row / 64) z else z
  let o1 := r o
  let o2 := c o
  { o1 with bytes := o2.bytes.foldl (fun t e => tabPut t e.1 e.2) o1.bytes, poison := o1.poison ++ o2.poison }

/-! ### Writing -/

/-- Contiguous runs of bytes by address. -/
def runsOfBytes : List (Nat × Byte) → List (Nat × List Byte)
  | [] => []
  | (a, b) :: t =>
    match runsOfBytes t with
    | (a', bs) :: rest => if a' = a + 1 then (a, b :: bs) :: rest else (a, [b]) :: (a', bs) :: rest
    | [] => [(a, [b])]

/-- The output's bytes, those written in part merged with what stands there. -/
def outRuns (s : State) (x : Cmd) (dst : TDesc) (o : Out) : List (Nat × List Byte) :=
  runsOfBytes (o.bytes.map fun e =>
    let old := if e.2.2 = 255 then 0 else leNat (spRead s x dst e.1 1).2.1
    let v : Byte := BitVec.ofNat 8 (old - (old &&& e.2.2) + e.2.1)
    (e.1, if dst.space = 4 && !o.poison.isEmpty then Config.freeByte s.freeCtr e.1 else v))

/-- Runs whose host segments a partial write cannot authenticate (R348, R349). -/
def hostRefused (s : State) (x : Cmd) (dst : TDesc) (runs : List (Nat × List Byte)) : Bool :=
  dst.space = 4 && runs.any fun e => !hostPutOk s x.fn e.1 e.2.length

/-- The lowest element that lies in a segment so refused (R342); 0 where only summaries do. -/
def refusedAt (s : State) (x : Cmd) (dst : TDesc) (items : List Item) (runs : List (Nat × List Byte)) : Nat :=
  let bad := runs.flatMap fun e => hostPutBad s x.fn e.1 e.2.length
  let hits := items.filter fun i => (dst.spans i.off i.sidx).any fun e =>
    bad.any fun b => decide (e.1 < ((b + 4096 : Nat) : Int) ∧ (b : Int) < e.1 + (e.2 : Int))
  match hits.map (·.k) with | [] => 0 | k :: l => l.foldl Nat.min k

/-- The output of a COPY stored, and its poisoned sectors marked (R144, R145). -/
def storeOut (x : Cmd) (dst : TDesc) (o : Out) (s : State) : State :=
  let runs := outRuns s x dst o
  let s := foldState runs (fun e s => spWrite x dst e.1 e.2 s) { s with freeCtr := s.freeCtr + 1 }
  foldState o.poison.eraseDups (spPoison x dst) s

/-- After a fault at an element every destination byte the COPY could have written is unspecified (R147). -/
def scatterFree (x : Cmd) (dst : TDesc) (items : List Item) (s : State) : State :=
  let spans := (items.filterMap fun i => spansNat (dst.spans i.off i.sidx)).flatten
    ++ (if dst.emitR then [(dst.rsum, dst.rsumBytes)] else []) ++ (if dst.emitC then [(dst.csum, dst.csumBytes)] else [])
  let l := spans.filter fun e => spWriteOk s x dst e.1 e.2
  let free := s.freeCtr
  foldState l (fun e s => spWrite x dst e.1 ((rangeFrom e.1 e.2).map (Config.freeByte free)) s)
    { s with freeCtr := s.freeCtr + 1 }

/-! ### COPY -/

/-- A descriptor fetched: a fault, or what it says (R125, R146, R147, R349). -/
def tdescRead (s : State) (x : Cmd) (host : Bool) (a side : Nat) : Sum SideFlt TDesc :=
  let (ok, bs, bad) := bodyGet s x host a 128
  if a % 64 ≠ 0 then .inl (side, .alignFault, 0x120)
  else if ¬ok then .inl (side, .boundsFault, 0x132)
  else if bad then .inl (side, .poisonConsumed, if host then 0x650 else 0x140)
  else .inr (tdescOf bs)

/-- The fault found before any access to data (R10, R147): that of the highest rank over both descriptors, the pair, the index tensor
and the want of a mover (R123). -/
def copyCheck (s : State) (x : Cmd) (a b : Sum SideFlt TDesc) : Option SideFlt :=
  let one := fun (side : Nat) (d : Sum SideFlt TDesc) => match d with
    | .inl f => [(true, f)]
    | .inr t => tdescFaults s x side t
  let single := one 0 a ++ one 1 b
  match firstSided single with
  | some (side, .descFault, cause) => some (side, .descFault, cause)
  | _ =>
    let pair := match a, b with | .inr src, .inr dst => pairChecks src dst | _, _ => []
    let index := fun (d : Sum SideFlt TDesc) => match d with | .inl _ => [] | .inr t => indexFaults s x t
    firstSided (single ++ pair ++ index a ++ index b ++ [((chosenMover s).isNone, 3, .unrecovered, 0x150)])

/-- The registers of the COPY's mover at its end (R148): a fault is recorded; an end without one leaves what another COPY recorded. Where no
mover is configured none does the work, so none records (log 150). -/
def noteMover (st : Status) (f : Option SideFlt) (elem bytes : Nat) (s : State) : State :=
  match chosenMover s with
  | none => s
  | some m =>
  let (k, s) := draw s
  modMover m (fun y => { y with
    lastStatus := BitVec.ofNat 8 (statusCode st)
    faultStatus := (f.map fun e => BitVec.ofNat 8 (statusCode e.2.1)).getD y.faultStatus
    faultSide := (f.map (·.1)).getD y.faultSide
    faultCause := (f.map fun e => BitVec.ofNat 12 e.2.2).getD y.faultCause
    faultElem := (f.map fun _ => BitVec.ofNat 64 elem).getD y.faultElem
    bytes := y.bytes + BitVec.ofNat 64 bytes
    cycles := satAdd 64 y.cycles k }) s

/-- A COPY ends with a failure at an element. -/
def failCopy (c : Nat) (f : SideFlt) (elem bytes : Nat) (flags : BitVec 4) (s : State) : State :=
  finish c f.2.1 f.2.2 elem 0 flags (noteMover f.2.1 (some f) elem bytes s)

/-- Byte ranges that a COPY reads of a tensor. -/
def readSpans (t : TDesc) (l : List (Int × Nat)) : List (Nat × Nat) := (l.filterMap fun e => spansNat (t.spans e.1 e.2)).flatten

/-- The reads of a COPY's data take effect on the memories (R196, R206). -/
def noteReads (x : Cmd) (src dst : TDesc) (items kept : List Item) (s : State) : State :=
  let s := spNote x src (readSpans src (items.filterMap (·.src))) s
  let back := if dst.reduce then items else kept
  if back.isEmpty then s else spNote x dst (readSpans dst (back.map fun i => (i.off, i.sidx))) s

/-- The first element whose write passes through a far port that is down (R215). -/
def deadWrite (s : State) (x : Cmd) (dst : TDesc) (items : List Item) (o : Out) : Option Nat :=
  let p := homeOf s x.fn
  let dead := fun (a : Nat) => farDead s (farAddr s p a)
  if dst.space ≠ 3 then none
  else match items.find? fun i => (dst.spans i.off i.sidx).any fun e => dead e.1.toNat with
    | some i => some i.k
    | none => if o.bytes.any fun e => dead e.1 then some 0 else none

/-- The records of the far ports that are down and that a COPY writes through: a command completed with UNRECOVERED (R459). -/
def noteDeadPorts (x : Cmd) (dst : TDesc) (items : List Item) (o : Out) (s : State) : State :=
  let p := homeOf s x.fn
  let on := fun (q : Nat) (a : Nat) => farPortAt s (farAddr s p a) = q
  let hits := [0, 1].filter fun q => (farPortOf s q).dead
    && ((items.any fun i => (dst.spans i.off i.sidx).any fun e => on q e.1.toNat) || o.bytes.any fun e => on q e.1)
  foldState hits (fun q s => settleFarRecord q outUnrecovered s) s

/-- A COPY whose far writes fail (R215): UNRECOVERED, its destination unspecified; the spec names no cause, so it is a free
value. -/
def farFailed (c k : Nat) (x : Cmd) (dst : TDesc) (every : List Item) (flags : BitVec 4) (s : State) : State :=
  let (n, s) := draw s
  failCopy c (1, .unrecovered, n % 4096) k 0 flags (scatterFree x dst every s)

/-- A descriptor's index tensor read (R135, R147). -/
def noteIndex (x : Cmd) (d : Sum SideFlt TDesc) (s : State) : State :=
  match d with
  | .inl _ => s
  | .inr t => if t.indexed then spNote x (indexDesc t) [(t.idxAddr, 4 * t.nidx)] s else s

/-- What the checks of a COPY read beside its descriptors (R147, R196): its index tensors, unless a descriptor ends it before. -/
def noteIndexes (x : Cmd) (a b : Sum SideFlt TDesc) (st : Status) (s : State) : State :=
  if st = .descFault then s else noteIndex x b (noteIndex x a s)

/-- A COPY whose checks pass, its index entries read at its start. MOV_BYTES counts none of the bytes of one that an element's fault ends:
which it wrote before it is not stated (log 151). -/
def runCopy (c : Nat) (x : Cmd) (src dst : TDesc) (sidx didx : List Int) (s : State) : State :=
  let rd : Rnd := { mode := roundMode x, seed := field x 24 8, stream := field x 32 8 }
  let plan := copyPlan s x rd src dst sidx didx
  let items := copyItems src dst sidx didx
  let every := items ++ paddingItems dst (product (copyShape src dst))
  let s1 := noteReads x src dst items plan.kept s
  match plan.fault with
  | some (k, f) => failCopy c f k 0 plan.out.flags (scatterFree x dst (every ++ plan.kept) s1)
  | none =>
    let out := outSummaries dst every plan.out
    match deadWrite s x dst items out with
    | some k => farFailed c k x dst (every ++ plan.kept) plan.out.flags (noteDeadPorts x dst items out s1)
    | none =>
    let refused := hostRefused s x dst (outRuns s x dst out)
    let s2 := storeOut x dst out s1
    match plan.poisonAt, refused with
    | some k, _ =>
      let side := if (items.filter (·.k = k)).any (fun i => match i.src with | none => false | some e => itemPoison s x src e) then 0 else 1
      let host := (if side = 0 then src.space else dst.space) = 4
      failCopy c (side, .poisonConsumed, if host then 0x650 else 0x140) k out.bytes.length out.flags s2
    | none, true =>
      failCopy c (1, .poisonConsumed, 0x650) (refusedAt s x dst items (outRuns s x dst out)) out.bytes.length out.flags s2
    | none, false =>
      finish c .ok 0 out.bytes.length 0 out.flags (noteMover (okStatus x.replayed .ok) none 0 out.bytes.length s2)

/-- The ranges of device memory that the start of a COPY reads (R159): its descriptors and its index tensors. -/
def copyStartTouches (s : State) (x : Cmd) : List (Nat × Nat) :=
  let modes := field x 40 1
  let own := fun (host : Bool) (a : Nat) =>
    let t := tdescOf (bodyGet s x host a 128).2.1
    (if host then [] else [(a, 128)]) ++ if t.indexed ∧ ¬t.istaging then [(t.idxAddr, 4 * t.nidx)] else []
  own (bit modes 3) (field x 8 8) ++ own (bit modes 4) (field x 16 8)

/-- The ranges of one space that the data of a COPY touches (R201, R215, R239). -/
def copyTouches (space : Nat) (src dst : TDesc) (sidx didx : List Int) : List (Nat × Nat) :=
  let items := copyItems src dst sidx didx ++ paddingItems dst (product (copyShape src dst))
  (if src.space = space then readSpans src (items.filterMap (·.src)) else [])
    ++ (if dst.space = space then readSpans dst (items.map fun i => (i.off, i.sidx))
        ++ (if dst.emitR then [(dst.rsum, dst.rsumBytes)] else []) ++ (if dst.emitC then [(dst.csum, dst.csumBytes)] else []) else [])

/-- The data of a COPY whose descriptors and index entries have been read (R159). -/
def copyData (c : Nat) (x : Cmd) (y : Fetched) (s : State) : State :=
  let src := tdescOf y.src
  let dst := tdescOf y.dst
  if (chosenMover s).isNone then failCopy c (3, .unrecovered, 0x150) 0 0 0 s
  else if hostHeld s x.fn (src.space = 4 || dst.space = 4) then notTaken s
  else withAccess (2 * c) (homeOf s x.fn) (copyTouches 2 src dst y.sidx y.didx) (copyTouches 3 src dst y.sidx y.didx)
    (runCopy c x src dst y.sidx y.didx) s

/-- The index entries of a descriptor, where it has an index tensor. -/
def indexList (s : State) (x : Cmd) (t : TDesc) : List Int := if t.indexed then (indexRead s x t).2.1 else []

/-- The start of a COPY (R147, R159): its descriptors and index tensors read once and checked, then its data as far as it can go. -/
def copyStart (c : Nat) (x : Cmd) (s : State) : State :=
  let modes := field x 40 1
  let a := tdescRead s x (bit modes 3) (field x 8 8) 0
  let b := tdescRead s x (bit modes 4) (field x 16 8) 1
  let s' := bodyNote x (bit modes 3) (field x 8 8) 128 (bodyNote x (bit modes 4) (field x 16 8) 128 s)
  match copyCheck s x a b, a, b with
  | some f, _, _ => failCopy c f 0 0 0 (noteIndexes x a b f.2.1 s')
  | none, .inr src, .inr dst =>
    let y : Fetched := { src := (bodyGet s x (bit modes 3) (field x 8 8) 128).2.1, dst := (bodyGet s x (bit modes 4) (field x 16 8) 128).2.1
                         sidx := indexList s x src, didx := indexList s x dst }
    goOn (fun s => copyData c (cmdOf s c) y s) (modCmd c (fun x => { x with fetched := some y }) (noteIndexes x a b .ok s'))
  | none, _, _ => s'

def copyEffect (c : Nat) (s : State) : State :=
  let x := cmdOf s c
  if ¬classReady s c 0x01 then notTaken s
  else match x.fetched with
    | some y => copyData c x y s
    | none => if hostHeld s x.fn (bit (field x 40 1) 3 || bit (field x 40 1) 4) then notTaken s else withAccess (2 * c) (homeOf s x.fn) (copyStartTouches s x) [] (copyStart c x) s

/-- COPY (R125 to R148): one source tensor written to one destination tensor. -/
def execCopy (c : Nat) (s : State) : Host.Outcome State Fault Refusal := take (.copy c) s (copyEffect c)

end Sys2Proof.Machine
end

