-- ==== Sys2Proof/Machine/KvOps.lean ====
section
/-!
DEFINITION. Sequence records, page lists and frames (R253 to R268): what every KV command reads, checks, takes and releases,
over a working copy of the state that a failing command drops (R268).
-/
namespace Sys2Proof.Machine

/-- A fault of a KV command with the place R278 reports: list, entry, and whether it is a SPEC entry. -/
structure KvFlt where
  st : Status
  cause : Nat
  list : Nat := 0
  entry : Nat := 0
  spec : Bool := false
  deriving DecidableEq, Repr

/-- A KV command at work: the state as it would leave it, the faults its checks meet and those its copies meet, the frames it
wants, what its checks have read of device memory, what its copies read there, in far memory and inside banks, and the ranges of
device memory and of far memory that a mover writes for them with the bytes it moves. -/
structure Kv where
  s : State
  p : Nat
  fn : Nat
  errs : List KvFlt := []
  copyErrs : List KvFlt := []
  want : Nat := 0
  reads : List (Nat × Nat) := []
  copyReads : List (Nat × Nat) := []
  farReads : List (Nat × Nat) := []
  bankReads : List (Nat × Nat) := []
  writes : List (Nat × Nat) := []
  farWrites : List (Nat × Nat) := []
  moved : Nat := 0

def kvErr (st : Status) (cause list entry : Nat) (spec : Bool) (z : Kv) : Kv :=
  { z with errs := z.errs ++ [⟨st, cause, list, entry, spec⟩] }

/-- A fault met in a copy, after every check has passed (R268). -/
def kvCopyErr (st : Status) (cause list entry : Nat) (z : Kv) : Kv :=
  { z with copyErrs := z.copyErrs ++ [⟨st, cause, list, entry, false⟩] }

def kvCheck (bad : Bool) (st : Status) (cause list entry : Nat) (z : Kv) : Kv :=
  if bad then kvErr st cause list entry false z else z

/-- The order of R278: R10, then list, then entry. SPEC entries count after the page list's, and of two faults at one entry the lower
cause goes first (log 156). -/
def kvKey (e : KvFlt) : Nat :=
  statusRank e.st * 2 ^ 60 + e.list * 2 ^ 36 + (b01 e.spec * 2 ^ 17 + e.entry) * 2 ^ 14 + e.cause

def kvWorst : List KvFlt → Option KvFlt
  | [] => none
  | e :: t => match kvWorst t with
    | none => some e
    | some f => if kvKey f < kvKey e then some f else some e

/-- The fault that ends a command: of its checks, and only when they all pass of its copies (R268). -/
def kvFault (z : Kv) : Option KvFlt := match kvWorst z.errs with | some e => some e | none => kvWorst z.copyErrs

/-- Bytes of device memory read: their contents, and poison. -/
def kvGet (a n : Nat) (z : Kv) : (List Byte × Bool) × Kv := (devGet z.s z.p a n, { z with reads := z.reads ++ [(a, n)] })

/-- The reads of a command's copies take effect on the memories. -/
def kvCopyNote (z : Kv) (s : State) : State :=
  let s := foldState z.bankReads (fun e s => devReport z.p e.1 e.2 s) s
  let s := foldState z.copyReads (fun e s => devNote z.p e.1 e.2 s) s
  noteMoved z.moved (foldState z.farReads (fun e s => farNote z.p e.1 e.2 s) s)

/-- The reads of a command take effect on the memories, its checks' being the runtime's own (R31); a command that a check ends makes no
copy (R268). -/
def kvNote (z : Kv) (s : State) : State :=
  let s := runtimeRead z.p z.reads (foldState z.reads (fun e s => devNote z.p e.1 e.2 s) s)
  if z.errs = [] then kvCopyNote z s else s

/-! ### Sequence records (R262, R263) -/

structure KvRec where
  addr : Nat
  seq : Nat
  kvlen : Nat
  cap : Nat
  layers : Nat
  heads : Nat
  dim : Nat
  fmt : Fmt
  sblk : Nat
  spillEn : Bool
  verifies : Nat
  accepted : Nat
  lastPath : Nat
  spill : Nat
  reserved : Bool
  deriving DecidableEq, Repr

def recOf (a : Nat) (bs : List Byte) : KvRec :=
  let n := leNat bs
  { addr := a, seq := bits n 0 32, kvlen := bits n 32 32, cap := bits n 64 32, layers := bits n 96 16
    heads := bits n 112 16, dim := bits n 128 16, fmt := fmtOf (bits n 144 4), sblk := bits n 148 2
    spillEn := bit n 152, verifies := bits n 160 32, accepted := bits n 192 32, lastPath := bits n 224 8
    spill := bits n 256 64
    reserved := bits n 150 2 != 0 || bits n 153 7 != 0 || bits n 232 24 != 0 || bits n 320 192 != 0 }

/-- Lists of a record. -/
def KvRec.lists (r : KvRec) : Nat := r.layers * r.heads
/-- Bytes of a K or V row (R253), of its scales, and U. -/
def KvRec.rb (r : KvRec) : Nat := r.dim * fmtWidth r.fmt / 8
def KvRec.sb (r : KvRec) : Nat := if sblkSize r.sblk = 0 then 0 else r.dim / sblkSize r.sblk
def KvRec.u (r : KvRec) : Nat := 64 * r.rb + 64 * r.sb
def KvRec.size (r : KvRec) : Nat := 64 + 4 * r.cap * r.lists + 8 * r.lists
/-- Entries that hold committed positions (R264). -/
def KvRec.used (r : KvRec) : Nat := ceilDiv r.kvlen 32

/-- The element formats of R254. -/
def kvFmtOk (f : Fmt) (sblk : Nat) : Bool :=
  (f = .bf16 || f = .f16 || f = .f8e4 || f = .f8e5 || f = .f6e3 || f = .f6e2 || f = .f4 || f = .i8 || f = .i4)
    && (sblk = 0 || fmtScalable f)

/-- The frame layout meets R254 on D, RB and U. -/
def kvLayoutOk (r : KvRec) : Bool :=
  (r.sblk = 0 || r.dim % sblkSize r.sblk = 0) && r.dim * fmtWidth r.fmt % 512 = 0 && decide (r.u ≤ 16384)

/-- A malformed header (R262, cause 0x301). -/
def kvHeaderBad (r : KvRec) : Bool :=
  r.reserved || decide (r.cap < 1 ∨ 65536 < r.cap ∨ r.layers < 1 ∨ 1024 < r.layers ∨ r.heads < 1 ∨ 256 < r.heads
    ∨ r.dim < 1 ∨ 1024 < r.dim ∨ 16 < r.lastPath ∨ r.cap < r.used) || !kvLayoutOk r

/-- The header of a record that can be judged (R10): read clean and well formed, whether or not its lists can be read. -/
def kvHeader (a : Nat) (z : Kv) : Option KvRec :=
  if a % 64 ≠ 0 ∨ ¬devOk z.s z.p a 64 then none
  else
    let g := devGet z.s z.p a 64
    if g.2 ∨ kvHeaderBad (recOf a g.1) then none else some (recOf a g.1)

/-- A record named by a KV command, with the checks of R262, R254 and R268. A header that is well formed is read further even
where its format or its image area breaks a rule, for the faults that R10 ranks before that. -/
def kvOpen (a : Nat) (z : Kv) : Option KvRec × Kv :=
  if a % 64 ≠ 0 then (none, kvErr .alignFault 0x320 0 0 false z)
  else if ¬devOk z.s z.p a 64 then (none, kvErr .boundsFault 0x334 0 0 false z)
  else
    let (g, z) := kvGet a 64 z
    if g.2 then (none, kvErr .poisonConsumed 0x350 0 0 false z)
    else
      let r := recOf a g.1
      let z := kvCheck (kvHeaderBad r) .descFault 0x301 0 0 z
      let z := kvCheck (!kvFmtOk r.fmt r.sblk) .formatFault 0x310 0 0 z
      let z := kvCheck (r.spill % 16384 != 0) .alignFault 0x320 0 0 z
      let z := kvCheck (!kvHeaderBad r && !devOk z.s z.p a r.size) .boundsFault 0x334 0 0 z
      (if !kvHeaderBad r && devOk z.s z.p a r.size then some r else none, z)

def pageAt (r : KvRec) (l j : Nat) : Nat := r.addr + 64 + 4 * r.cap * l + 4 * j
def specAt (r : KvRec) (l i : Nat) : Nat := r.addr + 64 + 4 * r.cap * r.lists + 8 * l + 4 * i
def entryAddr (r : KvRec) (l j : Nat) (spec : Bool) : Nat := if spec then specAt r l j else pageAt r l j

/-- A page-list or SPEC entry read (R263). -/
def kvEntry (r : KvRec) (l j : Nat) (spec : Bool) (z : Kv) : Option Int × Kv :=
  let (g, z) := kvGet (entryAddr r l j spec) 4 z
  if g.2 then (none, kvErr .poisonConsumed 0x350 l j spec z)
  else
    let v := signed 32 (leNat g.1)
    if v < -2 then (none, kvErr .descFault 0x305 l j spec z) else (some v, z)

/-- An entry written. -/
def kvSetEntry (r : KvRec) (l j : Nat) (spec : Bool) (v : Int) (z : Kv) : Kv :=
  { z with s := devPut z.p (entryAddr r l j spec) (natLe 4 (unsigned 32 v)) z.s }

/-- A header field of `n` bytes at offset `o` written. -/
def kvSetHeader (r : KvRec) (o n v : Nat) (z : Kv) : Kv := { z with s := devPut z.p (r.addr + o) (natLe n v) z.s }

/-! ### Frames (R255 to R261) -/

/-- The frame that a RESIDENT value names, in a chunk held with KV = 1 (R263). -/
def frameNum (s : State) (p : Nat) (v : Nat) : Option Nat :=
  match chunkOf s p (v / 128) with
  | none => none
  | some e => if e.kv then some (4096 * (e.pchunk % 4096) + 128 * (e.pchunk / 4096) + v % 128) else none

/-- The frame of an entry that the command names, HELD by its partition and function (R268). -/
def kvFrame (l j : Nat) (spec : Bool) (v : Int) (z : Kv) : Option Nat × Kv :=
  match frameNum z.s z.p v.toNat with
  | none => (none, kvErr .boundsFault 0x331 l j spec z)
  | some n =>
    let x := frameOf z.s n
    if x.state = .held ∧ x.owner = z.p ∧ x.vf = z.fn then (some n, z) else (none, kvErr .boundsFault 0x331 l j spec z)

/-- The page-list value of an eligible frame f of bank g for partition p (R259). -/
def eligible (s : State) (p g f : Nat) : Option Nat :=
  let n := g * 4096 + f
  let x := frameOf s n
  if x.state = .free ∧ ¬x.retired ∧ frameExists s n then
    (findFrom (fun c => match chunkOf s p c with
      | some e => e.kv && e.pchunk = 4096 * (f / 128) + g
      | none => false) 0 (partOf s p).ctCount).map fun c => c * 128 + f % 128
  else none

/-- The lowest-numbered eligible frame of a bank: its number and value. -/
def firstEligible (s : State) (p g : Nat) : Option (Nat × Nat) :=
  match findFrom (fun f => (eligible s p g f).isSome) 0 4096 with
  | none => none
  | some f => (eligible s p g f).map fun v => (g * 4096 + f, v)

/-- A bank has `k` eligible frames. -/
def bankHas (s : State) (p g k : Nat) : Bool := decide (k ≤ ((rangeFrom 0 4096).filter fun f => (eligible s p g f).isSome).length)

/-- A frame taken (R258 to R260): wiped when another function held it last, then HELD with REFCNT 1. -/
def installFrame (r : KvRec) (p fn n : Nat) (x : Frame) (s : State) : State :=
  let old := frameOf s n
  let s := if old.vf = fn then s
    else
      let s := wipeRange (n / 4096) (n % 4096 * 16384) r.u s
      { s with kvt := { s.kvt with wipes := tabMod 0 s.kvt.wipes p fun k => satAdd 32 k 1 } }
  modFrame n (fun y => { x with seq := BitVec.ofNat 32 r.seq, refcnt := 1, vf := fn, owner := p, retired := y.retired
                                state := .held }) s

/-- What STEPs first wrote into the bytes of a frame is forgotten. -/
def dropGold (n : Nat) (s : State) : State :=
  { s with kvt := { s.kvt with gold := tabDrop s.kvt.gold fun k => k / 16384 = n } }

/-- What STEPs first wrote into `k` bytes of frame `a` from offset `o` goes with their copy into frame `b` at `o'`. -/
def copyGold (a o b o' k : Nat) (s : State) : State :=
  let move := fun (i : Nat) (t : Tab (Option Byte)) => tabSet none t (b * 16384 + o' + i) (tabGet none s.kvt.gold (a * 16384 + o + i))
  { s with kvt := { s.kvt with gold := iter move 0 k s.kvt.gold } }

/-- Bytes first written into a frame (R467). -/
def setGold (n o : Nat) (bs : List Byte) (s : State) : State :=
  let put := fun (t : Tab (Option Byte)) (e : Nat × Byte) => tabSet none t e.1 (some e.2)
  { s with kvt := { s.kvt with gold := (List.zip (rangeFrom (n * 16384 + o) bs.length) bs).foldl put s.kvt.gold } }

/-- A frame of bank g taken for entry j of list l: its number and value. -/
def kvTake (r : KvRec) (g l j : Nat) (spec : Bool) (x : Frame) (z : Kv) : Option (Nat × Nat) × Kv :=
  match firstEligible z.s z.p g with
  | none => (none, kvErr .quotaExceeded 0x341 l j spec z)
  | some (n, v) => (some (n, v), { z with s := dropGold n (installFrame r z.p z.fn n x z.s) })

/-- One reference fewer; a frame left with none is FREE (R258). -/
def frameRelease (n : Nat) (s : State) : State :=
  modFrame n (fun x => if x.refcnt ≤ 1 then frameFree x else { x with refcnt := x.refcnt - 1 }) s

/-- TOKENS after a committed write: SPILLED is cleared when it rises (R258). -/
def frameTokens (n t : Nat) (s : State) : State :=
  modFrame n (fun x => { x with tokens := t, spilled := if x.tokens < t then false else x.spilled }) s

/-- The byte ranges in a frame of positions lo to lo + k - 1: K and V rows, then their scales (R253). -/
def rowRanges (r : KvRec) (lo k : Nat) : List (Nat × Nat) :=
  [(lo * r.rb, k * r.rb), (32 * r.rb + lo * r.rb, k * r.rb)]
    ++ (if r.sb = 0 then [] else [(64 * r.rb + lo * r.sb, k * r.sb), (64 * r.rb + 32 * r.sb + lo * r.sb, k * r.sb)])

/-- Work that needs a mover fails when none is configured (R123). -/
def kvMover (needed : Bool) (l j : Nat) (z : Kv) : Kv :=
  if needed && (chosenMover z.s).isNone then kvErr .unrecovered 0x150 l j false z else z

/-- Rows copied from frame value `v` to frame value `w`: by the bank's Clove within a bank, else by a mover (R269, R271). -/
def kvCopyRows (r : KvRec) (l j : Nat) (v w lo lo' k : Nat) (z : Kv) : Kv :=
  let inBank := match frameNum z.s z.p v, frameNum z.s z.p w with | some a, some b => a / 4096 = b / 4096 | _, _ => false
  let z := kvMover (!inBank) l j z
  (List.zip (rowRanges r lo k) (rowRanges r lo' k)).foldl (fun z e =>
    let a := v * 16384 + e.1.1
    let (bs, bad) := devGet z.s z.p a e.1.2
    let z := if bad then kvCopyErr .poisonConsumed 0x350 l j z else z
    let b := w * 16384 + e.2.1
    let s := match frameNum z.s z.p v, frameNum z.s z.p w with
      | some n, some m => copyGold n e.1.1 m e.2.1 e.1.2 z.s
      | _, _ => z.s
    { z with
      s := if inBank then devStore z.p b bs s else devPut z.p b bs s
      copyReads := if inBank then z.copyReads else z.copyReads ++ [(a, e.1.2)]
      writes := if inBank then z.writes else z.writes ++ [(b, e.1.2)]
      moved := if inBank then z.moved else z.moved + e.1.2
      bankReads := if inBank then z.bankReads ++ [(a, e.1.2)] else z.bankReads }) z

/-! ### Far images (R265) -/

def imageAt (r : KvRec) (l j : Nat) : Nat := r.spill + 16384 * (l * r.cap + j)

def kvImageOk (r : KvRec) (l j : Nat) (z : Kv) : Kv :=
  kvCheck (!farOk z.s z.p (imageAt r l j) r.u) .boundsFault 0x334 l j z

/-! ### The end of a KV command (R268, R275, R278) -/

/-- A fault recorded in the frame-table registers (R278, R287). -/
def kvRecordFault (e : KvFlt) (s : State) : State :=
  { s with kvt := { s.kvt with
    faultStatus := BitVec.ofNat 8 (statusCode e.st)
    faultCause := BitVec.ofNat 12 e.cause
    faultPos := BitVec.ofNat 64 (e.list + e.entry % 65536 * 2 ^ 32 + b01 e.spec * 2 ^ 48) } }

/-- The state after the command's work, or as it was, with its fault. -/
def kvResult (z : Kv) (s : State) : Option KvFlt × State :=
  match kvFault z with
  | none => (none, kvNote z z.s)
  | some e => (some e, kvRecordFault e (kvNote z s))

/-- A KV command ends: all its changes applied, or none. -/
def kvEnd (c : Nat) (z : Kv) (result : Nat) (s : State) : State :=
  match kvResult z s with
  | (none, s) => finishOk c result (modCmd c (fun x => { x with applied := true }) s)
  | (some e, s) => finish c e.st e.cause 0 e.list 0 s

/-- Records that KV commands or STEPs of a partition have named, for its runtime (R463, R468). -/
def noteRecords (p : Nat) (l : List Nat) (s : State) : State :=
  modPart p (fun q => { q with kvRecords := q.kvRecords ++ l.filter fun a => !q.kvRecords.contains a }) s

/-- The records that a KV command names, as record or as fork source. -/
def kvNames (x : Cmd) : List Nat := field x 8 8 :: if cmdClass x = 0x11 then [field x 16 8] else []

/-- A KV command that started before names a record of this one: they take effect in order of arrival (R268). -/
def kvBehind (s : State) (c : Nat) : Bool :=
  let x := cmdOf s c
  cmdsWhere s (fun y => y.phase = .running && decide (0x10 ≤ cmdClass y ∧ cmdClass y ≤ 0x13)
    && homeOf s y.fn = homeOf s x.fn && decide (y.startNo < x.startNo) && (kvNames y).any (kvNames x).contains) != []

/-- The work of a KV command on the state as it stands. -/
def kvWork (f : Cmd → Kv → Kv × Nat) (x : Cmd) (s : State) : Kv × Nat := f x { s := s, p := homeOf s x.fn, fn := x.fn }

/-- The ranges of device memory that a KV command touches through the stack interface (R201, R239). -/
def kvTouches (z : Kv) : List (Nat × Nat) := z.reads ++ if z.errs = [] then z.copyReads ++ z.writes else []

/-- The ranges of far memory that it touches (R215). -/
def kvFar (z : Kv) : List (Nat × Nat) := if z.errs = [] then z.farReads ++ z.farWrites else []

/-- A KV command whose accesses are served: it takes effect. -/
def kvServed (c : Nat) (f : Cmd → Kv → Kv × Nat) (x : Cmd) (s : State) : State :=
  let s := noteRecords (homeOf s x.fn) (kvNames x) s
  kvEnd c (kvWork f x s).1 (kvWork f x s).2 s

/-- A KV command that its group has applied already completes with the same effects (R275). -/
def kvOnce (c cls : Nat) (f : Cmd → Kv → Kv × Nat) (s : State) : State :=
  let x := cmdOf s c
  if ¬classReady s c cls ∨ kvBehind s c then notTaken s
  else if x.applied then finishOk c x.result s
  else withAccess (2 * c) (homeOf s x.fn) (kvTouches (kvWork f x s).1) (kvFar (kvWork f x s).1) (kvServed c f x) s

end Sys2Proof.Machine
end

