-- ==== Sys2Proof/Machine/Kv.lean ====
section
/-!
DEFINITION. The KV commands (R269 to R275): KV_ALLOC, KV_FORK, KV_COMMIT and KV_FREE.
-/
namespace Sys2Proof.Machine

/-! ### KV_ALLOC (R269) -/

/-- A request entry. -/
structure KvReq where
  list : Nat
  bank : Nat
  first : Nat
  count : Nat
  reserved : Bool

def kvReqOf (bs : List Byte) : KvReq :=
  let n := leNat bs
  { list := bits n 0 18, bank := bits n 18 12, first := bits n 35 16, count := bits n 51 13, reserved := bits n 30 5 != 0 }

/-- A malformed request (R269, cause 0x302). R269 gives a FILL no range for COUNT; 0 entries count as out of range (log 157). -/
def kvReqBad (mode : Nat) (q : KvReq) : Bool :=
  q.reserved || match mode with
    | 0 => decide (q.count < 1 ∨ 4096 < q.count) || q.first != 0
    | 1 => decide (q.count < 1 ∨ 2 < q.count) || q.first != 0
    | 2 => q.count != 0 || q.first != 0
    | _ => q.count = 0

/-- One more than the last entry of a list that is not NONE, every entry read. -/
def kvEnd' (r : KvRec) (l : Nat) (z : Kv) : Nat × Kv :=
  iter (fun j (a : Nat × Kv) =>
    let (v, z) := kvEntry r l j false a.2
    (match v with | some v => if v = -1 then a.1 else j + 1 | none => a.1, z)) 0 r.cap (0, z)

/-- A new frame in entry j of list l. -/
def kvFill (r : KvRec) (g l j : Nat) (spec : Bool) (x : Frame) (z : Kv) : Option (Nat × Nat) × Kv :=
  match kvTake r g l j spec x z with
  | (none, z) => (none, z)
  | (some (n, v), z) => (some (n, v), kvSetEntry r l j spec (v : Int) z)

def kvAppend (r : KvRec) (q : KvReq) (z : Kv) : Kv :=
  let (first, z) := kvEnd' r q.list { z with want := z.want + q.count }
  if r.cap < first + q.count then kvErr .boundsFault 0x330 q.list r.cap false z
  else iter (fun j z => (kvFill r q.bank q.list j false {} z).2) first q.count z

def kvSpec (r : KvRec) (q : KvReq) (z : Kv) : Kv :=
  let z := iter (fun i z =>
    let (v, z) := kvEntry r q.list i true z
    if v = some (-1) ∨ v = none then z else kvErr .boundsFault 0x332 q.list i true z) 0 2 { z with want := z.want + q.count }
  iter (fun i z => (kvFill r q.bank q.list i true { spec := true } z).2) 0 q.count z

def kvCow (r : KvRec) (q : KvReq) (z : Kv) : Kv :=
  let m := r.kvlen % 32
  if m = 0 then z
  else
    let j := r.kvlen / 32
    match kvEntry r q.list j false z with
    | (none, z) => z
    | (some v, z) =>
      if v < 0 then z
      else match kvFrame q.list j false v z with
        | (none, z) => z
        | (some old, z) =>
          if (frameOf z.s old).refcnt ≤ 1 then z
          else match kvFill r q.bank q.list j false { tokens := m } { z with want := z.want + 1 } with
            | (none, z) => z
            | (some (_, w), z) =>
              let z := kvCopyRows r q.list j v.toNat w 0 0 m z
              { z with s := frameRelease old z.s }

/-- One entry of a FILL: its new frame loaded from its far image. -/
def kvFillEntry (r : KvRec) (q : KvReq) (j : Nat) (z : Kv) : Kv :=
  match kvEntry r q.list j false z with
  | (none, z) => z
  | (some v, z) =>
    if v ≠ -2 then kvErr .boundsFault 0x332 q.list j false z
    else
      let a := imageAt r q.list j
      let z := kvMover true q.list j (kvImageOk r q.list j z)
      let x : Frame := { tokens := Nat.min 32 (r.kvlen - 32 * j), spilled := true, farslot := BitVec.ofNat 32 (a / 16384) }
      match kvFill r q.bank q.list j false x z with
      | (none, z) => z
      | (some (_, w), z) =>
        let (bs, bad) := farGet z.s z.p a r.u
        let z := if bad then kvCopyErr .poisonConsumed 0x350 q.list j z else z
        let s := match frameNum z.s z.p w with | some n => setGold n 0 bs z.s | none => z.s
        { z with s := devPut z.p (w * 16384) bs s, farReads := z.farReads ++ [(a, r.u)], moved := z.moved + r.u
                 writes := z.writes ++ [(w * 16384, r.u)] }

def kvFillAll (r : KvRec) (q : KvReq) (z : Kv) : Kv :=
  let z := iter (fun j z => kvFillEntry r q j z) q.first (Nat.min q.count (r.cap - q.first)) { z with want := z.want + q.count }
  kvCheck (decide (r.cap < q.first + q.count)) .boundsFault 0x330 q.list (Nat.max r.cap q.first) z

/-- One request of a KV_ALLOC. -/
def kvRequest (r : KvRec) (mode : Nat) (z : Kv) (q : KvReq) : Kv :=
  if kvReqBad mode q then kvErr .descFault 0x302 q.list 0 false z
  else if r.lists ≤ q.list then kvErr .boundsFault 0x330 q.list 0 false z
  else match mode with
    | 0 => kvAppend r q z
    | 1 => kvSpec r q z
    | 2 => kvCow r q z
    | _ => kvFillAll r q z

/-- The request list, when it can be read (R268): the entries delivered clean, and whether others were poisoned. -/
def kvRequests (a n : Nat) (z : Kv) : (List KvReq × Bool) × Kv :=
  if a % 64 ≠ 0 then (([], false), kvErr .alignFault 0x320 0 0 false z)
  else if ¬devOk z.s z.p a (8 * n) then (([], false), kvErr .boundsFault 0x334 0 0 false z)
  else
    let (g, z) := kvGet a (8 * n) z
    let clean := fun (i : Nat) => !g.2 || !(devGet z.s z.p (a + 8 * i) 8).2
    ((((rangeFrom 0 n).filter clean).map fun i => kvReqOf ((g.1.drop (8 * i)).take 8), g.2),
      kvCheck g.2 .poisonConsumed 0x350 0 0 z)

/-- What a request breaks by itself, where the record cannot be read or another request came poisoned (R10). -/
def kvJudge (r : Option KvRec) (mode : Nat) (z : Kv) (q : KvReq) : Kv :=
  let out := match r with | none => false | some r => decide (r.lists ≤ q.list)
  kvCheck out .boundsFault 0x330 q.list 0 (kvCheck (kvReqBad mode q) .descFault 0x302 q.list 0 z)

def kvAllocWork (x : Cmd) (z : Kv) : Kv × Nat :=
  let mode := field x 28 1
  let n := field x 24 4
  let bad := decide (3 < mode ∨ n < 1 ∨ 65536 < n)
  let z := kvCheck bad .descFault 0x302 0 0 z
  let (r, z) := kvOpen (field x 8 8) z
  if bad then (z, 0)
  else
    let (qs, z) := kvRequests (field x 16 8) n z
    match (if qs.2 then none else r) with
    | none => (qs.1.foldl (kvJudge r mode) z, 0)
    | some r =>
      let used := framesUsed z.s z.p
      let z := qs.1.foldl (kvRequest r mode) z
      (kvCheck (decide (0 < z.want ∧ (partOf z.s z.p).kvQuota < used + z.want)) .quotaExceeded 0x340 0 0 z, z.want)

def kvAllocEffect (c : Nat) (s : State) : State := kvOnce c 0x10 kvAllocWork s

/-- KV_ALLOC (R269): frames appended, taken for speculation, copied on write, or filled from far images. -/
def execKvAlloc (c : Nat) (s : State) : Host.Outcome State Fault Refusal := take (.kvAlloc c) s (kvAllocEffect c)

/-! ### KV_FORK (R270) -/

/-- Every entry of a record is NONE. -/
def kvAllNone (r : KvRec) (z : Kv) : Bool × Kv :=
  let one := fun (l j : Nat) (spec : Bool) (a : Bool × Kv) =>
    let (v, z) := kvEntry r l j spec a.2
    (a.1 && v = some (-1), z)
  iter (fun l a => iter (fun i a => one l i true a) 0 2 (iter (fun j a => one l j false a) 0 r.cap a)) 0 r.lists (true, z)

/-- The conditions of R270 that headers alone decide, of the records whose headers can be judged. -/
def kvForkOk (src dst : Nat) (a b : Option KvRec) (ntok : Nat) : Bool :=
  src != dst && (match a with | none => true | some a => decide (ntok ≤ a.kvlen))
    && (match b with | none => true | some b => decide (ceilDiv ntok 32 ≤ b.cap) && b.kvlen = 0)
    && match a, b with
      | some a, some b => a.layers = b.layers && a.heads = b.heads && a.dim = b.dim && a.fmt = b.fmt && a.sblk = b.sblk
      | _, _ => true

/-- One entry shared. -/
def kvShare (src dst : KvRec) (l j : Nat) (z : Kv) : Kv :=
  match kvEntry src l j false z with
  | (none, z) => z
  | (some v, z) =>
    if v < 0 then kvErr .boundsFault 0x332 l j false z
    else match kvFrame l j false v z with
      | (none, z) => z
      | (some n, z) =>
        if 65535 ≤ (frameOf z.s n).refcnt then kvErr .quotaExceeded 0x342 l j false z
        else kvSetEntry dst l j false v { z with s := modFrame n (fun y => { y with refcnt := y.refcnt + 1 }) z.s }

def kvForkWork (x : Cmd) (z : Kv) : Kv × Nat :=
  let ntok := field x 24 4
  let (a, z) := kvOpen (field x 8 8) z
  let z0 := z
  let (b, zb) := kvOpen (field x 16 8) { z with errs := [] }
  let ok := kvForkOk (field x 8 8) (field x 16 8) (kvHeader (field x 8 8) z0) (kvHeader (field x 16 8) z0) ntok
  let z := kvCheck (!ok) .descFault 0x303 0 0 { zb with errs := z0.errs ++ zb.errs }
  match a, b with
  | some src, some dst =>
    let (empty, z) := kvAllNone dst z
    if ¬ok then (z, 0)
    else if empty then
      let z := iter (fun l z => iter (fun j z => kvShare src dst l j z) 0 (ceilDiv ntok 32) z) 0 src.lists z
      (kvSetHeader dst 4 4 ntok z, 0)
    else (kvErr .descFault 0x303 0 0 false z, 0)
  | _, _ => (z, 0)

def kvForkEffect (c : Nat) (s : State) : State := kvOnce c 0x11 kvForkWork s

/-- KV_FORK (R270): the first tokens of one sequence shared with an empty record. -/
def execKvFork (c : Nat) (s : State) : Host.Outcome State Fault Refusal := take (.kvFork c) s (kvForkEffect c)

/-! ### KV_COMMIT (R271) -/

/-- SPEC frames of a list: those of entries 0 and 1 that are RESIDENT, as (value, frame). -/
def kvSpecFrames (r : KvRec) (l : Nat) (z : Kv) : List (Nat × Nat) × Kv :=
  iter (fun i (a : List (Nat × Nat) × Kv) =>
    match kvEntry r l i true a.2 with
    | (none, z) => (a.1, z)
    | (some v, z) =>
      if v = -1 then (a.1, z)
      else if v < 0 then (a.1, kvErr .boundsFault 0x332 l i true z)
      else match kvFrame l i true v z with
        | (none, z) => (a.1, z)
        | (some n, z) => (a.1 ++ [(v.toNat, n)], z)) 0 2 ([], z)

/-- One accepted node checked and, with `copy`, copied to position `t` of a list. -/
def kvCommitNode (copy : Bool) (r : KvRec) (l : Nat) (spec : List (Nat × Nat)) (node t : Nat) (z : Kv) : Kv :=
  let j := t / 32
  let z := kvCheck (decide (32 * spec.length ≤ node)) .boundsFault 0x333 l 0 z
  if r.cap ≤ j then kvErr .boundsFault 0x330 l j false z
  else match kvEntry r l j false z with
    | (none, z) => z
    | (some v, z) =>
      if v < 0 then kvErr .boundsFault 0x333 l j false z
      else match kvFrame l j false v z with
        | (none, z) => z
        | (some n, z) =>
          if (frameOf z.s n).refcnt ≠ 1 then kvErr .boundsFault 0x333 l j false z
          else match spec[node / 32]? with
            | none => z
            | some (w, _) =>
              let z := if copy then kvCopyRows r l j w v.toNat (node % 32) (t % 32) 1 z else z
              { z with s := frameTokens n (t % 32 + 1) z.s }

/-- SPEC frames of a list released. -/
def kvDropSpec (r : KvRec) (l : Nat) (z : Kv) : Kv :=
  let (sp, z) := kvSpecFrames r l z
  let z := sp.foldl (fun z e => { z with s := frameRelease e.2 z.s }) z
  iter (fun i z => kvSetEntry r l i true (-1) z) 0 2 z

def satSum (a b : Nat) : Nat := Nat.min (a + b) (2 ^ 32 - 1)

/-- The work of a KV_COMMIT on an opened record: its checks, and with `copy` its copies. -/
def kvCommitOn (copy : Bool) (r : KvRec) (path : List Nat) (keep : Bool) (z : Kv) : Kv :=
  let a := path.length
  let (held, z) := iter (fun l (h : Bool × Kv) =>
    let (sp, z) := kvSpecFrames r l h.2
    (h.1 || sp != [], (List.zip (rangeFrom 0 a) path).foldl (fun z e => kvCommitNode copy r l sp e.2 (r.kvlen + e.1) z) z))
    0 r.lists (false, z)
  let z := if a = 0 then z else kvSetHeader r 4 4 (r.kvlen + a) z
  if ¬held then z
  else
    let z := kvSetHeader r 28 1 a (kvSetHeader r 24 4 (satSum r.accepted a) (kvSetHeader r 20 4 (satSum r.verifies 1) z))
    if keep then z else iter (fun l z => kvDropSpec r l z) 0 r.lists z

def kvCommitWork (x : Cmd) (z : Kv) : Kv × Nat :=
  let a := field x 16 1
  let keep := bit (field x 17 1) 0
  let path := (rangeFrom 0 a).map fun i => field x (18 + i) 1
  let bad := decide (16 < a) || (rangeFrom a (16 - a)).any (fun i => field x (18 + i) 1 != 0) || !noDup path
  let z := kvCheck bad .descFault 0x304 0 0 z
  match kvOpen (field x 8 8) z with
  | (none, z) => (z, 0)
  | (some r, z) => (kvCommitOn true r path keep z, 0)

def kvCommitEffect (c : Nat) (s : State) : State := kvOnce c 0x12 kvCommitWork s

/-- KV_COMMIT (R271): accepted speculative entries become committed positions, the SPEC frames are released. -/
def execKvCommit (c : Nat) (s : State) : Host.Outcome State Fault Refusal := take (.kvCommit c) s (kvCommitEffect c)

/-! ### KV_FREE (R272) -/

/-- Entry j of a list set to NONE, its frame released. -/
def kvDropEntry (r : KvRec) (l j : Nat) (z : Kv) : Kv :=
  match kvEntry r l j false z with
  | (none, z) => z
  | (some v, z) =>
    if v = -1 then z
    else if v = -2 then kvSetEntry r l j false (-1) z
    else match kvFrame l j false v z with
      | (none, z) => z
      | (some n, z) => kvSetEntry r l j false (-1) { z with s := frameRelease n z.s }

/-- The frame left holding the last kept position (R272). -/
def kvTrimTail (r : KvRec) (l ntok : Nat) (z : Kv) : Kv :=
  if ntok = 0 then z
  else
    let j := (ntok - 1) / 32
    match kvEntry r l j false z with
    | (none, z) => z
    | (some v, z) =>
      if v < 0 then z
      else match kvFrame l j false v z with
        | (none, z) => z
        | (some n, z) =>
          if (frameOf z.s n).refcnt = 1 then { z with s := frameTokens n ((ntok - 1) % 32 + 1) z.s } else z

/-- One committed entry spilled: its image written when it is not there already, its frame released. -/
def kvSpillEntry (r : KvRec) (l j : Nat) (z : Kv) : Kv :=
  match kvEntry r l j false z with
  | (none, z) => z
  | (some v, z) =>
    if v < 0 then z
    else match kvFrame l j false v z with
      | (none, z) => z
      | (some n, z) =>
        let y := frameOf z.s n
        if y.refcnt ≠ 1 then z
        else
          let a := imageAt r l j
          let there := y.spilled && y.farslot = BitVec.ofNat 32 (a / 16384)
          let z :=
            if there then z
            else
              let z := kvMover true l j (kvImageOk r l j z)
              let g := devGet z.s z.p (v.toNat * 16384) r.u
              let z := if g.2 then kvCopyErr .poisonConsumed 0x350 l j z else z
              let dead := (unitsOf 4096 (farAddr z.s z.p a) r.u).any (farDead z.s)
              let z := if dead then kvCopyErr .unrecovered 0x351 l j z else z
              { z with
                s := farPut z.p a g.1 z.s, copyReads := z.copyReads ++ [(v.toNat * 16384, r.u)], moved := z.moved + r.u
                farWrites := z.farWrites ++ [(a, r.u)] }
          kvSetEntry r l j false (-2) { z with s := frameRelease n z.s }

/-- The work of a KV_FREE on an opened record. -/
def kvFreeLists (r : KvRec) (ntok : Nat) (spill : Bool) (z : Kv) : Kv :=
  let keep := ceilDiv ntok 32
  let z := iter (fun l z =>
    let z := if spill then iter (fun j z => kvSpillEntry r l j z) 0 keep z else kvTrimTail r l ntok z
    kvDropSpec r l (iter (fun j z => kvDropEntry r l j z) keep (r.cap - keep) z)) 0 r.lists z
  if ntok = r.kvlen then z else kvSetHeader r 4 4 ntok z

/-- The conditions of R272. -/
def kvFreeOk (r : KvRec) (ntok : Nat) (spill : Bool) : Bool :=
  if spill then ntok = r.kvlen && r.spillEn else decide (ntok ≤ r.kvlen)

def kvFreeOn (a ntok : Nat) (spill : Bool) (z : Kv) : Kv :=
  let bad := match kvHeader a z with | none => false | some r => !(kvFreeOk r ntok spill)
  match kvOpen a z with
  | (none, z) => kvCheck bad .descFault 0x304 0 0 z
  | (some r, z) => if bad then kvErr .descFault 0x304 0 0 false z else kvFreeLists r ntok spill z

/-- A record that a KV_FREE with NTOK 0 names is no longer a candidate of EVICT (R381). -/
def forgetNamed (p a : Nat) (s : State) : State :=
  modPart p (fun q => { q with
    named := q.named.filter (fun e => e.record != a)
    kvRecords := q.kvRecords.filter fun e => e != a }) s

def kvFreeWork (x : Cmd) (z : Kv) : Kv × Nat :=
  let a := field x 8 8
  let ntok := field x 16 4
  let spill := bit (field x 20 1) 0
  let z := kvFreeOn a ntok spill z
  (if ntok = 0 then { z with s := forgetNamed z.p a z.s } else z, 0)

def kvFreeEffect (c : Nat) (s : State) : State := kvOnce c 0x13 kvFreeWork s

/-- KV_FREE (R272): entries beyond the kept tokens released, or a whole sequence spilled to far memory. -/
def execKvFree (c : Nat) (s : State) : Host.Outcome State Fault Refusal := take (.kvFree c) s (kvFreeEffect c)

end Sys2Proof.Machine
end

