-- ==== Sys2Proof/Machine/Adapters.lean ====
section
/-!
DEFINITION. Adapters and model slots (R288 to R291, R302 to R309): ADAPTER_LOAD, ADAPTER_EVICT and MODEL_SWAP.
-/
namespace Sys2Proof.Machine

/-! ### The directory and images (R302, R303) -/

def dirEntryOf (bs : List Byte) : DirEntry :=
  let n := leNat bs
  { image := bits n 0 64, size := bits n 64 32, tag := bits n 96 32, rank := bits n 128 8, fmt := bits n 136 8
    ufmt := bits n 144 8, valid := bit n 152, alpha := bits n 160 32 }

/-- Directory entry `d` of a partition, and whether it was read poisoned. -/
def dirRead (s : State) (p d : Nat) : DirEntry × Bool := let r := farGet s p (64 * d) 64; (dirEntryOf r.1, r.2)

/-- What R309 asks of an entry beside its model's tag. -/
def dirEntryOk (e : DirEntry) : Bool :=
  e.valid && decide (1 ≤ e.rank ∧ e.rank ≤ 128 ∧ 1 ≤ e.fmt ∧ e.fmt ≤ 4 ∧ e.ufmt ≤ 1)

def targetOfBytes (bs : List Byte) : Target :=
  let n := leNat bs
  { layer := bits n 0 16, proj := bits n 16 8, reserved := bits n 24 40 != 0, aOff := bits n 64 64, bOff := bits n 128 64
    dIn := bits n 192 32, dOut := bits n 224 32 }

/-- The image of an adapter: whether its header is valid or cannot be judged, those targets that were delivered clean, and poison among
what was read. -/
def imageTargets (s : State) (p : Nat) (e : DirEntry) : Bool × List Target × Bool :=
  let h := farGet s p e.image 64
  let n := leNat h.1
  let k := bits n 32 16
  let ok := bits n 0 32 = 0x50414441 && decide (1 ≤ k ∧ k ≤ 7168 ∧ 64 + 32 * k ≤ e.size) && bits n 48 464 = 0
  if h.2 then (true, [], true)
  else if ¬ok then (false, [], false)
  else
    let t := farGet s p (e.image + 64) (32 * k)
    let clean := fun (i : Nat) => !t.2 || !(farGet s p (e.image + 64 + 32 * i) 32).2
    (true, ((rangeFrom 0 k).filter clean).map fun i => targetOfBytes ((t.1.drop (32 * i)).take 32), t.2)

def factorBytes (e : DirEntry) (d : Nat) : Nat := d * e.rank * fmtWidth (fmtOf e.fmt) / 8

/-- Layers of the READY model with a tag; every layer number where no slot holds it. -/
def layersOfTag (s : State) (p tag : Nat) : Nat :=
  match (partOf s p).models.find? fun m => m.2.state = .ready && m.2.tag.toNat = tag with
  | some m => m.2.layers
  | none => 1024

def targetOk (s : State) (p : Nat) (e : DirEntry) (t : Target) : Bool :=
  !t.reserved && decide (t.proj ≤ 6 ∧ t.layer < layersOfTag s p e.tag ∧ 1 ≤ t.dIn ∧ 1 ≤ t.dOut)
    && t.aOff % 64 = 0 && t.bOff % 64 = 0 && decide (t.aOff + factorBytes e t.dIn ≤ e.size ∧ t.bOff + factorBytes e t.dOut ≤ e.size)

/-! ### Places in the pool (R304) -/

/-- A factor of `k` rows and `c` columns as a tensor in the image, and as a B operand with its column summary (R129, R142). -/
def factorSrc (e : DirEntry) (off k c : Nat) : TDesc :=
  { addr := e.image + off, ext := [c, k], str := [1, (c : Int)], rank := 2, fmt := fmtOf e.fmt, space := 3 }
def factorDst (e : DirEntry) (at_ k c : Nat) : TDesc :=
  let t : TDesc := { addr := at_, ext := [c, k], str := [0, 0], rank := 2, fmt := fmtOf e.fmt, space := 2, layout := 2
                     emitC := true }
  { t with csum := at_ + t.padR * t.padC * t.width / 8 }
def factorSize (e : DirEntry) (k c : Nat) : Nat :=
  let t := factorDst e 0 k c
  roundUp64 (t.padR * t.padC * t.width / 8 + t.csumBytes)

def adapterBytes (e : DirEntry) (l : List Target) : Nat :=
  l.foldl (fun n t => n + factorSize e t.dIn e.rank + factorSize e e.rank t.dOut) 0

def adapterOf (s : State) (p i : Nat) : AdapterSlot := tabGet {} (partOf s p).adapters i
def setAdapter (p i : Nat) (a : AdapterSlot) (s : State) : State :=
  modPart p (fun q => { q with adapters := tabSet {} q.adapters i a }) s

/-- The slot in which an adapter is resident (R304). -/
def residentIn (s : State) (p dir : Nat) : Option Nat :=
  ((partOf s p).adapters.find? fun e => e.2.state = .ready && e.2.dir = dir).map (·.1)

/-- The lowest place in the pool with room for `n` bytes. -/
def poolPlace (s : State) (p n : Nat) : Option Nat :=
  let l := (partOf s p).adapters.filter fun e => e.2.state != .empty
  let free := fun (o : Nat) => decide (o + n ≤ (partOf s p).poolChunks * 2 ^ 21)
    && l.all fun e => decide (o + n ≤ e.2.at_ ∨ e.2.at_ + e.2.bytes ≤ o)
  let ok := (0 :: l.map fun e => e.2.at_ + e.2.bytes).filter free
  match ok with | [] => none | o :: t => some (t.foldl Nat.min o)

/-- The least recently used slot that may be evicted: READY, not pinned, not `busy`, and `keep` of its number. -/
def lruSlot (s : State) (p : Nat) (busy : List Nat) (keep : Nat → Bool) : Option Nat :=
  ((partOf s p).adapters.filter fun e => e.2.state = .ready && !e.2.pin && !busy.contains e.1 && keep e.1).foldl
    (fun b e => match b with
      | none => some (e.1, e.2.lastUse)
      | some y => if e.2.lastUse < y.2 then some (e.1, e.2.lastUse) else b) none |>.map (·.1)

def evictSlot (p i : Nat) (s : State) : State := setAdapter p i {} s

/-- Slots evicted, least recently used first, until `n` bytes fit (R305). -/
def makeRoom (p n : Nat) (busy : List Nat) (keep : Nat → Bool) : Nat → State → Option (Nat × State)
  | 0, s => (poolPlace s p n).map fun o => (o, s)
  | k + 1, s =>
    match poolPlace s p n with
    | some o => some (o, s)
    | none => match lruSlot s p busy keep with
      | none => none
      | some i => makeRoom p n busy keep k (evictSlot p i s)

/-- The slot that a load takes (R305): the named one, or the lowest FREE below the quota, or the least recently used. -/
def chooseSlot (s : State) (p slot : Nat) (busy : List Nat) : Status × Nat ⊕ Nat × State :=
  if slot ≠ 0xFFFF then
    let a := adapterOf s p slot
    if a.state != .empty && (a.pin || busy.contains slot) then .inl (.resourceBusy, 0x541)
    else .inr (slot, evictSlot p slot s)
  else
    let q := (partOf s p).slotQuota
    match findFrom (fun i => (adapterOf s p i).state = .empty) 0 q with
    | some i => .inr (i, s)
    | none => match lruSlot s p busy fun i => decide (i < q) with
      | some i => .inr (i, evictSlot p i s)
      | none => .inl (.quotaExceeded, 0x540)

/-- A use of a slot noted in the last-use order. -/
def touchSlot (p i : Nat) (s : State) : State :=
  let n := (partOf s p).useOrder + 1
  modPart p (fun q => { q with useOrder := n, adapters := tabMod {} q.adapters i fun a => { a with lastUse := n } }) s

/-- One factor copied from the image into the pool; also whether it was read poisoned. -/
def loadFactor (x : Cmd) (e : DirEntry) (off at_ k c : Nat) (a : State × Bool) : State × Bool :=
  let src := factorSrc e off k c
  let dst := factorDst e at_ k c
  let items := copyItems src dst [] []
  let plan := copyPlan a.1 x {} src dst [] []
  let out := outSummaries dst (items ++ paddingItems dst (k * c)) plan.out
  (storeOut x dst out (noteMoved out.bytes.length (noteReads x src dst items [] a.1)), a.2 || plan.poisonAt.isSome)

def loadTargets (x : Cmd) (e : DirEntry) : List Target → Nat → State × Bool → State × Bool
  | [], _, a => a
  | t :: l, at_, a =>
    let a := loadFactor x e t.aOff at_ t.dIn e.rank a
    let at' := at_ + factorSize e t.dIn e.rank
    let a := loadFactor x e t.bOff at' e.rank t.dOut a
    loadTargets x e l (at' + factorSize e e.rank t.dOut) a

/-- The faults of a load before anything changes (R309, R320). -/
def loadFault (s : State) (p dir slot : Nat) : Option Flt :=
  let q := partOf s p
  let d0 := dirRead s p dir
  let e := d0.1
  let bad := d0.2
  let here := decide (dir < q.dircap)
  let range := farOk s p e.image e.size
  let r0 := imageTargets s p e
  let ok := r0.1
  let ts := r0.2.1
  let badImage := r0.2.2
  let entry := here && !bad && dirEntryOk e && e.size % 64 = 0
  let image := entry && e.image % 64 = 0 && range
  firstFault [(here && !bad && (!dirEntryOk e || e.size % 64 != 0), .descFault, 0x505),
    (image && (!ok || !ts.all (targetOk s p e) || !noDup (ts.map fun t => t.layer * 8 + t.proj)), .descFault, 0x505),
    (here && !bad && e.image % 64 != 0, .alignFault, 0x520),
    (!here || (here && !bad && !range) || (slot != 0xFFFF && decide (q.slotQuota ≤ slot)), .boundsFault, 0x531),
    ((chosenMover s).isNone, .unrecovered, 0x150),
    ((here && bad) || (image && badImage), .poisonConsumed, 0x550)]

/-- An adapter loaded into slot `i`, room made for it in the pool (R305). -/
def loadInto (x : Cmd) (p dir : Nat) (pin : Bool) (busy : List Nat) (e : DirEntry) (ts : List Target) (i : Nat) (s : State) :
    Flt ⊕ Nat × State :=
  match makeRoom p (adapterBytes e ts) busy (fun k => k != i) ((partOf s p).adapters.length + 1) s with
  | none => .inl (.quotaExceeded, 0x540)
  | some (o, s) =>
    let s := farNote p (64 * dir) 64 (farNote p e.image (64 + 32 * ts.length) s)
    let r := loadTargets x e ts ((partOf s p).poolBase * 2 ^ 21 + o) (s, false)
    if r.2 then .inl (.poisonConsumed, 0x550)
    else .inr (i, touchSlot p i (setAdapter p i { state := .ready, dir := dir, pin := pin, at_ := o
                                                  bytes := adapterBytes e ts, entry := e, targets := ts } r.1))

/-- A load of an adapter that is not resident (R305): its fault, or its slot and the state. -/
def loadAdapter (x : Cmd) (p dir slot : Nat) (pin : Bool) (busy : List Nat) (s : State) : Flt ⊕ Nat × State :=
  match loadFault s p dir slot with
  | some f => .inl f
  | none => match chooseSlot s p slot busy with
    | .inl f => .inl f
    | .inr (i, t) =>
      loadInto x p dir pin busy (dirRead s p dir).1 (imageTargets s p (dirRead s p dir).1).2.1 i t

/-- What a load that ends with poison has read of far memory (R214, R320): the directory entry, the image's header and targets,
and the factors. -/
def loadNote (p dir : Nat) (st : Status) (s : State) : State :=
  if st ≠ .poisonConsumed then s
  else
    let d0 := dirRead s p dir
    let e := d0.1
    let bad := d0.2
    let s1 := farNote p (64 * dir) 64 s
    if bad then s1
    else
      let r0 := imageTargets s p e
      let ts := r0.2.1
      let badImage := r0.2.2
      let s2 := farNote p e.image (64 + 32 * ts.length) s1
      if badImage then s2
      else foldState ts (fun t s => farNote p (e.image + t.bOff) (factorBytes e t.dOut)
        (farNote p (e.image + t.aOff) (factorBytes e t.dIn) s)) s2

/-! ### Started commands that use a slot (R290, R304, R307) -/

/-- Started commands of a class in the partition of command `c` that started before it. -/
def startedBefore (s : State) (c cls : Nat) : List Nat :=
  let x := cmdOf s c
  cmdsWhere s fun y => y.phase = .running && cmdClass y = cls && homeOf s y.fn = homeOf s x.fn && decide (y.startNo < x.startNo)

/-- What a STEP's block names: its model slot and its requests' adapters (R293). -/
def stepUses (s : State) (c : Nat) : Nat × List Nat :=
  let x := cmdOf s c
  let get := fun (a n : Nat) => leNat (bodyGet s x (bit (field x 44 1) 3) (field x 8 8 + a) n).2.1
  (get 6 1, (rangeFrom 0 (Nat.min (get 4 2) 4096)).map fun i => get (64 + 64 * i + 8) 4)

/-- The slots of a partition that its started STEPs other than command `x` use. -/
def busySlots (s : State) (p : Nat) (x : Cmd) : List Nat :=
  (cmdsWhere s fun y => y.phase = .running && cmdClass y = 0x04 && homeOf s y.fn = p && y.startNo != x.startNo).flatMap fun d =>
    (stepUses s d).2.filterMap (residentIn s p)

def swapSlot (x : Cmd) : Nat := field x 24 1
def evictDir (x : Cmd) : Nat := field x 8 4

/-! ### ADAPTER_LOAD and ADAPTER_EVICT -/

/-- The place of a slot's factors in device memory (R304). -/
def slotRange (s : State) (p i : Nat) : List (Nat × Nat) :=
  let a := adapterOf s p i
  if a.bytes = 0 then [] else [((partOf s p).poolBase * 2 ^ 21 + a.at_, a.bytes)]

/-- What a load reads of far memory: the directory entry and the image. -/
def adapterFar (s : State) (p dir : Nat) : List (Nat × Nat) :=
  (64 * dir, 64) :: (let e := (dirRead s p dir).1; if e.size = 0 then [] else [(e.image, e.size)])

def adapterLoadEffect (c : Nat) (s : State) : State :=
  let x := cmdOf s c
  let p := homeOf s x.fn
  let dir := field x 8 4
  let slot := field x 12 2
  let pin := bit (field x 14 1) 0
  if ¬classReady s c 0x18 then notTaken s
  else match residentIn s p dir with
    | some i => finishOk c i (if pin then setAdapter p i { adapterOf s p i with pin := true } s else s)
    | none =>
      let r := loadAdapter x p dir slot pin (busySlots s p x) s
      withAccess (2 * c) p (match r with | .inl _ => [] | .inr (i, t) => slotRange t p i) (adapterFar s p dir) (fun s =>
        match loadAdapter x p dir slot pin (busySlots s p x) s with
        | .inl f => fail c f.1 f.2 (loadNote p dir f.1 s)
        | .inr (i, s) => finishOk c i s) s

/-- ADAPTER_LOAD (R305): an adapter made resident in a slot of its partition. -/
def execAdapterLoad (c : Nat) (s : State) : Host.Outcome State Fault Refusal := take (.adapterLoad c) s (adapterLoadEffect c)

def adapterEvictEffect (c : Nat) (s : State) : State :=
  let x := cmdOf s c
  let p := homeOf s x.fn
  let dir := evictDir x
  if ¬classReady s c 0x19 ∨ (startedBefore s c 0x04).any (fun d => (stepUses s d).2.contains dir) then notTaken s
  else match residentIn s p dir with
    | none => finishOk c 0 s
    | some i => finishOk c 0 (evictSlot p i s)

/-- ADAPTER_EVICT (R307): an adapter's slot set FREE, its pool space released, once no command started before uses it. -/
def execAdapterEvict (c : Nat) (s : State) : Host.Outcome State Fault Refusal :=
  take (.adapterEvict c) s (adapterEvictEffect c)

/-! ### MODEL_SWAP (R289, R290) -/

def sectionOf (bs : List Byte) : Section :=
  let n := leNat bs
  { off := bits n 0 64, size := bits n 64 48, kind := bits n 112 8, role := bits n 128 32, reserved := bits n 120 8 != 0 || bits n 160 96 != 0 }

/-- The load description and section table of an image: well formed as far as it was delivered clean, the slot's contents, those
sections that were delivered clean, poison. -/
def modelRead (s : State) (p image size : Nat) : Bool × ModelSlot × List Section × Bool :=
  let h := farGet s p image 256
  let n := leNat h.1
  let k := bits n 224 32
  let t := farGet s p (image + 256) (32 * k)
  let clean := fun (i : Nat) => !t.2 || !(farGet s p (image + 256 + 32 * i) 32).2
  let ss := ((rangeFrom 0 k).filter clean).map fun i => sectionOf ((t.1.drop (32 * i)).take 32)
  let q := bits n 80 16
  let kv := bits n 96 16
  let m : ModelSlot := { state := .ready, tag := BitVec.ofNat 32 (bits n 32 32), image := image, size := size
                         layers := bits n 64 16, qheads := q, kvheads := kv, dim := bits n 112 16
                         kvfmt := BitVec.ofNat 8 (bits n 128 8), bstream := bits n 136 8, slices := bit n 144
                         vocab := bits n 160 32, hidden := bits n 192 32 }
  let head := bits n 0 32 = 0x4C444F4D && bits n 32 32 != 0 && decide (1 ≤ m.layers ∧ m.layers ≤ 1024 ∧ 1 ≤ q ∧ q ≤ 1024
      ∧ 1 ≤ kv ∧ kv ≤ 256 ∧ 1 ≤ m.dim ∧ m.dim ≤ 1024 ∧ 1 ≤ m.vocab ∧ m.vocab ≤ 1048576 ∧ 1 ≤ m.hidden ∧ m.hidden ≤ 65536
      ∧ 1 ≤ k ∧ k ≤ 4096 ∧ 256 + 32 * k ≤ size) && q % kv = 0 && bits n 134 2 = 0 && bits n 145 7 = 0 && bits n 152 8 = 0
      && bits n 256 1792 = 0
  if h.2 then (true, m, [], true)
  else if ¬head then (false, m, [], false)
  else
    (ss.all (fun e => !e.reserved && decide (e.kind ≤ 2) && e.off % 64 = 0 && e.size % 64 = 0
      && decide (e.off + e.size ≤ size)), m, ss, t.2)

/-- Bytes of the sections of some kinds. -/
def sectionBytes (ss : List Section) (isLocal : Bool) : Nat :=
  ss.foldl (fun n e => if (e.kind = 1) = (isLocal = true) then n + e.size else n) 0

/-- Chunks of a partition that may hold a model's sections (R289): INTERLEAVED outside the pool, or BANK_LOCAL with KV = 0;
none that another slot holds. -/
def modelChunks (s : State) (p slot : Nat) (isLocal : Bool) : List Nat :=
  let q := partOf s p
  let held := (q.models.filter fun m => m.1 != slot).flatMap fun m => m.2.place ++ m.2.localPlace
  (rangeFrom 0 q.ctCount).filter fun c =>
    match chunkOf s p c with
    | none => false
    | some e => e.bankLocal = isLocal && !e.kv && !held.contains c && !decide (q.poolBase ≤ c ∧ c < q.poolBase + q.poolChunks)

/-- The highest-numbered of the suitable chunks (DESIGN CHOICE, log 24). -/
def placeModel (s : State) (p slot n : Nat) (isLocal : Bool) : Option (List Nat) :=
  let l := modelChunks s p slot isLocal
  let k := ceilDiv n (2 ^ 21)
  if l.length < k then none else some (l.drop (l.length - k))

/-- Section bytes stored in chunks, in order. -/
def storeChunks (p : Nat) : List Nat → List Byte → State → State
  | [], _, s => s
  | c :: cs, bs, s => storeChunks p cs (bs.drop (2 ^ 21)) (devPut p (c * 2 ^ 21) (bs.take (2 ^ 21)) s)

def setModel (p slot : Nat) (m : ModelSlot) (s : State) : State :=
  modPart p (fun q => { q with models := tabSet {} q.models slot m }) s

/-- A model's sections, read from far space and stored in the chunks found for them (R290). -/
def storeModel (c p slot image : Nat) (m : ModelSlot) (ss : List Section) (a b : List Nat) (s : State) : State :=
  let get := fun (e : Section) => farGet s p (image + e.off) e.size
  let bytes := fun (isLocal : Bool) => (ss.filter fun e => (e.kind = 1) = (isLocal = true)).flatMap fun e => (get e).1
  let s1 := foldState ss (fun e s => farNote p (image + e.off) e.size s) s
  if ss.any fun e => (get e).2 then fail c .poisonConsumed 0x550 (setModel p slot {} s1)
  else
    let s2 := noteMoved (sectionBytes ss true + sectionBytes ss false)
      (storeChunks p b (bytes true) (storeChunks p a (bytes false) s1))
    finishOk c (sectionBytes ss true + sectionBytes ss false) (setModel p slot { m with sections := ss, place := a, localPlace := b } s2)

/-- The end of a MODEL_SWAP, from its fault, if any, and the chunks found for its sections. -/
def endSwap (c p slot image : Nat) (m : ModelSlot) (ss : List Section) (e : Option Flt) (a b : Option (List Nat)) (s : State) : State :=
  match e, a, b with
  | some (st, cause), _, _ => fail c st cause s
  | none, some a, some b => storeModel c p slot image m ss a b s
  | none, _, _ => s

/-- A MODEL_SWAP whose accesses are served: its image read and checked, then its end. -/
def swapServed (c : Nat) (x : Cmd) (s : State) : State :=
  let p := homeOf s x.fn
  let image := field x 8 8
  let size := field x 16 8
  let slot := swapSlot x
  let range := farOk s p image size && decide (256 ≤ size)
  let r0 := modelRead s p image size
  let ok := r0.1
  let m := r0.2.1
  let ss := r0.2.2.1
  let bad := r0.2.2.2
  let a := placeModel s p slot (sectionBytes ss false) false
  let b := placeModel s p slot (sectionBytes ss true) true
  let good := range && image % 64 = 0
  endSwap c p slot image m ss
    (firstFault [(good && !ok, .descFault, 0x506), (image % 64 != 0, .alignFault, 0x520),
      (!range, .boundsFault, 0x531), (good && ok && (a.isNone || b.isNone), .quotaExceeded, 0x540),
      ((chosenMover s).isNone, .unrecovered, 0x150), (good && bad, .poisonConsumed, 0x550)])
    a b (if good then farNote p image (256 + 32 * ss.length) s else s)

/-- The chunks that a MODEL_SWAP writes. -/
def swapTouches (s : State) (x : Cmd) : List (Nat × Nat) :=
  let p := homeOf s x.fn
  let ss := (modelRead s p (field x 8 8) (field x 16 8)).2.2.1
  let l := fun (isLocal : Bool) => (placeModel s p (swapSlot x) (sectionBytes ss isLocal) isLocal).getD []
  (l false ++ l true).map fun c => (c * 2 ^ 21, 2 ^ 21)

def modelSwapEffect (c : Nat) (s : State) : State :=
  let x := cmdOf s c
  let p := homeOf s x.fn
  let image := field x 8 8
  let size := field x 16 8
  let slot := swapSlot x
  if ¬classReady s c 0x1A ∨ (startedBefore s c 0x04).any (fun d => (stepUses s d).1 = slot)
      ∨ (startedBefore s c 0x1A).any (fun d => swapSlot (cmdOf s d) = slot) then notTaken s
  else if 16 ≤ slot then fail c .descFault 0x601 s
  else withAccess (2 * c) p (swapTouches s x) (if farOk s p image size then [(image, size)] else []) (swapServed c x) s

/-- MODEL_SWAP (R290): a model slot filled from its image. -/
def execModelSwap (c : Nat) (s : State) : Host.Outcome State Fault Refusal := take (.modelSwap c) s (modelSwapEffect c)

end Sys2Proof.Machine
end

