-- ==== Sys2Proof/Machine/SecOps.lean ====
section
/-!
DEFINITION. Firmware images and slots (R473 to R477), and the claim table's sequencer (R511 to R515).
-/
namespace Sys2Proof

/-! ### Requests (R482, R485) -/

/-- The header of a management request from its 16 bytes: OP, and the rest with the session it came in. -/
def requestHeader (sess : Nat) (b : List Byte) : Nat × Req :=
  let n := leNat b
  (bits n 0 32, { sess := sess, seq := BitVec.ofNat 32 (bits n 32 32), len := bits n 64 32, rest := BitVec.ofNat 32 (bits n 96 32) })

/-- A header that R482 bars: LENGTH above 4,096, or reserved bytes that are not 0. -/
def Req.malformed (q : Req) : Bool := decide (4096 < q.len) || q.rest != 0

/-- `n` bytes of PART_CREATE's parameters from byte `lo`. -/
def PartParams.field (a : PartParams) (lo n : Nat) : Nat := leNat ((a.block.drop lo).take n)

def PartParams.cores (a : PartParams) : W64 := BitVec.ofNat 64 (a.field 0 8)
def PartParams.chunks (a : PartParams) : Nat := a.field 8 4
def PartParams.far (a : PartParams) : Nat := a.field 12 4
def PartParams.sems (a : PartParams) : Nat := a.field 16 2
def PartParams.share (a : PartParams) : Nat := bits (a.field 18 2) 0 11
def PartParams.cap (a : PartParams) : Bool := bit (a.field 18 2) 15
def PartParams.kvq (a : PartParams) : Nat := a.field 20 4
def PartParams.slotq (a : PartParams) : Nat := a.field 24 2
def PartParams.dircap (a : PartParams) : Nat := a.field 26 2
def PartParams.pool (a : PartParams) : Nat := a.field 28 2
def PartParams.saveSlots (a : PartParams) : Nat := a.field 30 1
def PartParams.ibudget (a : PartParams) : Nat := a.field 31 1
def PartParams.stackMode (a : PartParams) : BitVec 8 := BitVec.ofNat 8 (a.field 32 1)
def PartParams.domain (a : PartParams) : Nat := a.field 36 2
def PartParams.journal (a : PartParams) : Nat := a.field 38 2
def PartParams.firstVf (a : PartParams) : Nat := a.field 40 2
def PartParams.nvf (a : PartParams) : Nat := a.field 42 2
def PartParams.flags (a : PartParams) : Nat := a.field 47 1
def PartParams.staging (a : PartParams) : W64 := BitVec.ofNat 64 (a.field 48 8)

/-- Every reserved byte and bit is 0. -/
def PartParams.reservedZero (a : PartParams) : Bool :=
  bits (a.field 18 2) 11 4 = 0 && a.field 33 3 = 0 && a.field 44 3 = 0 && a.field 56 72 = 0 && decide (a.flags ≤ 1)

end Sys2Proof

namespace Sys2Proof.Machine

/-! ### Images (R473, R474) -/

def imgField (im : Image) (lo n : Nat) : Nat := leNat ((im.bytes.drop lo).take n)
def imgType (im : Image) : Nat := imgField im 4 1
def imgKey (im : Image) : Nat := imgField im 5 1
def imgSvn (im : Image) : Nat := imgField im 6 2
def imgVersion (im : Image) : Nat := imgField im 8 4
def imgPayload (im : Image) : List Byte := (im.bytes.drop 1024).take (imgField im 12 4)

def minSvn (s : State) (t : Nat) : Nat := (tabGet 0 s.sec.minSvn t).toNat

/-- SIZE: a multiple of 64, at most 16 MiB, and the payload has that length (R473). -/
def imgSizeOk (im : Image) : Bool :=
  let n := imgField im 12 4
  n % 64 = 0 && decide (n ≤ 2 ^ 24) && im.bytes.length = 1024 + n

/-- SEC_BOOT.ERROR of an image checked as type `t` (R474, R496): 0 when it is valid. -/
def imageError (s : State) (t : Nat) (im : Image) : Nat :=
  if ¬imgSizeOk im ∨ imgField im 0 4 ≠ 0x4D494653 ∨ imgType im ≠ t ∨ imgField im 80 432 ≠ 0 ∨ 64 ≤ imgSvn im then 1
  else if 3 < imgKey im ∨ Config.sha512 im.key ≠ Config.fusedKeyHash (imgKey im) then 2
  else if s.sec.revoked.getLsbD (imgKey im) then 3
  else if ¬Config.rsaVerify im.key (im.bytes.take 512) ((im.bytes.drop 512).take 512) then 4
  else if imgSvn im < minSvn s t then 5
  else if imgField im 16 64 ≠ Config.sha512 (imgPayload im) then 6
  else 0

/-- The image of type `t` in a slot; a slot never written holds the factory set (log 14). -/
def slotImage (sl : FwSlot) (t : Nat) : Image :=
  (sl.images.find? fun im => imgType im = t).getD { bytes := Config.factoryImage t, key := [] }

/-- The order in which boot checks the images (R475). -/
def bootOrder : List Nat := [0, 1, 2, 5, 6, 7, 3, 4]

/-- The error of the factory set's image of type `t`: it passes but for a revoked key and the minimum SVNs (R474, R477, log 14). -/
def factoryError (s : State) (t : Nat) : Nat :=
  let im : Image := { bytes := Config.factoryImage t, key := [] }
  if s.sec.revoked ≠ 0 ∧ s.sec.revoked.getLsbD (imgKey im) then 3 else if imgSvn im < minSvn s t then 5 else 0

/-- The error of a slot's image of type `t`. -/
def slotImageError (s : State) (sl : FwSlot) (t : Nat) : Nat :=
  if sl.images = [] then factoryError s t else imageError s t (slotImage sl t)

/-- The first image of a slot that does not pass, with its error. -/
def slotError (s : State) (sl : FwSlot) : Option (Nat × Nat) :=
  if ¬sl.valid then some (0, 1)
  else (bootOrder.map fun t => (t, slotImageError s sl t)).find? fun e => e.2 != 0

/-- The slot whose images run. -/
def bootedSlot (s : State) : FwSlot := if s.sec.bootSlotB then s.sec.slotB else s.sec.slotA

/-- The outcome of boot (R475, R476): the slot named, else the other, else recovery; in MANUFACTURE and RETURNED Turuno's own
firmware runs (R491). -/
def bootImages (s : State) : State :=
  if s.sec.lc = 0 ∨ s.sec.lc = 3 then s
  else
    let b := s.sec.bootB
    let one := fun (x : Bool) => slotError s (if x then s.sec.slotB else s.sec.slotA)
    let note := fun (e : Nat × Nat) (s : State) => { s with sec := { s.sec with
      failType := BitVec.ofNat 3 e.1, bootError := BitVec.ofNat 8 e.2 } }
    let runs := fun (x : Bool) (fb : Bool) (s : State) =>
      let sl := if x then s.sec.slotB else s.sec.slotA
      let vs := iter (fun t l => tabSet 0 l t (BitVec.ofNat 32 (imgVersion (slotImage sl t)))) 0 8 []
      let ns := iter (fun t l => tabSet 0 l t (BitVec.ofNat 6 (imgSvn (slotImage sl t)))) 0 8 []
      { s with sec := { s.sec with bootSlotB := x, fallback := fb, version := vs, bootedSvn := ns } }
    match one b, one (!b) with
    | none, _ => runs b false s
    | some e, none => runs (!b) true (note e s)
    | some e, some _ => note e { s with sec := { s.sec with fallback := true, recovery := true } }

/-! ### The claim table (R508, R511 to R515) -/

/-- Functions that a pin offers to software (R508); SMB_CLK and SMB_DAT are by strap only. -/
def pinFuncs (n : Nat) : List Nat :=
  match n with
  | 0 => [1] | 1 => [1] | 2 => [1, 3] | 3 => [1, 4] | 4 => [1, 5] | 5 => [1, 6, 5] | 6 => [1, 7] | 7 => [1, 4] | _ => []

/-- The claims of a strap sample (R503). -/
def strapClaims (straps : BitVec 5) : Tab Claim :=
  (if straps.getLsbD 2 then [(0, ⟨2, 1, 0⟩), (1, ⟨2, 1, 0⟩)] else [])
    ++ (if straps.getLsbD 3 then [(2, ⟨3, 1, 0⟩)] else [])
    ++ (if straps.getLsbD 4 then [(4, ⟨5, 1, 0⟩)] else [])
    ++ [(0x40, ⟨0, 2, 0⟩), (0x41, ⟨0, 2, 0⟩)]
    ++ (if straps.getLsbD 0 then [(0xC1, ⟨1, 1, 0⟩)] else [])

/-- Another pin on which a function is placed (R512); GPIO is each pin's own. -/
def placedOn (s : State) (n func : Nat) : Option Nat :=
  if func = 1 then none
  else findFrom (fun m => m != n && (claimOf s m).owner != 0 && (claimOf s m).func = func) 0 8

/-- CLM_RESULT: status, the resource that decided, and its holder (R517). -/
def claimResult (st id : Nat) (s : State) : State :=
  let c := claimOf s id
  let v := st * 2 ^ 24 + id * 2 ^ 16 + c.owner * 2 ^ 8 + (if c.owner = 4 then c.part else 0)
  { s with rst := { s.rst with clmResult := BitVec.ofNat 32 v } }

end Sys2Proof.Machine
end

