-- ==== Sys2Proof/Machine/Claims.lean ====
section
/-!
DEFINITION. The PF's claims and releases (R512, R514, R517) and the SMBus target (R508, R509).
-/
namespace Sys2Proof.Machine

/-- Resources that the PF may claim (R511): the sideband pins. -/
def pfMayClaim (id : Nat) : Bool := decide (id < 8)

def clmClaimEffect (v : W32) (s : State) : State :=
  let id := bits v.toNat 0 8
  let func := bits v.toNat 8 4
  if ¬hostUp s 0 then notTaken s
  else if 2 ^ 12 ≤ v.toNat then badAccess 0 s
  else if ¬pfMayClaim id then claimResult 0x11 id s
  else if ¬(pinFuncs id).contains func then claimResult 0x13 id s
  else if (claimOf s id).owner ≠ 0 then claimResult 0x31 id s
  else match placedOn s id func with
    | some m => claimResult 0x31 m s
    | none => claimResult 0 id (setClaim id { func := func, owner := 3 } s)

/-- CLM_CLAIM (R512): the PF claims a pin with a function; a claim that fails changes CLM_RESULT only. -/
def execClmClaim (v : W32) (s : State) : Host.Outcome State Fault Refusal := take (.clmClaim v) s (clmClaimEffect v)

def clmReleaseEffect (v : W32) (s : State) : State :=
  let id := bits v.toNat 0 8
  if ¬hostUp s 0 then notTaken s
  else if 2 ^ 8 ≤ v.toNat then badAccess 0 s
  else if (claimOf s id).owner ≠ 3 then claimResult 0x11 id s
  else claimResult 0 id (setClaim id {} s)

/-- CLM_RELEASE (R514): the PF releases what it owns. -/
def execClmRelease (v : W32) (s : State) : Host.Outcome State Fault Refusal := take (.clmRelease v) s (clmReleaseEffect v)

/-- The value of a command code (R509); PWR_POWER is 0 where Nutmeg serves the target. -/
def smbusValue (s : State) (code : Nat) : Option Nat :=
  if code < 0xBA then some (sensorReg s code)
  else if code = 0xC0 then some (thmShutdown s)
  else if code = 0xC1 then some (if s.rst.phase = .running ∨ s.rst.phase = .booting then pwrPower s else 0)
  else if code = 0xC2 then some (rstCause s)
  else none

/-- One bit of the CRC-8 of SMBus packet error checking: x^8 + x^2 + x + 1 (log 176). -/
def pecBit (c : Nat) : Nat := if 128 ≤ c then ((2 * c) % 256) ^^^ 7 else 2 * c

/-- The packet error code over the bytes of a transfer (SMBus 3.1). -/
def pec (bs : List Nat) : Nat := bs.foldl (fun c b => iter (fun _ c => pecBit c) 0 8 (c ^^^ b)) 0

/-- What the target returns: the bytes, then the packet error code over address 0x4E, command code and bytes, where the controller asks for
it (R509). -/
def smbusReply (code : Nat) (bs : List Byte) : Reply :=
  .smbus bs (BitVec.ofNat 8 (pec ([0x9C, code, 0x9D] ++ bs.map (·.toNat))))

/-- An SMBus read: answered while SB0 and SB1 are the SMBus pins and the module has power. -/
def smbusRead (code : Nat) (bytes : Nat → List Byte) (s : State) : State :=
  if s.rst.phase = .off ∨ ¬s.rst.straps.getLsbD 2 then setReply .nack s
  else match smbusValue s code with
    | none => setReply .nack s
    | some v => setReply (smbusReply code (bytes v)) s

def smbusReadByteEffect (code : Nat) (s : State) : State := smbusRead code (natLe 1) s

/-- SMBus Read Byte (R509): byte 0. -/
def execSmbusReadByte (code : Nat) (s : State) : Host.Outcome State Fault Refusal := take (.smbusReadByte code) s (smbusReadByteEffect code)

def smbusReadWordEffect (code : Nat) (s : State) : State := smbusRead code (natLe 2) s

/-- SMBus Read Word (R509): bytes 1:0. -/
def execSmbusReadWord (code : Nat) (s : State) : Host.Outcome State Fault Refusal := take (.smbusReadWord code) s (smbusReadWordEffect code)

def smbusBlockReadEffect (code : Nat) (s : State) : State := smbusRead code (fun v => natLe 1 4 ++ natLe 4 v) s

/-- SMBus Block Read (R509): a byte count of 4 and four bytes, little-endian. -/
def execSmbusBlockRead (code : Nat) (s : State) : Host.Outcome State Fault Refusal := take (.smbusBlockRead code) s (smbusBlockReadEffect code)

end Sys2Proof.Machine
end

