-- ==== Sys2Proof/Machine/CloveOps.lean ====
section
/-!
DEFINITION. What every Clove instruction shares (R218 to R230, R241 to R252): fetch at the program counter, registers with
their poison, the bank through the read buffer and the window, data memory, retirement, yields and faults.
-/
namespace Sys2Proof.Machine

/-! ### Programs -/

/-- A program on a Clove replaced; CLV_STATUS.POISON follows the running one (R252). -/
def setProg (g : Nat) (q : CloveProg) (s : State) : State :=
  modClove g (fun x => { x with progs := x.progs.map (fun p => if p.cmd = q.cmd then q else p)
                                poison := q.poisonSeen }) s

/-- The numeric flags of a BANK_RUN so far: those of its ended programs and of those it still has (R236). -/
def bankFlags (s : State) (c : Nat) : BitVec 4 :=
  s.clv.clove.foldl (fun g e =>
    ((e.2.progs ++ e.2.waiting).filter fun q => q.cmd = c).foldl (fun g q => g ||| q.numflags) g) (cmdOf s c).flags

/-- A program faults (R251, R252): every other program of the BANK_RUN stops, and the BANK_RUN completes. -/
def cloveFault (g : Nat) (q : CloveProg) (f : Flt) (s : State) : State :=
  let flags := bankFlags s q.cmd
  let s := modClove g (fun x => { x with
    faultStatus := BitVec.ofNat 8 (statusCode f.1), faultCause := BitVec.ofNat 12 f.2, faultPc := q.pc }) s
  let s := discardPrograms f.1 q.cmd s
  finish q.cmd f.1 f.2 0 q.launch flags s

/-! ### Scalar registers (R218, R247) -/

def xv (q : CloveProg) (i : Nat) : Nat := (tabGet 0 q.x i).toNat
def xp (q : CloveProg) (i : Nat) : Bool := tabGet false q.xPoison i

/-- A write of a scalar register with its poison; x0 stays zero. -/
def xset (i v : Nat) (p : Bool) (q : CloveProg) : CloveProg :=
  if i = 0 then q
  else { q with x := tabSet 0 q.x i (BitVec.ofNat 32 v), xPoison := tabSet false q.xPoison i p }

/-! ### Vector registers (R218, R224) -/

def vv (q : CloveProg) (i : Nat) : Nat := (tabGet 0 q.v i).toNat
def vmask (q : CloveProg) (i : Nat) : Byte := tabGet 0 q.vPoison i
def vp (q : CloveProg) (i : Nat) : Bool := vmask q i != 0

def vsetMask (i v : Nat) (m : Byte) (q : CloveProg) : CloveProg :=
  { q with v := tabSet 0 q.v i (BitVec.ofNat 512 v), vPoison := tabSet 0 q.vPoison i m }

/-- A result: every word poisoned, or none (R247). -/
def vset (i v : Nat) (p : Bool) (q : CloveProg) : CloveProg := vsetMask i v (if p then 0xFF else 0) q

/-- Lanes of a format (R224). -/
def fmtLanes : Fmt → Nat
  | .f64 => 8 | .f32 => 16 | .i32 => 16 | .bf16 => 32 | .f16 => 32 | .e16 => 32 | .f4 => 128 | .i4 => 128 | .t2 => 256
  | .w128 => 4 | _ => 64

/-- The lane codes of a register's contents. -/
def laneCodes (f : Fmt) (v : Nat) : List Nat := unpackCodes (fmtWidth f) (fmtLanes f) v

/-- A number with the 64-bit word `i` replaced. -/
def setWord64 (v i x : Nat) : Nat := v - bits v (64 * i) 64 * 2 ^ (64 * i) + x * 2 ^ (64 * i)

/-- A number with `w` bits from bit `lo` replaced. -/
def setBits (v lo w x : Nat) : Nat := v - bits v lo w * 2 ^ lo + x % 2 ^ w * 2 ^ lo

/-- Words of a register that bits lo to lo + w − 1 lie in. -/
def wordsOf (lo w : Nat) : List Nat := if w = 0 then [] else rangeFrom (lo / 64) ((lo + w - 1) / 64 - lo / 64 + 1)

/-! ### bvfmt (R223) -/

def fmtS0 (q : CloveProg) : Fmt := fmtOf (bits q.bvfmt.toNat 0 4)
def fmtS1 (q : CloveProg) : Fmt := fmtOf (bits q.bvfmt.toNat 4 4)
def fmtD (q : CloveProg) : Fmt := fmtOf (bits q.bvfmt.toNat 8 4)
def bvRound (q : CloveProg) : Nat := bits q.bvfmt.toNat 12 3
def sblk0 (q : CloveProg) : Nat := bits q.bvfmt.toNat 16 2
def sblk1 (q : CloveProg) : Nat := bits q.bvfmt.toNat 18 2

def bvRnd (q : CloveProg) : Rnd := { mode := bvRound q, seed := q.seed.toNat, stream := q.stream.toNat }

/-- The index of the k-th element an instruction rounds, and the indices used up in stochastic mode (R223). -/
def bvIndex (q : CloveProg) (k : Nat) : Nat := (q.lidx.toNat + k) % 2 ^ 48
def bvRounded (n : Nat) (q : CloveProg) : CloveProg :=
  if bvRound q = 4 then { q with lidx := q.lidx + BitVec.ofNat 48 n } else q

def bvNote (g : BitVec 4) (q : CloveProg) : CloveProg := { q with numflags := q.numflags ||| g }

/-! ### The bank (R229, R230, R247) -/

/-- Data and poison bits of sector `k` of bank `g` as the bank delivers it (R192). -/
def bankSector (s : State) (g k : Nat) : BitVec 512 × Byte :=
  let ws := (rangeFrom 0 8).map fun i => readWord s g (64 * k + 8 * i)
  (BitVec.ofNat 512 (leNat (ws.flatMap fun w => natLe 8 w.1)),
    BitVec.ofNat 8 (packCodes 1 (ws.map fun w => b01 (kindPoison w.2))))

def bufHas (q : CloveProg) (k : Nat) : Bool := q.readBufKeys.contains k

/-- The copy of a sector discarded. -/
def bufDrop (k : Nat) (q : CloveProg) : CloveProg :=
  { q with readBufKeys := q.readBufKeys.filter fun j => j != k
           readBuf := tabErase q.readBuf k, readBufPoison := tabErase q.readBufPoison k }

/-- A sector taken into the read buffer of 32; the oldest copy makes room. -/
def bufPut (k : Nat) (v : BitVec 512) (m : Byte) (q : CloveProg) : CloveProg :=
  let q := bufDrop k q
  let q := match q.readBufKeys with
    | j :: _ => if 32 ≤ q.readBufKeys.length then bufDrop j q else q
    | [] => q
  { q with readBufKeys := q.readBufKeys ++ [k], readBuf := tabSet 0 q.readBuf k v
           readBufPoison := tabSet 0 q.readBufPoison k m }

/-- A sector as the Clove sees it: its copy, otherwise the bank's. -/
def sectorView (s : State) (g : Nat) (q : CloveProg) (k : Nat) : BitVec 512 × Byte :=
  if bufHas q k then (tabGet 0 q.readBuf k, tabGet 0 q.readBufPoison k) else bankSector s g k

/-- The aligned word at a bank offset as the Clove sees it, with its poison. -/
def cloveWord (s : State) (g : Nat) (q : CloveProg) (off : Nat) : Nat × Bool :=
  let v := sectorView s g q (off / 64)
  (bits v.1.toNat (64 * (off % 64 / 8)) 64, v.2.getLsbD (off % 64 / 8))

/-- A sector held in the read buffer, read from the bank when it is not. -/
def takeSector (g k : Nat) (s : State) (q : CloveProg) : State × CloveProg :=
  if bufHas q k then (s, q)
  else let (v, m) := bankSector s g k; (lostTo q.cmd (readSectorNote q.part g (64 * k) s), bufPut k v m q)

/-- The words of a range of words, each with its poison. -/
def cloveWords (s : State) (g : Nat) (q : CloveProg) (off n : Nat) : List (Nat × Bool) :=
  (rangeFrom 0 n).map fun i => cloveWord s g q (off + 8 * i)

/-- Every byte of an access lies in the window (R230). -/
def windowOk (q : CloveProg) (off n : Nat) : Bool := decide (q.wbase ≤ off ∧ off + n ≤ q.wlim + 1)

/-- A store into one word of the bank (R194, R229, R247, R249), with any copy of it updated. -/
def cloveStore (g off lo : Nat) (bs : List Byte) (poison : Bool) (z : State × CloveProg) : State × CloveProg :=
  let (s, q) := z
  let s := noteWrote q.part 2 (dramKey g (off + lo)) bs.length
    (if poison then writeWordPoison g off lo bs s else writeWord g off lo bs s)
  let k := off / 64
  let i := off % 64 / 8
  let q := { q with storedPoison := q.storedPoison || poison }
  if ¬bufHas q k then (s, q)
  else
    let v := (tabGet 0 q.readBuf k).toNat
    let m := (tabGet 0 q.readBufPoison k).toNat
    let m' := if poison then setBits m i 1 1 else if bs.length = 8 then setBits m i 1 0 else m
    (s, { q with
      readBuf := tabSet 0 q.readBuf k (BitVec.ofNat 512 (setWord64 v i (mergeBytes (bits v (64 * i) 64) lo bs)))
      readBufPoison := tabSet 0 q.readBufPoison k (BitVec.ofNat 8 m') })

/-! ### Data memory (R218, R220) -/

def inDmem (a n : Nat) : Bool := decide (0x10000 ≤ a ∧ a + n ≤ 0x20000)
def inAperture (a n : Nat) : Bool := decide (0x80000000 ≤ a ∧ a + n ≤ 0x88000000)

/-- Data-memory bytes by local address, and whether a word among them is poisoned. -/
def dmemGet (q : CloveProg) (a n : Nat) : List Byte × Bool :=
  (bytesAt 0 q.dmem (a - 0x10000) n, (unitsOf 8 (a - 0x10000) n).any fun b => tabGet false q.dPoison (b / 8))

/-- Bytes written inside one word of data memory: a whole word takes the mark of its data, a part keeps one that is set. -/
def dmemPut (a : Nat) (bs : List Byte) (poison : Bool) (q : CloveProg) : CloveProg :=
  let o := a - 0x10000
  let old := tabGet false q.dPoison (o / 8)
  { q with dmem := putBytes 0 q.dmem o bs
           dPoison := tabSet false q.dPoison (o / 8) (poison || (old && bs.length != 8)) }

/-! ### Fetch and retirement (R219, R222, R226) -/

/-- The instruction at the program counter, 16 or 32 bits, with its length in bytes. -/
def instrAt (q : CloveProg) : Except Flt (Nat × Nat) :=
  let pc := q.pc.toNat
  let half := leNat (bytesAt 0 q.imem pc 2)
  let len := if half % 4 = 3 then 4 else 2
  if 0x4000 < pc + len then .error (.boundsFault, 0x230) else .ok (leNat (bytesAt 0 q.imem pc len), len)

def illegal {α : Type} : Except Flt α := .error (.descFault, 0x204)
def poisonUse {α : Type} : Except Flt α := .error (.poisonConsumed, 0x241)

/-- An instruction that uses poisoned scalars: any other fault of it, on the values as they stand, comes first (R10, R248). -/
def poisonLast {α : Type} (bad : Bool) (r : Except Flt α) : Except Flt α :=
  match r with
  | .error e => .error e
  | .ok a => if bad then poisonUse else .ok a

/-- An instruction retires: the counters of R223, cycles a free value (log 20). -/
def retireInstr (q : CloveProg) (s : State) : State × CloveProg :=
  let (k, s) := draw s
  (s, { q with stalled := false, instret := q.instret + 1, cycle := q.cycle + BitVec.ofNat 64 k })

/-! ### Yields (R239, R241 to R244) -/

/-- The suspension of a program's job is pending (R242, R244). -/
def suspendPending (s : State) (q : CloveProg) : Bool := (ringOf s q.fn (cmdOf s q.cmd).ring).job = .suspending

/-- Bytes written into a bank by a save, word by word. -/
def savePut (g off : Nat) (bs : List Byte) (s : State) : State :=
  foldState (pieces 8 (bs.length + 1) off bs) (fun (a, lo, w) s => writeWord g a lo w s) s

/-- Bytes of a save region whose layout is left open, as draw `k` gives them (log 62). -/
def openRegion (k off n : Nat) : List Byte := (rangeFrom off n).map (Config.freeByte k)

/-- The save image of R242 with `live` bytes of data memory. How accumulators and core state are laid out in their regions
is left open: their bytes are free. -/
def writeSave (g live : Nat) (accs : Bool) (q : CloveProg) (s : State) : State :=
  let k := s.freeCtr
  let put := fun (off : Nat) (bs : List Byte) s => savePut g (q.save + off) bs s
  let s := put 0 (bytesAt 0 q.dmem 0 live) { s with freeCtr := k + 2 }
  let s := if q.savedOnce then s else put 0x10000 (bytesAt 0 q.imem 0 0x4000) s
  let s := if accs then put 0x14000 (openRegion k 0x14000 0x2000) s else s
  let s := put 0x16000 ((rangeFrom 0 32).flatMap fun i => natLe 64 (vv q i)) s
  put 0x17000 ((rangeFrom 0 0x1000).map fun _ => 0) (put 0x16800 (openRegion k 0x16800 0x800) s)

/-- What a program resumes with after a save (R243): data memory beyond the live bytes zero, accumulators empty unless
saved, its read buffer empty. -/
def saveLoss (live : Nat) (accs : Bool) (q : CloveProg) : CloveProg :=
  { q with
    dmem := tabDrop q.dmem fun k => decide (live ≤ k)
    dPoison := tabDrop q.dPoison fun k => decide (live ≤ 8 * k)
    accs := if accs then q.accs else []
    readBuf := [], readBufKeys := [], readBufPoison := [], outstanding := [], savedOnce := true }

/-! ### Restoring a save image (R242 step 3) -/

/-- Bytes of a bank, and the words of 8 bytes among them that are delivered poisoned. -/
def bankBytes (s : State) (g off n : Nat) : List Byte × List Bool :=
  let ws := (rangeFrom 0 (ceilDiv n 8)).map fun i => readWord s g (off + 8 * i)
  ((ws.flatMap fun w => natLe 8 w.1).take n, ws.map fun w => kindPoison w.2)

/-- The flagged indices of a list. -/
def flagged (l : List Bool) : List Nat := (List.zip (rangeFrom 0 l.length) l).filterMap fun e => if e.2 then some e.1 else none

/-- A free number of `n` bytes out of draw `k`. -/
def freeWide (k at_ n : Nat) : Nat := leNat ((rangeFrom (at_ * 64) n).map (Config.freeByte k))

/-- The core state that a program has when its core-state region no longer holds what its save wrote: the layout is left open, so
every register in it is a free value. -/
def coreScrambled (k : Nat) (q : CloveProg) : CloveProg :=
  { q with
    pc := BitVec.ofNat 32 (freeWide k 0 4)
    x := (rangeFrom 1 31).foldl (fun t i => tabSet 0 t i (BitVec.ofNat 32 (freeWide k i 4))) []
    xPoison := (rangeFrom 1 31).foldl (fun t i => tabSet false t i (freeWide k (64 + i) 1 % 2 = 1)) []
    vPoison := (rangeFrom 0 32).foldl (fun t i => tabSet 0 t i (BitVec.ofNat 8 (freeWide k (96 + i) 1))) []
    dPoison := (rangeFrom 0 8192).foldl (fun t i => tabSet false t i (freeWide k (512 + i) 1 % 2 = 1)) []
    bvfmt := BitVec.ofNat 32 (freeWide k 32 4), bvc0 := BitVec.ofNat 32 (freeWide k 33 4)
    bvc1 := BitVec.ofNat 32 (freeWide k 34 4), lidx := BitVec.ofNat 48 (freeWide k 35 6)
    numflags := BitVec.ofNat 4 (freeWide k 36 1), poisonSeen := freeWide k 37 1 % 2 = 1
    cycle := BitVec.ofNat 64 (freeWide k 38 8), instret := BitVec.ofNat 64 (freeWide k 39 8) }

/-- A free anchor. -/
def freeAnchor (n : Nat) : Anchor := match n % 4 with | 0 => .none | 1 => .empty | _ => .fin (signed 12 (n / 4))

/-- The accumulators that a program has when their region no longer holds what its save wrote: free values. -/
def accsScrambled (k : Nat) (q : CloveProg) : CloveProg :=
  { q with accs := (rangeFrom 0 256).foldl (fun t i =>
      tabSet {} t i { acc := BitVec.ofNat 133 (freeWide k (256 + i) 17), anc := freeAnchor (freeWide k (9216 + i) 2) }) [] }

/-- The registers of the core-state region, or the accumulators, poisoned with their region. -/
def corePoisoned (q : CloveProg) : CloveProg :=
  { q with xPoison := (rangeFrom 1 31).foldl (fun t i => tabSet false t i true) q.xPoison, poisonSeen := true }
def accsPoisoned (q : CloveProg) : CloveProg :=
  { q with accs := tabMap {} q.accs fun _ a => { a with poison := true }, poisonSeen := true }

/-- Regions whose layout the spec gives: data memory, instruction memory and vector registers are those the save area holds, a
word that is delivered poisoned poisoned in its place. -/
def restoreLaid (s : State) (g : Nat) (m : SavedImage) (q : CloveProg) : CloveProg :=
  let d := bankBytes s g q.save m.live
  let im := bankBytes s g (q.save + 0x10000) 0x4000
  let v := (rangeFrom 0 32).map fun i => (i, bankBytes s g (q.save + 0x16000 + 64 * i) 64)
  { q with
    dmem := putBytes 0 [] 0 d.1
    dPoison := (flagged d.2).foldl (fun t i => tabSet false t i true) q.dPoison
    imem := putBytes 0 [] 0 im.1
    v := v.foldl (fun t e => tabSet 0 t e.1 (BitVec.ofNat 512 (leNat e.2.1))) []
    vPoison := v.foldl (fun t e => tabMod 0 t e.1 fun b => b ||| BitVec.ofNat 8 (packCodes 1 (e.2.2.map b01))) q.vPoison
    poisonSeen := q.poisonSeen || d.2.any (fun b => b) || v.any fun e => e.2.2.any fun b => b }

/-- Regions whose layout is left open: what the program had, while the region holds the bytes that its save wrote there. -/
def restoreOpen (s : State) (g : Nat) (m : SavedImage) (q : CloveProg) : CloveProg :=
  let a := bankBytes s g (q.save + 0x14000) 0x2000
  let c := bankBytes s g (q.save + 0x16800) 0x800
  let q := if c.1 = openRegion m.free 0x16800 0x800 then q else coreScrambled (m.free + 1) q
  let q := if c.2.any fun b => b then corePoisoned q else q
  if ¬m.accs then q
  else
    let q := if a.1 = openRegion m.free 0x14000 0x2000 then q else accsScrambled (m.free + 1) q
    if a.2.any fun b => b then accsPoisoned q else q

/-- A program as its Clove restores it from its save area (R242 step 3, log 62). -/
def restored (s : State) (g : Nat) (q : CloveProg) : CloveProg :=
  match q.saved with
  | none => q
  | some m => { restoreLaid s g m (restoreOpen s g m q) with saved := none }

/-- A command that runs, or a core with a RUN, by its key of `asked`. -/
def askLive (s : State) (key : Nat) : Bool :=
  if key % 2 = 0 then (cmdOf s (key / 2)).phase = .running && jobRuns s (cmdOf s (key / 2)) else coreLive (coreOf s (key / 2))

/-- A yield of bank `g` serves accesses that have still to be made: its program goes on after them (R239, R242). -/
def bankServing (s : State) (g : Nat) : Bool := (tabGet [] s.mem.serving g).any (askLive s)

/-- The program that Clove `g` executes at present. -/
def activeProg (s : State) (g : Nat) : Option CloveProg :=
  if running s && (cloveOf s g).state = .running && !(bankServing s g) then (runningProg (cloveOf s g)).map (restored s g) else none

/-! ### Switching out -/

/-- The running program is switched out, saved, and the next in round-robin order takes over (R242 step 3). -/
def switchOut (g live : Nat) (accs hold : Bool) (q : CloveProg) (s : State) : State :=
  let saved : SavedImage := { live := live, accs := accs, free := s.freeCtr }
  let s := writeSave g live accs q s
  let q' := { saveLoss live accs q with suspended := hold, saved := some saved }
  switchIn g (modClove g (fun x => cloveFront { x with
    progs := x.progs.filter (fun p => p.cmd != q.cmd) ++ [q'], switches := satAdd 32 x.switches 1 }) s)

/-- A yield point of the running program (R242), its save hint given (R243). -/
def yieldPoint (g live : Nat) (accs : Bool) (s : State) : State :=
  let s := serveDeferred g s
  match (runningProg (cloveOf s g)).map (restored s g) with
  | none => s
  | some q =>
    if suspendPending s q then switchOut g live accs true q s
    else if (cloveOf s g).progs.any fun p => !p.suspended && p.cmd != q.cmd then switchOut g live accs false q s
    else s

/-- A yield forced by the watchdog, with no hint (R241). -/
def forcedYield (g : Nat) (s : State) : State :=
  yieldPoint g 65536 true (modClove g (fun x => { x with forced := satAdd 32 x.forced 1, forcedPending := false }) s)

/-- After an instruction: a forced yield that waited for the boundary is made. -/
def boundary (g : Nat) (s : State) : State := if (cloveOf s g).forcedPending then forcedYield g s else s

/-- The shape of every Clove instruction: the instruction at the program counter is of the row, does `f` with the program
counter already advanced, and retires, stalls, or faults. -/
def cloveDo (g : Nat) (row : Nat → Bool) (f : Nat → CloveProg → State → Except Flt (State × CloveProg)) (s : State) :
    State :=
  match activeProg s g with
  | none => notTaken s
  | some q =>
    if q.stalled then notTaken s
    else match instrAt q with
      | .error _ => notTaken s
      | .ok (w, len) =>
        if ¬row w then notTaken s
        else match f w { q with pc := q.pc + BitVec.ofNat 32 len } s with
          | .error e => cloveFault g q e s
          | .ok (s, q') =>
            if q'.stalled then setProg g { q' with pc := q.pc } s
            else let (s, q') := retireInstr q' s; boundary g (setProg g q' s)

/-- An instruction that touches nothing but its program. -/
def clovePure (g : Nat) (row : Nat → Bool) (f : Nat → CloveProg → Except Flt CloveProg) (s : State) : State :=
  cloveDo g row (fun w q s => match f w q with | .error e => .error e | .ok q => .ok (s, q)) s

/-! ### Encodings of the bank-vector extension (R226) -/

def bvF0 (w : Nat) : Nat := bits w 7 5
def bvF1 (w : Nat) : Nat := bits w 15 5
def bvF2 (w : Nat) : Nat := bits w 20 5
def bvFunct3 (w : Nat) : Nat := bits w 12 3
def bvFunct7 (w : Nat) : Nat := bits w 25 7

/-- The memory instruction with this funct3 (R227). -/
def memRow (f3 : Nat) (w : Nat) : Bool := w % 128 = 0x0B && bvFunct3 w = f3

/-- The instruction of a major opcode with this funct7 (R227). -/
def bvRow (op f7 : Nat) (w : Nat) : Bool := w % 128 = op && bvFunct3 w = 0 && bvFunct7 w = f7

/-- The instruction has a row of its own among the bank-vector instructions. -/
def isBv (w : Nat) : Bool :=
  (w % 128 = 0x0B && decide (bvFunct3 w ≤ 5))
    || ((w % 128 = 0x2B) && bvFunct3 w = 0 && decide (bvFunct7 w ≤ 0x12))
    || ((w % 128 = 0x5B) && bvFunct3 w = 0 && decide (bvFunct7 w ≤ 7))
    || ((w % 128 = 0x7B) && bvFunct3 w = 0 && decide (bvFunct7 w ≤ 1))

end Sys2Proof.Machine
end

