-- ==== Sys2Proof/Machine/CloveVec.lean ====
section
/-!
DEFINITION. The compute instructions of the bank-vector extension (R224 to R227, R247), opcode 0x2B.
-/
namespace Sys2Proof.Machine

def formatFault {α : Type} : Except Flt α := .error (.formatFault, 0x210)

/-- Lane values of a register in a format; T2 code 0b10 faults (R225). -/
def laneVals (f : Fmt) (v : Nat) : Except Flt (List Val) :=
  match codeVals f (laneCodes f v) with
  | some vs => .ok vs
  | none => .error (.formatFault, 0x213)

/-- Lane codes packed into a register's contents. -/
def packLanes (f : Fmt) (cs : List Nat) : Nat := packCodes (fmtWidth f) cs

/-- Lanes rounded to a format in bvfmt.ROUND, with the operand NaNs of each lane and the flags of what was rounded before: contents and
flags (R65, R223). -/
def roundLanes (q : CloveProg) (f : Fmt) (rs : List (Val × Bool × BitVec 4)) : List Nat × BitVec 4 :=
  let es := List.zipWith (fun (k : Nat) (r : Val × Bool × BitVec 4) =>
    let (c, g) := encodeVal f (bvRnd q) (bvIndex q k) r.1
    (c, g ||| r.2.2 ||| nanFlags r.2.1 r.1)) (rangeFrom 0 rs.length) rs
  (es.map (·.1), es.foldl (fun g e => g ||| e.2) 0)

/-- A lane function with no operand but its lanes and no rounding but the last. -/
def laneOnly : CloveProg → Val → Val → Bool × BitVec 4 := fun _ _ _ => (false, 0)

/-- An elementwise instruction of two sources in one format. `rounds`: its results are rounded (R223); `more`: a further operand
is NaN, and the flags of a rounding before the last (R65). -/
def bvTwo (fs : List Fmt) (rounds : Bool) (more : CloveProg → Val → Val → Bool × BitVec 4) (fn : CloveProg → Val → Val → Val)
    (w : Nat) (q : CloveProg) : Except Flt CloveProg :=
  let f := fmtD q
  let a := bvF1 w
  let b := bvF2 w
  if ¬(fmtS0 q = f ∧ fmtS1 q = f ∧ fs.contains f) then formatFault
  else match laneVals f (vv q a), laneVals f (vv q b) with
    | .ok as, .ok bs =>
      let rs := List.zipWith (fun x y => (fn q x y, valIsNan x || valIsNan y || (more q x y).1, (more q x y).2)) as bs
      let (cs, g) := roundLanes q f rs
      let q' := if rounds then bvRounded (fmtLanes f) q else q
      .ok (bvNote g (vset (bvF0 w) (packLanes f cs) (vp q a || vp q b) q'))
    | .error e, _ => .error e
    | _, .error e => .error e

/-- An elementwise function of one source, S0 = D; `pre`: the flags of a rounding before the last (R65). -/
def bvOne (fs : List Fmt) (pre : Val → BitVec 4) (fn : Val → Val) (w : Nat) (q : CloveProg) : Except Flt CloveProg :=
  let f := fmtD q
  let a := bvF1 w
  if bvF2 w ≠ 0 then illegal
  else if ¬(fmtS0 q = f ∧ fs.contains f) then formatFault
  else match laneVals f (vv q a) with
    | .error e => .error e
    | .ok as =>
      let (cs, g) := roundLanes q f (as.map fun x => (fn x, valIsNan x, pre x))
      .ok (bvNote g (vset (bvF0 w) (packLanes f cs) (vp q a) (bvRounded (fmtLanes f) q)))

def arithFmts : List Fmt := [.f64, .f32, .bf16, .f16]
def expFmts : List Fmt := [.f32, .bf16, .f16]

def bvAddEffect (g : Nat) (s : State) : State :=
  clovePure g (bvRow 0x2B 0x00) (bvTwo arithFmts true laneOnly fun _ => valAdd) s
/-- BV.ADD (R227). -/
def execBvAdd (g : Nat) (s : State) : Host.Outcome State Fault Refusal := take (.bvAdd g) s (bvAddEffect g)

def bvSubEffect (g : Nat) (s : State) : State :=
  clovePure g (bvRow 0x2B 0x01) (bvTwo arithFmts true laneOnly fun _ x y => valAdd x (valNeg y)) s
/-- BV.SUB (R227). -/
def execBvSub (g : Nat) (s : State) : Host.Outcome State Fault Refusal := take (.bvSub g) s (bvSubEffect g)

def bvMulEffect (g : Nat) (s : State) : State :=
  clovePure g (bvRow 0x2B 0x02) (bvTwo arithFmts true laneOnly fun _ => valMul) s
/-- BV.MUL (R227). -/
def execBvMul (g : Nat) (s : State) : Host.Outcome State Fault Refusal := take (.bvMul g) s (bvMulEffect g)

def bvMaxEffect (g : Nat) (s : State) : State :=
  clovePure g (bvRow 0x2B 0x03) (bvTwo arithFmts false laneOnly fun _ => valMax) s
/-- BV.MAX (R71, R227). -/
def execBvMax (g : Nat) (s : State) : Host.Outcome State Fault Refusal := take (.bvMax g) s (bvMaxEffect g)

def bvMinEffect (g : Nat) (s : State) : State :=
  clovePure g (bvRow 0x2B 0x04) (bvTwo arithFmts false laneOnly fun _ => valMin) s
/-- BV.MIN (R71, R227). -/
def execBvMin (g : Nat) (s : State) : Host.Outcome State Fault Refusal := take (.bvMin g) s (bvMinEffect g)

def bvExp2Effect (g : Nat) (s : State) : State := clovePure g (bvRow 0x2B 0x05) (bvOne expFmts (fun _ => 0) valExp2) s
/-- BV.EXP2 (R71, R227). -/
def execBvExp2 (g : Nat) (s : State) : Host.Outcome State Fault Refusal := take (.bvExp2 g) s (bvExp2Effect g)

/-- The flags of EXP2SUB's difference (R65). -/
def subPre : CloveProg → Val → Val → Bool × BitVec 4 := fun _ x y => (false, f32Over (valAdd x (valNeg y)))

def bvExp2subEffect (g : Nat) (s : State) : State :=
  clovePure g (bvRow 0x2B 0x06) (bvTwo expFmts true subPre fun _ x y => valExp2 (toF32 (valAdd x (valNeg y)))) s
/-- BV.EXP2SUB (R227): the difference is rounded to F32 first, to nearest even (log 149). -/
def execBvExp2sub (g : Nat) (s : State) : Host.Outcome State Fault Refusal := take (.bvExp2sub g) s (bvExp2subEffect g)

def bvRcpEffect (g : Nat) (s : State) : State :=
  clovePure g (bvRow 0x2B 0x07) (bvOne [.f32] (fun x => f32Over (valRcp x)) fun x => toF32 (valRcp x)) s
/-- BV.RCP (R71, R227): to nearest even, whatever bvfmt.ROUND. -/
def execBvRcp (g : Nat) (s : State) : Host.Outcome State Fault Refusal := take (.bvRcp g) s (bvRcpEffect g)

/-- A multiplier of BV.MIX2 is NaN. -/
def mixNan : CloveProg → Val → Val → Bool × BitVec 4 :=
  fun q _ _ => (valIsNan (f32Val q.bvc0.toNat) || valIsNan (f32Val q.bvc1.toNat), 0)

def bvMix2Effect (g : Nat) (s : State) : State :=
  clovePure g (bvRow 0x2B 0x08) (bvTwo [.f32] true mixNan fun q x y =>
    valMix (decodeFloat .f32 q.bvc0.toNat) x (decodeFloat .f32 q.bvc1.toNat) y) s
/-- BV.MIX2 (R68, R227): c0 × vs1 + c1 × vs2, formed exactly and rounded once. -/
def execBvMix2 (g : Nat) (s : State) : Host.Outcome State Fault Refusal := take (.bvMix2 g) s (bvMix2Effect g)

/-! ### Conversion -/

/-- Conversions of R141 without W128, S8 and E16. -/
def cvtOk (a b : Fmt) : Bool :=
  let num : Fmt → Bool := fun f => fmtIsFloat f || fmtIsInt f || f = .t2
  num a && num b && (b != .t2 || a = .t2)

/-- Poison bits of a register of which bits lo to lo + w − 1 receive clean data: words covered whole are clean. -/
def partMask (m : Byte) (lo w : Nat) : Byte :=
  BitVec.ofNat 8 (packCodes 1 ((rangeFrom 0 8).map fun i =>
    if lo ≤ 64 * i ∧ 64 * i + 64 ≤ lo + w then 0 else b01 (m.getLsbD i)))

def cvtExec (w : Nat) (q : CloveProg) : Except Flt CloveProg :=
  let es := fmtLanes (fmtS0 q)
  let ed := fmtLanes (fmtD q)
  let p := bvF2 w
  let a := bvF1 w
  let d := bvF0 w
  let quot := if ed ≤ es then es / ed else ed / es
  if quot ≤ p then illegal
  else if ¬cvtOk (fmtS0 q) (fmtD q) then formatFault
  else match laneVals (fmtS0 q) (vv q a) with
    | .error e => .error e
    | .ok vs =>
      let src := if ed ≤ es then (vs.drop (p * ed)).take ed else vs
      let (cs, g) := roundLanes q (fmtD q) (src.map fun x => (x, valIsNan x, 0))
      let q' := bvNote g (bvRounded src.length q)
      if ed ≤ es then .ok (vset d (packLanes (fmtD q) cs) (vp q a) q')
      else
        let k := es * fmtWidth (fmtD q)
        let v := setBits (vv q d) (p * k) k (packLanes (fmtD q) cs)
        let v := if fmtWidth (fmtD q) = 6 then v % 2 ^ 384 else v
        .ok (vsetMask d v (if vp q a then 0xFF else partMask (vmask q d) (p * k) k) q')

def bvCvtEffect (g : Nat) (s : State) : State := clovePure g (bvRow 0x2B 0x09) cvtExec s
/-- BV.CVT (R64, R227). -/
def execBvCvt (g : Nat) (s : State) : Host.Outcome State Fault Refusal := take (.bvCvt g) s (bvCvtEffect g)

/-! ### Masks, broadcast, extract and insert -/

/-- A copy of vs1 in D with the lanes that `cut` names set to −∞. -/
def maskExec (cut : Nat → Nat → Bool) (w : Nat) (q : CloveProg) : Except Flt CloveProg :=
  let f := fmtD q
  let a := bvF1 w
  let b := bvF2 w
  if ¬expFmts.contains f then formatFault
  else
    let cs := List.zipWith (fun (k : Nat) c => if cut (xv q b) k then signBit f true + infCode f else c)
      (rangeFrom 0 (fmtLanes f)) (laneCodes f (vv q a))
    .ok (vset (bvF0 w) (packLanes f cs) (vp q a || xp q b) q)

def bvLimitEffect (g : Nat) (s : State) : State :=
  clovePure g (bvRow 0x2B 0x0A) (maskExec fun x k => decide (signed 32 x ≤ (k : Int))) s
/-- BV.LIMIT (R227): lanes at or above a signed count become −∞. -/
def execBvLimit (g : Nat) (s : State) : Host.Outcome State Fault Refusal := take (.bvLimit g) s (bvLimitEffect g)

def bvMaskbEffect (g : Nat) (s : State) : State := clovePure g (bvRow 0x2B 0x0B) (maskExec fun x k => !(bit x k)) s
/-- BV.MASKB (R227): lanes whose bit is 0 become −∞. -/
def execBvMaskb (g : Nat) (s : State) : Host.Outcome State Fault Refusal := take (.bvMaskb g) s (bvMaskbEffect g)

def bcastExec (w : Nat) (q : CloveProg) : Except Flt CloveProg :=
  let f := fmtD q
  let a := bvF1 w
  if bvF2 w ≠ 0 then illegal
  else .ok (vset (bvF0 w) (packLanes f ((rangeFrom 0 (fmtLanes f)).map fun _ => xv q a)) (xp q a) q)

def bvBcastEffect (g : Nat) (s : State) : State := clovePure g (bvRow 0x2B 0x0C) bcastExec s
/-- BV.BCAST (R227). -/
def execBvBcast (g : Nat) (s : State) : Host.Outcome State Fault Refusal := take (.bvBcast g) s (bvBcastEffect g)

/-- Register and bit position of element `i` of a group from register `r`; none beyond v31 (R227). -/
def elemPlace (f : Fmt) (r i : Nat) : Option (Nat × Nat) :=
  let e := fmtLanes f
  if 31 < r + i / e then none else some (r + i / e, i % e * fmtWidth f)

/-- A word among those that hold w bits from lo is poisoned. -/
def wordsPoison (m : Byte) (lo w : Nat) : Bool := (wordsOf lo w).any fun i => m.getLsbD i

def extExec (w : Nat) (q : CloveProg) : Except Flt CloveProg :=
  let f := fmtS0 q
  let b := bvF2 w
  if 32 < fmtWidth f then (match elemPlace f (bvF1 w) (xv q b) with | none => illegal | some _ => formatFault)
  else match elemPlace f (bvF1 w) (xv q b) with
    | none => illegal
    | some (r, lo) =>
      if f = .t2 ∧ bits (vv q r) lo 2 = 2 then .error (.formatFault, 0x213)
      else .ok (xset (bvF0 w) (bits (vv q r) lo (fmtWidth f)) (xp q b || wordsPoison (vmask q r) lo (fmtWidth f)) q)

def bvExtEffect (g : Nat) (s : State) : State := clovePure g (bvRow 0x2B 0x0D) extExec s
/-- BV.EXT (R227). -/
def execBvExt (g : Nat) (s : State) : Host.Outcome State Fault Refusal := take (.bvExt g) s (bvExtEffect g)

def insExec (w : Nat) (q : CloveProg) : Except Flt CloveProg :=
  let f := fmtD q
  let a := bvF1 w
  let b := bvF2 w
  if 32 < fmtWidth f then (match elemPlace f (bvF0 w) (xv q b) with | none => illegal | some _ => formatFault)
  else match elemPlace f (bvF0 w) (xv q b) with
    | none => illegal
    | some (r, lo) =>
      let v := setBits (vv q r) lo (fmtWidth f) (xv q a)
      .ok (vsetMask r (if fmtWidth f = 6 then v % 2 ^ 384 else v) (if xp q a || xp q b then 0xFF else vmask q r) q)

def bvInsEffect (g : Nat) (s : State) : State := clovePure g (bvRow 0x2B 0x0E) insExec s
/-- BV.INS (R224, R227): the other elements and their poison stay; bits 511:384 of an F6 row are written as zero. -/
def execBvIns (g : Nat) (s : State) : Host.Outcome State Fault Refusal := take (.bvIns g) s (bvInsEffect g)

/-! ### Maxima -/

def rmaxExec (w : Nat) (q : CloveProg) : Except Flt CloveProg :=
  let a := bvF1 w
  if bvF2 w ≠ 0 then illegal
  else if fmtS0 q ≠ .f32 then formatFault
  else match laneVals .f32 (vv q a) with
    | .error e => .error e
    | .ok [] => .ok q
    | .ok (v :: vs) =>
      let m := vs.foldl valMax v
      .ok (bvNote (nanFlags ((v :: vs).any valIsNan) m)
        (xset (bvF0 w) (encodeVal .f32 rne 0 m).1 (vp q a) q))

def bvRmaxEffect (g : Nat) (s : State) : State := clovePure g (bvRow 0x2B 0x0F) rmaxExec s
/-- BV.RMAX (R227). -/
def execBvRmax (g : Nat) (s : State) : Host.Outcome State Fault Refusal := take (.bvRmax g) s (bvRmaxEffect g)

/-- Whether a scale block code may go with a format (R43, R225). -/
def scalesOk (f : Fmt) (sblk : Nat) : Bool := sblkSize sblk = 0 || fmtScalable f

/-- Values of `n` registers from `r`, scaled from the bytes of register `sr` (R225). -/
def groupVals (q : CloveProg) (f : Fmt) (sblk sr r n : Nat) : Except Flt (List Val) :=
  match codeVals f ((rangeFrom r n).flatMap fun i => laneCodes f (vv q i)) with
  | none => .error (.formatFault, 0x213)
  | some vs => .ok (scaleLine (sblkSize sblk) ((natLe 64 (vv q sr)).map (·.toNat)) vs)

/-- Poison among `n` registers from `r` and their scales. -/
def groupPoison (q : CloveProg) (sblk sr r n : Nat) : Bool :=
  ((rangeFrom r n).any fun i => vp q i) || (sblkSize sblk != 0 && vp q sr)

def emaxFmt (f : Fmt) : Bool := f != .s8 && f != .e16 && f != .w128

def emaxExec (w : Nat) (q : CloveProg) : Except Flt CloveProg :=
  let f := fmtS0 q
  let n := bvF2 w + 1
  let a := bvF1 w
  if 32 < a + n then illegal
  else if ¬(emaxFmt f && scalesOk f (sblk0 q) && (sblkSize (sblk0 q) = 0 || n = 1)) then formatFault
  else match groupVals q f (sblk0 q) 30 a n with
    | .error e => .error e
    | .ok vs =>
      .ok (xset (bvF0 w) (unsigned 32 (e16Of (maxExpOf vs)).toInt) (groupPoison q (sblk0 q) 30 a n) q)

def bvEmaxEffect (g : Nat) (s : State) : State := clovePure g (bvRow 0x2B 0x10) emaxExec s
/-- BV.EMAX (R47, R227). -/
def execBvEmax (g : Nat) (s : State) : Host.Outcome State Fault Refusal := take (.bvEmax g) s (bvEmaxEffect g)

def emaxlExec (w : Nat) (q : CloveProg) : Except Flt CloveProg :=
  let f := fmtS0 q
  let a := bvF1 w
  let d := bvF0 w
  let p := bvF2 w
  if fmtLanes f ≤ 32 * p then illegal
  else if ¬(emaxFmt f && scalesOk f (sblk0 q)) then formatFault
  else match groupVals q f (sblk0 q) 30 a 1 with
    | .error e => .error e
    | .ok vs =>
      let es := List.zipWith (fun (k : Nat) c =>
        (e16Of (maxExp (e16Exp (BitVec.ofNat 16 c)) (valExp (vs.getD (32 * p + k) valZero)))).toNat)
        (rangeFrom 0 32) (laneCodes .e16 (vv q d))
      .ok (vset d (packLanes .e16 es) (groupPoison q (sblk0 q) 30 a 1 || vp q d) q)

def bvEmaxlEffect (g : Nat) (s : State) : State := clovePure g (bvRow 0x2B 0x11) emaxlExec s
/-- BV.EMAXL (R227): lanes with no element of vs1 keep their maxima. -/
def execBvEmaxl (g : Nat) (s : State) : Host.Outcome State Fault Refusal := take (.bvEmaxl g) s (bvEmaxlEffect g)

def mvExec (w : Nat) (q : CloveProg) : Except Flt CloveProg :=
  if bvF2 w ≠ 0 then illegal else .ok (vsetMask (bvF0 w) (vv q (bvF1 w)) (vmask q (bvF1 w)) q)

def bvMvEffect (g : Nat) (s : State) : State := clovePure g (bvRow 0x2B 0x12) mvExec s
/-- BV.MV (R227): with poison bits. -/
def execBvMv (g : Nat) (s : State) : Host.Outcome State Fault Refusal := take (.bvMv g) s (bvMvEffect g)

end Sys2Proof.Machine
end

