-- ==== Sys2Proof/Machine/CloveAcc.lean ====
section
/-!
DEFINITION. The accumulation instructions of the bank-vector extension (R225, R227, R228, R247), opcode 0x5B.
-/
namespace Sys2Proof.Machine

/-- The three fields of x[xa]: accumulator index, reserved bits, anchor. -/
def accIndex (x : Nat) : Nat := bits x 0 8
def accReserved (x : Nat) : Bool := bits x 8 8 != 0

/-- The anchor field; 0x8000 is EMPTY, as in an E16 entry. -/
def accField (x : Nat) : Anchor := match e16Exp (BitVec.ofNat 16 (bits x 16 16)) with | none => .empty | some a => .fin a

def accGet (q : CloveProg) (i : Nat) : Acc := tabGet {} q.accs i
def accSet (i : Nat) (c : Acc) (q : CloveProg) : CloveProg := { q with accs := tabSet {} q.accs i c }

/-- A pair as a MAC pair: itself, or both of the wider format (R42, R225); none for a pair not accepted. -/
def macPair (a b : Fmt) : Option (Fmt × Fmt) :=
  let wide : Fmt → Bool := fun f => f = .bf16 || f = .f16 || f = .f32
  let narrow : Fmt → Bool := fun f => f = .f8e4 || f = .f8e5 || f = .f6e3 || f = .f6e2 || f = .f4
  if (pairRate a b).isSome then some (a, b)
  else if wide a && narrow b then some (a, a)
  else if narrow a && wide b then some (b, b)
  else none

/-- A finite non-zero product above its anchor (R228). -/
def productOver (anc : Anchor) (x y : Val) : Bool :=
  match valExp x, valExp y with
  | some a, some b => match anc with | .fin m => decide (m < a + b) | _ => true
  | _, _ => false

/-- x[xa] of an accumulation instruction, after the checks of its encoding (`bad`) and its reserved bits (R227); that it is poisoned
counts last (`poisonLast`). -/
def accStart (q : CloveProg) (xa : Nat) (bad : Bool) : Except Flt Nat :=
  if bad || accReserved (xv q xa) then illegal else .ok (xv q xa)

def rangeFault (x n : Nat) : Bool × Status × Nat := (decide (256 < accIndex x + n), .boundsFault, 0x230)

/-- Products of two rows added to accumulator `i` under `used`, its anchor latched or met; the anchor used, EMPTY included, is the
one that a product may not exceed (R228, R533). -/
def accRow (used : Anchor) (c : Acc) (xs ys : List Val) (poison : Bool) : Except Flt Acc :=
  if ¬anchorOk used then .error (.formatFault, 0x212)
  else match anchorMeet c.anc used with
    | none => .error (.formatFault, 0x212)
    | some m =>
      if (List.zipWith (productOver used) xs ys).any id then .error (.formatFault, 0x211)
      else match accDot m { c with anc := m, poison := c.poison || poison } xs ys with
        | some c => .ok c
        | none => .error (.formatFault, 0x211)

/-- NaN flags of products (R65). -/
def dotFlags (xs ys : List Val) : BitVec 4 :=
  (if xs.any valIsNan || ys.any valIsNan then flagNanIn else 0) ||| (if dotGenNan xs ys then flagNanGen else 0)

/-- Registers that an operand with `e` lanes takes beside one with `f` (R227). -/
def groupSize (e f : Nat) : Nat := if e < f then f / e else 1

def dothExec (w : Nat) (q : CloveProg) : Except Flt CloveProg :=
  poisonLast (xp q (bvF0 w)) <|
  let a := bvF1 w
  let b := bvF2 w
  let f := fmtS0 q
  let h := fmtS1 q
  let na := groupSize (fmtLanes f) (fmtLanes h)
  let nb := groupSize (fmtLanes h) (fmtLanes f)
  match accStart q (bvF0 w) (a % na != 0 || b % nb != 0) with
  | .error e => .error e
  | .ok x =>
    match macPair f h with
      | none => formatFault
      | some (mf, mh) =>
        if ¬(scalesOk f (sblk0 q) && scalesOk h (sblk1 q)) then formatFault
        else match groupVals q f (sblk0 q) 30 a na, groupVals q h (sblk1 q) 31 b nb with
          | .error e, _ => .error e
          | _, .error e => .error e
          | .ok xs, .ok ys =>
            let scaled := sblkSize (sblk0 q) != 0 || sblkSize (sblk1 q) != 0
            let used := match fixedAnchor mf mh scaled with | some m => Anchor.fin m | none => accField x
            let p := groupPoison q (sblk0 q) 30 a na || groupPoison q (sblk1 q) 31 b nb
            match accRow used (accGet q (accIndex x)) xs ys p with
            | .error e => .error e
            | .ok c => .ok (bvNote (dotFlags xs ys) (accSet (accIndex x) c q))

def bvDothEffect (g : Nat) (s : State) : State := clovePure g (bvRow 0x5B 0x00) dothExec s
/-- BV.DOTH (R225, R227, R228). -/
def execBvDoth (g : Nat) (s : State) : Host.Outcome State Fault Refusal := take (.bvDoth g) s (bvDothEffect g)

/-- Accumulators i, i + 1, … each given one product of `v` and a lane. -/
def macLanes (fixed : Option Int) (v : Val) (p : Bool) : Nat → List Val → CloveProg → Except Flt CloveProg
  | _, [], q => .ok q
  | i, y :: ys, q =>
    let c := accGet q i
    let used := match fixed with | some m => Anchor.fin m | none => c.anc
    if used = .none then .error (.formatFault, 0x212)
    else match accRow used c [v] [y] p with
      | .error e => .error e
      | .ok c => macLanes fixed v p (i + 1) ys (accSet i c q)

def maclExec (w : Nat) (q : CloveProg) : Except Flt CloveProg :=
  poisonLast (xp q (bvF0 w)) <|
  let a := bvF1 w
  let b := bvF2 w
  let f := fmtS0 q
  let h := fmtS1 q
  match accStart q (bvF0 w) false with
  | .error e => .error e
  | .ok x =>
    match macPair f h with
    | none => formatFault
    | some (mf, mh) =>
      if sblkSize (sblk0 q) ≠ 0 ∨ sblkSize (sblk1 q) ≠ 0 then formatFault
      else match decodeVal f (xv q b % 2 ^ fmtWidth f), laneVals h (vv q a) with
        | none, _ => .error (.formatFault, 0x213)
        | _, .error e => .error e
        | some v, .ok ys =>
          let run := macLanes (fixedAnchor mf mh false) v (xp q b || vp q a) (accIndex x) (ys.take (256 - accIndex x)) q
          match run with
          | .error e => .error e
          | .ok q' =>
            if 256 < accIndex x + ys.length then .error (.boundsFault, 0x230)
            else .ok (bvNote (dotFlags (ys.map fun _ => v) ys) q')

def bvMaclEffect (g : Nat) (s : State) : State := clovePure g (bvRow 0x5B 0x01) maclExec s
/-- BV.MACL (R227, R228). -/
def execBvMacl (g : Nat) (s : State) : Host.Outcome State Fault Refusal := take (.bvMacl g) s (bvMaclEffect g)

def sumhExec (w : Nat) (q : CloveProg) : Except Flt CloveProg :=
  poisonLast (xp q (bvF0 w)) <|
  let a := bvF1 w
  let n := bvF2 w + 1
  let f := fmtS0 q
  match accStart q (bvF0 w) (decide (32 < a + n)) with
  | .error e => .error e
  | .ok x =>
    if ¬(expFmts.contains f && sblkSize (sblk0 q) = 0) then formatFault
    else match groupVals q f 0 30 a n with
      | .error e => .error e
      | .ok xs =>
        let ones := xs.map fun _ => Val.fin ⟨1, 1⟩
        match accRow (accField x) (accGet q (accIndex x)) xs ones (groupPoison q 0 30 a n) with
        | .error e => .error e
        | .ok c => .ok (bvNote (dotFlags xs ones) (accSet (accIndex x) c q))

def bvSumhEffect (g : Nat) (s : State) : State := clovePure g (bvRow 0x5B 0x02) sumhExec s
/-- BV.SUMH (R72, R227, R228). -/
def execBvSumh (g : Nat) (s : State) : Host.Outcome State Fault Refusal := take (.bvSumh g) s (bvSumhEffect g)

/-- The sum of the anchor field and an E16 lane; EMPTY when either is. -/
def ancSum (f : Anchor) (e : Option Int) : Anchor :=
  match f, e with
  | .fin a, some b => .fin (a + b)
  | _, _ => .empty

def ancsetExec (w : Nat) (q : CloveProg) : Except Flt CloveProg :=
  poisonLast (xp q (bvF0 w)) <|
  let a := bvF1 w
  match accStart q (bvF0 w) (bvF2 w != 0) with
  | .error e => .error e
  | .ok x =>
      let i := accIndex x
      let as := (laneCodes .e16 (vv q a)).map fun c => ancSum (accField x) (e16Exp (BitVec.ofNat 16 c))
      match firstFault [(as.any (fun m => !(anchorOk m)), .formatFault, 0x212),
          ((rangeFrom i 32).any (fun k => (accGet q k).anc != .none), .formatFault, 0x212), rangeFault x 32] with
      | some e => .error e
      | none =>
        .ok ((List.zip (rangeFrom i 32) as).foldl (fun q e =>
          let c := accGet q e.1
          accSet e.1 { c with anc := e.2, poison := c.poison || vp q a } q) q)

def bvAncsetEffect (g : Nat) (s : State) : State := clovePure g (bvRow 0x5B 0x03) ancsetExec s
/-- BV.ANCSET (R227, R228). -/
def execBvAncset (g : Nat) (s : State) : Host.Outcome State Fault Refusal := take (.bvAncset g) s (bvAncsetEffect g)

/-- Accumulators emptied, with no anchor. -/
def accClear (i n : Nat) (q : CloveProg) : CloveProg :=
  { q with accs := tabDrop q.accs fun k => decide (i ≤ k ∧ k < i + n) }

/-- A NaN made by opposite infinities in an accumulator (R53, R65). -/
def accGen (c : Acc) : Bool := c.pinf && c.ninf && !c.nan

def accrdExec (keep : Bool) (w : Nat) (q : CloveProg) : Except Flt CloveProg :=
  poisonLast (xp q (bvF1 w)) <|
  let d := fmtD q
  let n := fmtLanes d
  let b := bvF2 w
  match accStart q (bvF1 w) false with
  | .error e => .error e
  | .ok x =>
    let i := accIndex x
    match firstFault [(!(fmtIsOutput d), .formatFault, 0x210),
        (d = .w128 && xv q b != 0x3F800000, .formatFault, 0x210), rangeFault x n] with
    | some e => .error e
    | none =>
      let cs := (rangeFrom i n).map (accGet q)
      let p := xp q b || cs.any (·.poison)
      let gen := if cs.any accGen then flagNanGen else 0
      let done := fun (q : CloveProg) => if keep then q else accClear i n q
      if d = .w128 then
        .ok (done (bvNote gen (vset (bvF0 w) (packLanes d (cs.map fun c => (accEntry c).1.toNat)) p q)))
      else
        let m := decodeFloat .f32 (xv q b)
        let (es, g) := roundLanes q d (cs.map fun c => (valMul m (accVal c), valIsNan m || c.nan || accGen c, 0))
        let g := (if valIsNan m then g ||| flagNanIn else g &&& ~~~flagNanIn) ||| gen
        .ok (done (bvNote g (vset (bvF0 w) (packLanes d es) p (bvRounded n q))))

def bvAccrdEffect (g : Nat) (s : State) : State := clovePure g (bvRow 0x5B 0x04) (accrdExec false) s
/-- BV.ACCRD (R227): rounded once, and emptied. -/
def execBvAccrd (g : Nat) (s : State) : Host.Outcome State Fault Refusal := take (.bvAccrd g) s (bvAccrdEffect g)

def bvAccrdkEffect (g : Nat) (s : State) : State := clovePure g (bvRow 0x5B 0x05) (accrdExec true) s
/-- BV.ACCRDK (R227): rounded once, and kept. -/
def execBvAccrdk (g : Nat) (s : State) : Host.Outcome State Fault Refusal := take (.bvAccrdk g) s (bvAccrdkEffect g)

def accrdaExec (w : Nat) (q : CloveProg) : Except Flt CloveProg :=
  poisonLast (xp q (bvF1 w)) <|
  match accStart q (bvF1 w) (bvF2 w != 0) with
  | .error e => .error e
  | .ok x =>
    let i := accIndex x
    if 256 < i + 32 then .error (.boundsFault, 0x230)
    else
      let cs := (rangeFrom i 32).map (accGet q)
      .ok (vset (bvF0 w) (packLanes .e16 (cs.map fun c => (accEntry c).2.toNat)) (cs.any (·.poison)) q)

def bvAccrdaEffect (g : Nat) (s : State) : State := clovePure g (bvRow 0x5B 0x06) accrdaExec s
/-- BV.ACCRDA (R56, R227). -/
def execBvAccrda (g : Nat) (s : State) : Host.Outcome State Fault Refusal := take (.bvAccrda g) s (bvAccrdaEffect g)

def accclrExec (w : Nat) (q : CloveProg) : Except Flt CloveProg :=
  poisonLast (xp q (bvF1 w) || xp q (bvF2 w)) <|
  let b := bvF2 w
  match accStart q (bvF1 w) (bvF0 w != 0) with
  | .error e => .error e
  | .ok x =>
      if 256 < accIndex x + xv q b then .error (.boundsFault, 0x230)
      else .ok (accClear (accIndex x) (xv q b) q)

def bvAccclrEffect (g : Nat) (s : State) : State := clovePure g (bvRow 0x5B 0x07) accclrExec s
/-- BV.ACCCLR (R227). -/
def execBvAccclr (g : Nat) (s : State) : Host.Outcome State Fault Refusal := take (.bvAccclr g) s (bvAccclrEffect g)

end Sys2Proof.Machine
end

