-- ==== Sys2Proof/Machine/CloveScalar.lean ====
section
/-!
DEFINITION. The scalar core of a Clove (R218 to R223): RV32IMC with Zicsr and the counters, the local address map, and
poison in scalar registers.
-/
namespace Sys2Proof.Machine

/-! ### Compressed instructions as the 32-bit instructions they stand for -/

def encI (op f3 rd rs1 imm : Nat) : Nat := op + rd * 2 ^ 7 + f3 * 2 ^ 12 + rs1 * 2 ^ 15 + imm % 2 ^ 12 * 2 ^ 20
def encR (op f3 f7 rd rs1 rs2 : Nat) : Nat := op + rd * 2 ^ 7 + f3 * 2 ^ 12 + rs1 * 2 ^ 15 + rs2 * 2 ^ 20 + f7 * 2 ^ 25
def encS (f3 rs1 rs2 imm : Nat) : Nat :=
  0x23 + bits imm 0 5 * 2 ^ 7 + f3 * 2 ^ 12 + rs1 * 2 ^ 15 + rs2 * 2 ^ 20 + bits imm 5 7 * 2 ^ 25
def encB (f3 rs1 rs2 imm : Nat) : Nat :=
  0x63 + bits imm 11 1 * 2 ^ 7 + bits imm 1 4 * 2 ^ 8 + f3 * 2 ^ 12 + rs1 * 2 ^ 15 + rs2 * 2 ^ 20 + bits imm 5 6 * 2 ^ 25
    + bits imm 12 1 * 2 ^ 31
def encJ (rd imm : Nat) : Nat :=
  0x6F + rd * 2 ^ 7 + bits imm 12 8 * 2 ^ 12 + bits imm 11 1 * 2 ^ 20 + bits imm 1 10 * 2 ^ 21 + bits imm 20 1 * 2 ^ 31
def encU (op rd imm20 : Nat) : Nat := op + rd * 2 ^ 7 + imm20 % 2 ^ 20 * 2 ^ 12

/-- The 6-bit immediate of the CI format, sign-extended into `w` bits. -/
def ciImm (h w : Nat) : Nat := unsigned w (signed 6 (bits h 12 1 * 32 + bits h 2 5))

/-- The offset of C.J and C.JAL. -/
def cjImm (h : Nat) : Nat :=
  unsigned 21 (signed 12 (bits h 12 1 * 2 ^ 11 + bits h 11 1 * 2 ^ 4 + bits h 9 2 * 2 ^ 8 + bits h 8 1 * 2 ^ 10
    + bits h 7 1 * 2 ^ 6 + bits h 6 1 * 2 ^ 7 + bits h 3 3 * 2 + bits h 2 1 * 2 ^ 5))

/-- The offset of C.BEQZ and C.BNEZ. -/
def cbImm (h : Nat) : Nat :=
  unsigned 13 (signed 9 (bits h 12 1 * 2 ^ 8 + bits h 10 2 * 2 ^ 3 + bits h 5 2 * 2 ^ 6 + bits h 3 2 * 2 + bits h 2 1 * 2 ^ 5))

/-- Quadrant 0. -/
def expand0 (h : Nat) : Option Nat :=
  let rd := 8 + bits h 2 3
  let rs := 8 + bits h 7 3
  let off := bits h 10 3 * 8 + bits h 6 1 * 4 + bits h 5 1 * 64
  match bits h 13 3 with
  | 0 =>
    let imm := bits h 11 2 * 16 + bits h 7 4 * 64 + bits h 6 1 * 4 + bits h 5 1 * 8
    if imm = 0 then none else some (encI 0x13 0 rd 2 imm)
  | 2 => some (encI 0x03 2 rd rs off)
  | 6 => some (encS 2 rs rd off)
  | _ => none

/-- Quadrant 1. -/
def expand1 (h : Nat) : Option Nat :=
  let rd := bits h 7 5
  let rc := 8 + bits h 7 3
  let rs2 := 8 + bits h 2 3
  match bits h 13 3 with
  | 0 => some (encI 0x13 0 rd rd (ciImm h 12))
  | 1 => some (encJ 1 (cjImm h))
  | 2 => some (encI 0x13 0 rd 0 (ciImm h 12))
  | 3 =>
    if bits h 12 1 * 32 + bits h 2 5 = 0 then none
    else if rd = 2 then
      some (encI 0x13 0 2 2 (unsigned 12 (signed 10 (bits h 12 1 * 2 ^ 9 + bits h 6 1 * 16 + bits h 5 1 * 64
        + bits h 3 2 * 128 + bits h 2 1 * 32))))
    else some (encU 0x37 rd (ciImm h 20))
  | 4 =>
    match bits h 10 2 with
    | 0 => if bit h 12 then none else some (encI 0x13 5 rc rc (bits h 2 5))
    | 1 => if bit h 12 then none else some (encI 0x13 5 rc rc (0x400 + bits h 2 5))
    | 2 => some (encI 0x13 7 rc rc (ciImm h 12))
    | _ =>
      if bit h 12 then none
      else match bits h 5 2 with
        | 0 => some (encR 0x33 0 0x20 rc rc rs2)
        | 1 => some (encR 0x33 4 0 rc rc rs2)
        | 2 => some (encR 0x33 6 0 rc rc rs2)
        | _ => some (encR 0x33 7 0 rc rc rs2)
  | 5 => some (encJ 0 (cjImm h))
  | 6 => some (encB 0 rc 0 (cbImm h))
  | _ => some (encB 1 rc 0 (cbImm h))

/-- Quadrant 2. -/
def expand2 (h : Nat) : Option Nat :=
  let rd := bits h 7 5
  let rs2 := bits h 2 5
  match bits h 13 3 with
  | 0 => if bit h 12 then none else some (encI 0x13 1 rd rd (bits h 2 5))
  | 2 => if rd = 0 then none else some (encI 0x03 2 rd 2 (bits h 12 1 * 32 + bits h 4 3 * 4 + bits h 2 2 * 64))
  | 4 =>
    if ¬bit h 12 then
      if rs2 = 0 then (if rd = 0 then none else some (encI 0x67 0 0 rd 0)) else some (encR 0x33 0 0 rd 0 rs2)
    else if rs2 = 0 then (if rd = 0 then some 0x00100073 else some (encI 0x67 0 1 rd 0))
    else some (encR 0x33 0 0 rd rd rs2)
  | 6 => some (encS 2 2 rs2 (bits h 9 4 * 4 + bits h 7 2 * 64))
  | _ => none

/-- The 32-bit form of a fetched instruction; none for a reserved 16-bit encoding. -/
def expand (w len : Nat) : Option Nat :=
  if len = 4 then some w
  else match w % 4 with
    | 0 => expand0 w
    | 1 => expand1 w
    | _ => expand2 w

/-! ### Arithmetic -/

def immI (w : Nat) : W32 := BitVec.ofInt 32 (signed 12 (bits w 20 12))
def immS (w : Nat) : W32 := BitVec.ofInt 32 (signed 12 (bits w 25 7 * 32 + bits w 7 5))
def immB (w : Nat) : W32 :=
  BitVec.ofInt 32 (signed 13 (bits w 31 1 * 2 ^ 12 + bits w 7 1 * 2 ^ 11 + bits w 25 6 * 32 + bits w 8 4 * 2))
def immU (w : Nat) : W32 := BitVec.ofNat 32 (bits w 12 20 * 2 ^ 12)
def immJ (w : Nat) : W32 :=
  BitVec.ofInt 32 (signed 21 (bits w 31 1 * 2 ^ 20 + bits w 12 8 * 2 ^ 12 + bits w 20 1 * 2 ^ 11 + bits w 21 10 * 2))

/-- RV32I arithmetic by funct3; `alt` chooses SUB and SRA. -/
def aluOp (f3 : Nat) (alt : Bool) (a b : W32) : W32 :=
  let sh := b.toNat % 32
  match f3 with
  | 0 => if alt then a - b else a + b
  | 1 => a <<< sh
  | 2 => if a.toInt < b.toInt then 1 else 0
  | 3 => if a.toNat < b.toNat then 1 else 0
  | 4 => a ^^^ b
  | 5 => if alt then a.sshiftRight sh else a >>> sh
  | 6 => a ||| b
  | _ => a &&& b

/-- RV32M by funct3. -/
def mulOp (f3 : Nat) (a b : W32) : W32 :=
  let hi := fun (p : Int) => BitVec.ofInt 32 (p / 2 ^ 32)
  match f3 with
  | 0 => a * b
  | 1 => hi (a.toInt * b.toInt)
  | 2 => hi (a.toInt * b.toNat)
  | 3 => hi (a.toNat * b.toNat)
  | 4 => if b = 0 then 0xFFFFFFFF else BitVec.ofInt 32 (a.toInt.tdiv b.toInt)
  | 5 => if b = 0 then 0xFFFFFFFF else BitVec.ofNat 32 (a.toNat / b.toNat)
  | 6 => if b = 0 then a else BitVec.ofInt 32 (a.toInt.tmod b.toInt)
  | _ => if b = 0 then a else BitVec.ofNat 32 (a.toNat % b.toNat)

/-- The branch condition by funct3; none for the reserved codes. -/
def branchTaken (f3 : Nat) (a b : W32) : Option Bool :=
  match f3 with
  | 0 => some (a = b)
  | 1 => some (a != b)
  | 4 => some (decide (a.toInt < b.toInt))
  | 5 => some (decide (b.toInt ≤ a.toInt))
  | 6 => some (decide (a.toNat < b.toNat))
  | 7 => some (decide (b.toNat ≤ a.toNat))
  | _ => none

/-! ### Loads and stores (R220) -/

/-- The faults of a scalar access of `n` bytes. -/
def accessFault (q : CloveProg) (a n : Nat) : Option Flt :=
  firstFault [(a % n != 0, .alignFault, 0x220),
    (!(inDmem a n || (inAperture a n && windowOk q (a - 0x80000000) n)), .boundsFault, 0x230)]

/-- A load delivered, extended by funct3. -/
def extendLoad (f3 x : Nat) : Nat :=
  match f3 with
  | 0 => unsigned 32 (signed 8 x)
  | 1 => unsigned 32 (signed 16 x)
  | _ => x

def scalarLoad (g w : Nat) (q : CloveProg) (s : State) : Except Flt (State × CloveProg) :=
  let f3 := bvFunct3 w
  let rd := bits w 7 5
  let rs1 := bits w 15 5
  if f3 = 3 ∨ 6 ≤ f3 then illegal
  else poisonLast (xp q rs1) <|
    let a := (tabGet 0 q.x rs1 + immI w).toNat
    let n := 2 ^ (f3 % 4)
    match accessFault q a n with
    | some e => .error e
    | none =>
      if inDmem a n then
        let (bs, p) := dmemGet q a n
        .ok (s, xset rd (extendLoad f3 (leNat bs)) p q)
      else
        let off := a - 0x80000000
        let (s, q) := takeSector g (off / 64) s q
        let (x, p) := cloveWord s g q (off - off % 8)
        .ok (s, xset rd (extendLoad f3 (bits x (8 * (off % 8)) (8 * n))) p { q with poisonSeen := q.poisonSeen || p })

def scalarStore (g w : Nat) (q : CloveProg) (s : State) : Except Flt (State × CloveProg) :=
  let f3 := bvFunct3 w
  let rs1 := bits w 15 5
  let rs2 := bits w 20 5
  if 3 ≤ f3 then illegal
  else poisonLast (xp q rs1) <|
    let a := (tabGet 0 q.x rs1 + immS w).toNat
    let n := 2 ^ f3
    let bs := natLe n (xv q rs2)
    match accessFault q a n with
    | some e => .error e
    | none =>
      if inDmem a n then .ok (s, dmemPut a bs (xp q rs2) q)
      else
        let off := a - 0x80000000
        .ok (cloveStore g (off - off % 8) (off % 8) bs (xp q rs2) (s, q))

/-! ### CSRs (R223) -/

/-- A CSR's value; none for a number that is not implemented. -/
def csrRead (g : Nat) (q : CloveProg) (k : Nat) : Option Nat :=
  match k with
  | 0x800 => some q.bvfmt.toNat
  | 0x801 => some q.bvc0.toNat
  | 0x802 => some q.bvc1.toNat
  | 0x803 => some (q.lidx.toNat % 2 ^ 32)
  | 0x804 => some (q.lidx.toNat / 2 ^ 32)
  | 0xCC0 => some q.wbase
  | 0xCC1 => some q.wlim
  | 0xCC2 => some g
  | 0xCC3 => some (q.numflags.toNat + 16 * b01 q.poisonSeen)
  | 0xC00 => some (q.cycle.toNat % 2 ^ 32)
  | 0xC80 => some (q.cycle.toNat / 2 ^ 32)
  | 0xC02 => some (q.instret.toNat % 2 ^ 32)
  | 0xC82 => some (q.instret.toNat / 2 ^ 32)
  | _ => none

/-- A CSR written; none for a read-only number, a reserved bit or a reserved ROUND code. -/
def csrPut (q : CloveProg) (k v : Nat) : Option CloveProg :=
  match k with
  | 0x800 => if bits v 20 12 = 0 ∧ bits v 15 1 = 0 ∧ bits v 12 3 < 5 then some { q with bvfmt := BitVec.ofNat 32 v } else none
  | 0x801 => some { q with bvc0 := BitVec.ofNat 32 v }
  | 0x802 => some { q with bvc1 := BitVec.ofNat 32 v }
  | 0x803 => some { q with lidx := BitVec.ofNat 48 (q.lidx.toNat / 2 ^ 32 * 2 ^ 32 + v) }
  | 0x804 => if v < 2 ^ 16 then some { q with lidx := BitVec.ofNat 48 (v * 2 ^ 32 + q.lidx.toNat % 2 ^ 32) } else none
  | _ => none

def csrFunct (w : Nat) : Bool := w % 128 = 0x73 && (bvFunct3 w != 0 && bvFunct3 w != 4)

/-- A CSR instruction that writes: CSRRW always, the others when their source is not x0 or 0. -/
def isCsrWrite (w : Nat) : Bool := csrFunct w && (bvFunct3 w % 4 = 1 || bits w 15 5 != 0)

def csrWriteExec (g w : Nat) (q : CloveProg) : Except Flt CloveProg :=
  let k := bits w 20 12
  let f3 := bvFunct3 w
  let rs := bits w 15 5
  let src := if 4 ≤ f3 then rs else xv q rs
  match csrRead g q k with
  | none => illegal
  | some old =>
    let v := match f3 % 4 with
      | 1 => src
      | 2 => old ||| src
      | _ => old - (old &&& src)
    if bits k 10 2 = 3 then illegal
    else poisonLast (decide (f3 < 4) && xp q rs) <| match csrPut q k v with
      | none => illegal
      | some q => .ok (xset (bits w 7 5) old false q)

/-! ### Every other scalar instruction -/

/-- Jumps: the target with the link; `link` is the address of the next instruction. -/
def jumpTo (rd link : Nat) (target : W32) (q : CloveProg) : CloveProg := { xset rd link false q with pc := target }

/-- An instruction other than a load, a store or a CSR write, at `pc`; `q.pc` is already that of the next one. -/
def scalarPure (g w : Nat) (pc : W32) (q : CloveProg) : Except Flt CloveProg :=
  let rd := bits w 7 5
  let rs1 := bits w 15 5
  let rs2 := bits w 20 5
  let f3 := bvFunct3 w
  let f7 := bvFunct7 w
  let a := tabGet 0 q.x rs1
  let b := tabGet 0 q.x rs2
  match w % 128 with
  | 0x37 => .ok (xset rd (immU w).toNat false q)
  | 0x17 => .ok (xset rd (pc + immU w).toNat false q)
  | 0x6F => .ok (jumpTo rd q.pc.toNat (pc + immJ w) q)
  | 0x67 =>
    if f3 ≠ 0 then illegal
    else if xp q rs1 then poisonUse
    else .ok (jumpTo rd q.pc.toNat ((a + immI w) &&& 0xFFFFFFFE#32) q)
  | 0x63 =>
    match branchTaken f3 a b with
    | none => illegal
    | some t =>
      if xp q rs1 || xp q rs2 then poisonUse else .ok (if t then { q with pc := pc + immB w } else q)
  | 0x13 =>
    let shift := f3 = 1 ∨ f3 = 5
    if shift ∧ f7 ≠ 0 ∧ ¬(f3 = 5 ∧ f7 = 0x20) then illegal
    else .ok (xset rd (aluOp f3 (f3 = 5 && f7 = 0x20) a (immI w)).toNat (xp q rs1) q)
  | 0x33 =>
    let p := xp q rs1 || xp q rs2
    if f7 = 1 then .ok (xset rd (mulOp f3 a b).toNat p q)
    else if f7 = 0 ∨ (f7 = 0x20 ∧ (f3 = 0 ∨ f3 = 5)) then .ok (xset rd (aluOp f3 (f7 = 0x20) a b).toNat p q)
    else illegal
  | 0x0F => if f3 ≤ 1 then .ok q else illegal
  | 0x73 =>
    if ¬csrFunct w then illegal
    else match csrRead g q (bits w 20 12) with
      | none => illegal
      | some old => .ok (xset rd old false q)
  | _ => illegal

/-- A scalar instruction (R219, R220, R222). -/
def scalarExec (g w len : Nat) (q : CloveProg) (s : State) : Except Flt (State × CloveProg) :=
  match expand w len with
  | none => illegal
  | some w =>
    match w % 128 with
    | 0x03 => scalarLoad g w q s
    | 0x23 => scalarStore g w q s
    | _ =>
      match scalarPure g w (q.pc - BitVec.ofNat 32 len) q with
      | .error e => .error e
      | .ok q => .ok (s, q)

def cloveScalarInstructionEffect (g : Nat) (s : State) : State :=
  match activeProg s g with
  | none => notTaken s
  | some q =>
    if q.stalled then notTaken s
    else match instrAt q with
      | .error e => cloveFault g q e s
      | .ok (_, len) => cloveDo g (fun w => !(isBv w) && !(isCsrWrite w)) (fun w q s => scalarExec g w len q s) s

/-- A scalar instruction of a Clove (R218 to R223, R247, R248); a fetch outside instruction memory and an illegal
instruction fault. -/
def execCloveScalarInstruction (g : Nat) (s : State) : Host.Outcome State Fault Refusal :=
  take (.cloveScalarInstruction g) s (cloveScalarInstructionEffect g)

def cloveCsrWriteEffect (g : Nat) (s : State) : State := clovePure g isCsrWrite (csrWriteExec g) s

/-- A CSR write (R223). -/
def execCloveCsrWrite (g : Nat) (s : State) : Host.Outcome State Fault Refusal :=
  take (.cloveCsrWrite g) s (cloveCsrWriteEffect g)

end Sys2Proof.Machine
end

