-- ==== Sys2Proof/Machine/Clove.lean ====
section
/-!
DEFINITION. Memory and control instructions of a Clove, the loads that arrive, and BANK_RUN: its checks, the loading and
admission of its programs, forced yields (R227 to R245).
-/
namespace Sys2Proof.Machine

/-! ### Memory instructions (R227) -/

/-- INC and W48 of a memory instruction: bytes moved and the alignment its address needs. -/
def moveBytes (w : Nat) : Nat := if bit w 26 then 48 else 64
def moveAlign (w : Nat) : Nat := if bit w 26 then 16 else 64

/-- x[xa] after the access: the bytes moved added when INC is set. -/
def incAddr (w : Nat) (q : CloveProg) : CloveProg :=
  if bit w 25 then xset (bvF1 w) ((xv q (bvF1 w) + moveBytes w) % 2 ^ 32) false q else q

/-- The address of a move: encoding, alignment, range and poison checked, in the order of R10; `ok` is the range check. -/
def moveAddr (w : Nat) (q : CloveProg) (other : Nat) (ok : Nat → Nat → Bool) : Except Flt Nat :=
  if 3 < bvFunct7 w ∨ other ≠ 0 then illegal
  else poisonLast (xp q (bvF1 w)) <|
    let a := xv q (bvF1 w)
    match firstFault [(a % moveAlign w != 0, .alignFault, 0x220), (!(ok a (moveBytes w)), .boundsFault, 0x230)] with
    | some e => .error e
    | none => .ok a

/-- Words moved into a vector register, each with its poison. -/
def putWords (d : Nat) (ws : List (Nat × Bool)) (q : CloveProg) : CloveProg :=
  vsetMask d (leNat (ws.flatMap fun w => natLe 8 w.1)) (BitVec.ofNat 8 (packCodes 1 (ws.map fun w => b01 w.2))) q

/-- Sectors that a range lies in. -/
def sectorsOf (off n : Nat) : List Nat := (unitsOf 64 off n).map (· / 64)

/-- A bank load whose data is at hand. -/
def ldDone (g w : Nat) (s : State) (q : CloveProg) : CloveProg :=
  let ws := cloveWords s g q (xv q (bvF1 w)) (moveBytes w / 8)
  incAddr w (putWords (bvF0 w) ws { q with poisonSeen := q.poisonSeen || ws.any (·.2) })

def ldExec (g w : Nat) (q : CloveProg) (s : State) : Except Flt (State × CloveProg) :=
  match moveAddr w q (bvF2 w) (windowOk q) with
  | .error e => .error e
  | .ok off =>
    let need := (sectorsOf off (moveBytes w)).filter fun k => !(bufHas q k)
    if need = [] then .ok (s, ldDone g w s q)
    else .ok (s, { q with stalled := true
                          outstanding := q.outstanding ++ need.filter fun k => !(q.outstanding.contains k) })

def bvLdEffect (g : Nat) (s : State) : State := cloveDo g (memRow 0) (ldExec g) s
/-- BV.LD (R219, R227, R229, R230): from the read buffer, otherwise the instruction waits for its bank load. -/
def execBvLd (g : Nat) (s : State) : Host.Outcome State Fault Refusal := take (.bvLd g) s (bvLdEffect g)

/-- The words of a vector register that a move takes. -/
def vectorWords (q : CloveProg) (r n : Nat) : List (Nat × List Byte × Bool) :=
  (rangeFrom 0 n).map fun i => (8 * i, natLe 8 (bits (vv q r) (64 * i) 64), (vmask q r).getLsbD i)

def stExec (g w : Nat) (q : CloveProg) (s : State) : Except Flt (State × CloveProg) :=
  match moveAddr w q (bvF0 w) (windowOk q) with
  | .error e => .error e
  | .ok off =>
    let (s, q') := (vectorWords q (bvF2 w) (moveBytes w / 8)).foldl (fun z e => cloveStore g (off + e.1) 0 e.2.1 e.2.2 z) (s, q)
    .ok (s, incAddr w q')

def bvStEffect (g : Nat) (s : State) : State := cloveDo g (memRow 1) (stExec g) s
/-- BV.ST (R194, R227, R229, R230, R247). -/
def execBvSt (g : Nat) (s : State) : Host.Outcome State Fault Refusal := take (.bvSt g) s (bvStEffect g)

def ldmExec (w : Nat) (q : CloveProg) : Except Flt CloveProg :=
  match moveAddr w q (bvF2 w) inDmem with
  | .error e => .error e
  | .ok a =>
    let ws := (rangeFrom 0 (moveBytes w / 8)).map fun i => let r := dmemGet q (a + 8 * i) 8; (leNat r.1, r.2)
    .ok (incAddr w (putWords (bvF0 w) ws q))

def bvLdmEffect (g : Nat) (s : State) : State := clovePure g (memRow 2) ldmExec s
/-- BV.LDM (R227, R247). -/
def execBvLdm (g : Nat) (s : State) : Host.Outcome State Fault Refusal := take (.bvLdm g) s (bvLdmEffect g)

def stmExec (w : Nat) (q : CloveProg) : Except Flt CloveProg :=
  match moveAddr w q (bvF0 w) inDmem with
  | .error e => .error e
  | .ok a =>
    .ok (incAddr w ((vectorWords q (bvF2 w) (moveBytes w / 8)).foldl (fun q e => dmemPut (a + e.1) e.2.1 e.2.2 q) q))

def bvStmEffect (g : Nat) (s : State) : State := clovePure g (memRow 3) stmExec s
/-- BV.STM (R227, R247). -/
def execBvStm (g : Nat) (s : State) : Host.Outcome State Fault Refusal := take (.bvStm g) s (bvStmEffect g)

def pfExec (w : Nat) (q : CloveProg) : Except Flt CloveProg :=
  let a := xv q (bvF1 w)
  let n := xv q (bvF2 w)
  if bvFunct7 w ≠ 0 ∨ bvF0 w ≠ 0 then illegal
  else poisonLast (xp q (bvF1 w) || xp q (bvF2 w)) <| match firstFault [(decide (n < 64 ∨ 2048 < n), .descFault, 0x204), (a % 64 != 0 || n % 64 != 0, .alignFault, 0x220),
      (!(windowOk q a n), .boundsFault, 0x230)] with
    | some e => .error e
    | none =>
      let need := (sectorsOf a n).filter fun k => !(bufHas q k) && !(q.outstanding.contains k)
      .ok { q with outstanding := q.outstanding ++ need }

def bvPfEffect (g : Nat) (s : State) : State := clovePure g (memRow 4) pfExec s
/-- BV.PF (R227, R230): the sectors are on their way to the read buffer. -/
def execBvPf (g : Nat) (s : State) : Host.Outcome State Fault Refusal := take (.bvPf g) s (bvPfEffect g)

def acqExec (w : Nat) (q : CloveProg) : Except Flt CloveProg :=
  let a := xv q (bvF1 w)
  let n := xv q (bvF2 w)
  if bvFunct7 w ≠ 0 ∨ bvF0 w ≠ 0 then illegal
  else poisonLast (xp q (bvF1 w) || xp q (bvF2 w)) <|
    if a % 64 ≠ 0 then .error (.alignFault, 0x220)
    else .ok ((q.readBufKeys.filter fun k => decide (64 * k < a + n ∧ a < 64 * k + 64)).foldl (fun q k => bufDrop k q) q)

def bvAcqEffect (g : Nat) (s : State) : State := clovePure g (memRow 5) acqExec s
/-- BV.ACQ (R158, R227): copies of the range are discarded. -/
def execBvAcq (g : Nat) (s : State) : Host.Outcome State Fault Refusal := take (.bvAcq g) s (bvAcqEffect g)

/-- A stalled load goes on once none of its sectors is on its way. -/
def loadProceeds (w : Nat) (q : CloveProg) : Bool :=
  q.stalled && (sectorsOf (xv q (bvF1 w)) (moveBytes w)).all fun k => !(q.outstanding.contains k)

def bankLoadArrivesEffect (g : Nat) (s : State) : State :=
  match activeProg s g with
  | none => notTaken s
  | some q =>
    match q.outstanding with
    | [] => notTaken s
    | k :: ks =>
      let (s, q) := takeSector g k s { q with outstanding := ks }
      match instrAt q with
      | .error _ => setProg g q s
      | .ok (w, len) =>
        if ¬loadProceeds w q then setProg g q s
        else
          let (s, q) := retireInstr (ldDone g w s { q with pc := q.pc + BitVec.ofNat 32 len }) s
          boundary g (setProg g q s)

/-- Bank data arrives in the read buffer, and a load that waited for it completes (R219, R227, R247). -/
def execBankLoadArrives (g : Nat) (s : State) : Host.Outcome State Fault Refusal :=
  take (.bankLoadArrives g) s (bankLoadArrivesEffect g)

/-! ### Control instructions (R227, R236, R242, R243) -/

/-- A control instruction: the shape of cloveDo, with an effect on the Clove after it retires. -/
def controlDo (g : Nat) (row : Nat → Bool) (check : Nat → CloveProg → Option Flt) (f : Nat → CloveProg → State → State)
    (s : State) : State :=
  match activeProg s g with
  | none => notTaken s
  | some q =>
    if q.stalled then notTaken s
    else match instrAt q with
      | .error _ => notTaken s
      | .ok (w, len) =>
        if ¬row w then notTaken s
        else match check w q with
          | some e => cloveFault g q e s
          | none =>
            let (s, q) := retireInstr { q with pc := q.pc + BitVec.ofNat 32 len } s
            f w q (setProg g q s)

def yieldCheck (w : Nat) (q : CloveProg) : Option Flt :=
  if bvF0 w ≠ 0 ∨ bvF2 w ≠ 0 then some (.descFault, 0x204)
  else if xp q (bvF1 w) then some (.poisonConsumed, 0x241) else none

/-- The hint's live bytes (R243); the device does not check it. -/
def hintLive (x : Nat) : Nat := Nat.min 65536 (bits x 0 17)

def bvYieldEffect (g : Nat) (s : State) : State :=
  controlDo g (bvRow 0x7B 0) yieldCheck (fun w q s =>
    let x := xv q (bvF1 w)
    yieldPoint g (hintLive x) (bit x 31)
      (modClove g (fun c => { c with yields := satAdd 64 c.yields 1, forcedPending := false }) s)) s

/-- BV.YIELD (R239, R242 to R244): deferred accesses are served, and the program is switched out when a suspension is
pending or another admitted program waits. -/
def execBvYield (g : Nat) (s : State) : Host.Outcome State Fault Refusal := take (.bvYield g) s (bvYieldEffect g)

/-- Command `c` has a program on some Clove. -/
def onCloves (s : State) (c : Nat) : Bool :=
  s.clv.clove.any fun e => e.2.progs.any (fun q => q.cmd = c) || e.2.waiting.any (fun q => q.cmd = c)

/-- A BANK_RUN completes when every program has ended (R236): POISON_CONSUMED when one stored a poisoned word, with the
lowest such launch entry (R249, R251). -/
def settleBank (c : Nat) (s : State) : State :=
  if onCloves s c then s
  else
    let x := cmdOf s c
    match x.faults with
    | [] => finish c .ok 0 0 0 x.flags s
    | l => finish c .poisonConsumed 0x242 0 (l.foldl (fun m e => Nat.min m e.1) 4096) x.flags s

/-- A program ends. One that stored poison leaves cause 0x242 in CLV_FAULT, with the offset of its BV.END in CLV_FAULT_PC (log 155). -/
def endProgram (g : Nat) (q : CloveProg) (s : State) : State :=
  let st := if q.storedPoison then Status.poisonConsumed else .ok
  let replayed := (cmdOf s q.cmd).replayed
  let s := modCmd q.cmd (fun x => { x with
    flags := x.flags ||| q.numflags
    faults := if q.storedPoison then x.faults ++ [(q.launch, .poisonConsumed, 0x242)] else x.faults }) s
  let s := modClove g (fun x =>
    let code := BitVec.ofNat 8 (statusCode (okStatus replayed st))
    let x := { x with lastStatus := code, progs := x.progs.filter fun p => p.cmd != q.cmd }
    let x := if q.storedPoison then { x with faultStatus := code, faultCause := 0x242, faultPc := q.pc - 4 } else x
    cloveFront x) s
  settleBank q.cmd (switchIn g (serveDeferred g s))

def bvEndEffect (g : Nat) (s : State) : State :=
  controlDo g (bvRow 0x7B 1)
    (fun w _ => if bvF0 w ≠ 0 ∨ bvF1 w ≠ 0 ∨ bvF2 w ≠ 0 then some (.descFault, 0x204) else none)
    (fun _ q s => endProgram g q s) s

/-- BV.END (R236, R249): the program ends; its bank stores have been accepted. -/
def execBvEnd (g : Nat) (s : State) : Host.Outcome State Fault Refusal := take (.bvEnd g) s (bvEndEffect g)

def cloveForcedYieldEffect (g : Nat) (s : State) : State :=
  match activeProg s g with
  | none => notTaken s
  | some q => if q.stalled then modClove g (fun x => { x with forcedPending := true }) s else forcedYield g s

/-- The watchdog forces a yield, with no hint, at the next instruction boundary (R241, R242). -/
def execCloveForcedYield (g : Nat) (s : State) : Host.Outcome State Fault Refusal :=
  take (.cloveForcedYield g) s (cloveForcedYieldEffect g)

/-! ### BANK_RUN (R231 to R236) -/

/-- A program image as its header describes it. -/
structure CloveImage where
  magic : Nat
  code : Nat
  data : Nat
  entry : Nat
  flags : Nat
  reserved : Bool
  deriving DecidableEq, Repr

def cloveImageOf (bs : List Byte) : CloveImage :=
  let n := leNat bs
  { magic := bits n 0 32, code := bits n 32 32, data := bits n 64 32, entry := bits n 96 32, flags := bits n 128 32
    reserved := bits n 160 352 != 0 }

/-- The header is well formed (R231). -/
def CloveImage.ok (h : CloveImage) : Bool :=
  h.magic = 0x31564C43 && !h.reserved && decide (h.flags < 2) && h.code % 4 = 0 && decide (4 ≤ h.code ∧ h.code ≤ 16384)
    && h.data % 64 = 0 && decide (h.data ≤ 65536) && h.entry % 2 = 0 && decide (h.entry < h.code)

/-- Where the initial data begins, and the bytes of the whole image (R231). -/
def CloveImage.dataAt (h : CloveImage) : Nat := 64 + 64 * ceilDiv h.code 64
def CloveImage.size (h : CloveImage) : Nat := h.dataAt + h.data

/-- A launch-table entry (R232). -/
structure Launch where
  bank : Nat
  wbase : Nat
  wlim : Nat
  arg : Nat
  save : Nat
  reserved : Bool
  deriving DecidableEq, Repr

def launchOf (bs : List Byte) : Launch :=
  let n := leNat bs
  { bank := bits n 0 12, wbase := bits n 32 27, wlim := bits n 64 27, arg := bits n 96 27, save := bits n 128 27
    reserved := bits n 12 20 != 0 || bits n 59 5 != 0 || bits n 91 5 != 0 || bits n 123 5 != 0 || bits n 155 5 != 0
      || bits n 160 96 != 0 }

/-- Entries of `k` bytes each. -/
def entriesOf (k n : Nat) (bs : List Byte) : List (List Byte) := (rangeFrom 0 n).map fun i => (bs.drop (k * i)).take k

/-- The partition holds slot `j` of bank `g` with LOCAL = 1 (R190, R233). -/
def slotHeld (s : State) (p g j : Nat) : Bool :=
  (rangeFrom 0 (partOf s p).ctCount).any fun c =>
    match chunkOf s p c with
    | none => false
    | some e => e.bankLocal && e.pchunk = j * 4096 + g

def slotsHeld (s : State) (p g off n : Nat) : Bool := (unitsOf (2 ^ 21) off n).all fun a => slotHeld s p g (a / 2 ^ 21)

/-- The stack of a bank is in COMPUTE mode (R18, R237). -/
def computeStack (s : State) (st : Nat) : Bool := s.clv.stackMode.getLsbD st

/-- The checks of one launch entry, with its number (R233), beside the other entries. -/
def launchFaults (s : State) (p : Nat) (ls : List Launch) (i : Nat) (e : Launch) : List (Bool × Nat × Status × Nat) :=
  [(e.reserved, i, .descFault, 0x202), ((ls.filter fun d => d.bank = e.bank).length != 1, i, .descFault, 0x202),
   (decide (e.wlim < e.wbase), i, .descFault, 0x202), (!(computeStack s (e.bank / 512)), i, .descFault, 0x203),
   ((cloveOf s e.bank).deconfigured, i, .descFault, 0x206),
   (e.wbase % 64 != 0 || (e.wlim + 1) % 64 != 0 || e.save % 4096 != 0, i, .alignFault, 0x220),
   (!(slotsHeld s p e.bank e.wbase (e.wlim + 1 - e.wbase) && slotsHeld s p e.bank e.save 0x18000), i, .boundsFault, 0x231),
   (!(decide (e.wbase ≤ e.arg ∧ e.arg ≤ e.wlim)), i, .boundsFault, 0x231),
   (decide (e.save ≤ e.wlim ∧ e.wbase < e.save + 0x18000), i, .boundsFault, 0x231)]

/-- A flush-list entry (R234): range of device memory. -/
def flushOf (bs : List Byte) : Nat × Nat := (bits (leNat bs) 0 64, bits (leNat bs) 64 64)

/-- Fields of a BANK_RUN's body (R338). -/
def brImage (x : Cmd) : Nat := field x 8 8
def brLaunch (x : Cmd) : Nat := field x 16 8
def brFlush (x : Cmd) : Nat := field x 24 8
def brCount (x : Cmd) : Nat := field x 48 2
def brFlushes (x : Cmd) : Nat := field x 50 1
def brLaunchHost (x : Cmd) : Bool := bit (field x 51 1) 0
def brFlushHost (x : Cmd) : Bool := bit (field x 51 1) 1

/-- What a BANK_RUN reads: its header, entries and flush list. -/
structure BankRun where
  head : CloveImage
  launch : List Launch
  flush : List (Nat × Nat)
  deriving DecidableEq, Repr

def bankRunOf (s : State) (x : Cmd) : BankRun :=
  { head := cloveImageOf (bodyGet s x false (brImage x) 64).2.1
    launch := (entriesOf 32 (brCount x) (bodyGet s x (brLaunchHost x) (brLaunch x) (32 * brCount x)).2.1).map launchOf
    flush := (entriesOf 16 (brFlushes x) (bodyGet s x (brFlushHost x) (brFlush x) (16 * brFlushes x)).2.1).map flushOf }

/-- A check of a BANK_RUN: whether it fails, with the launch entry, status and cause. -/
abbrev BrCheck := Bool × Nat × Status × Nat

/-- The checks of counts and addresses (R251, R340). -/
def bankRunFields (x : Cmd) : List BrCheck :=
  [(decide (brCount x < 1 ∨ 4096 < brCount x), 0, .descFault, 0x202), (decide (16 < brFlushes x), 0, .descFault, 0x205),
   (brImage x % 64 != 0, 0, .alignFault, 0x220), (brLaunch x % 64 != 0, 0, .alignFault, 0x620),
   (brFlushes x != 0 && brFlush x % 16 != 0, 0, .alignFault, 0x620)]

/-- A table of `n` entries of `k` bytes: whether it is in reach and poisoned, and the entries delivered clean, with their
numbers. -/
def tableRead (s : State) (x : Cmd) (host : Bool) (a k n : Nat) : List BrCheck × List (Nat × List Byte) :=
  let (ok, bs, bad) := bodyGet s x host a (k * n)
  let es := List.zip (rangeFrom 0 n) (entriesOf k n bs)
  ([(!ok, 0, .boundsFault, 0x232), (ok && bad, 0, .poisonConsumed, if host then 0x650 else 0x240)],
    if ¬ok then [] else if bad then es.filter fun e => !(bodyGet s x host (a + k * e.1) k).2.2 else es)

/-- The checks of the header and of the image it describes (R231, R233). -/
def imageChecks (s : State) (x : Cmd) : List BrCheck :=
  let hd := bodyGet s x false (brImage x) 64
  let h := cloveImageOf hd.2.1
  let im := bodyGet s x false (brImage x) h.size
  if ¬hd.1 then [(true, 0, .boundsFault, 0x232)]
  else if hd.2.2 then [(true, 0, .poisonConsumed, 0x240)]
  else if ¬h.ok then [(true, 0, .descFault, 0x201)]
  else [(!im.1, 0, .boundsFault, 0x232), (im.1 && im.2.2, 0, .poisonConsumed, 0x240)]

/-- The checks of the launch table and its entries (R233). -/
def launchChecks (s : State) (x : Cmd) : List BrCheck :=
  let r := tableRead s x (brLaunchHost x) (brLaunch x) 32 (brCount x)
  let ls := r.2.map fun e => (e.1, launchOf e.2)
  r.1 ++ ls.flatMap fun e => launchFaults s (homeOf s x.fn) (ls.map (·.2)) e.1 e.2

/-- The checks of the flush list (R234). -/
def flushChecks (s : State) (x : Cmd) : List BrCheck :=
  let r := tableRead s x (brFlushHost x) (brFlush x) 16 (brFlushes x)
  let own : Nat × Nat → List BrCheck := fun f =>
    [(f.2 = 0, 0, .descFault, 0x205), (!(devOk s (homeOf s x.fn) f.1 f.2), 0, .boundsFault, 0x232)]
  r.1 ++ r.2.flatMap fun e => own (flushOf e.2)

/-- The fault of a BANK_RUN before any Clove starts (R231 to R234, R248, R251, R349), chosen under R10 among the checks of its fields
and of each structure that these let it read. -/
def bankRunFault (s : State) (x : Cmd) : Option SideFlt :=
  firstSided (bankRunFields x
    ++ (if brImage x % 64 = 0 then imageChecks s x else [])
    ++ (if 1 ≤ brCount x ∧ brCount x ≤ 4096 ∧ brLaunch x % 64 = 0 then launchChecks s x else [])
    ++ (if 1 ≤ brFlushes x ∧ brFlushes x ≤ 16 ∧ brFlush x % 16 = 0 then flushChecks s x else []))

/-- A running command of the group writes into a range of device memory: a Clove program whose window meets it (R234). -/
def windowMeets (s : State) (p d a n : Nat) : Bool :=
  (unitsOf (2 ^ 21) a n).any fun u =>
    match chunkOf s p (u / 2 ^ 21) with
    | none => false
    | some e =>
      let lo := Nat.max a (u / 2 ^ 21 * 2 ^ 21)
      let hi := Nat.min (a + n) ((u / 2 ^ 21 + 1) * 2 ^ 21)
      let off := e.pchunk / 4096 * 2 ^ 21 + lo % 2 ^ 21
      e.bankLocal && (let x := cloveOf s (e.pchunk % 4096)
        (x.progs ++ x.waiting).any fun q => q.cmd = d && decide (q.wbase < off + (hi - lo) ∧ off ≤ q.wlim))

/-- A destination tensor in device memory meets a range, from the lowest to the highest byte of an array of it (R234). -/
def tensorMeets (s : State) (x : Cmd) (host : Bool) (desc a n : Nat) : Bool :=
  let t := tdescOf (bodyGet s x host desc 128).2.1
  t.space = 2 && (t.arrays true).any fun r => decide (r.1 < ((a + n : Nat) : Int) ∧ ((a : Nat) : Int) < r.2)

/-- Bytes of the work area of a FABRIC_COLLECTIVE (R417). -/
def workBytes (op elems ndev : Nat) : Nat := if op ≤ 1 then 2 * ceilDiv elems ndev * 18 + 4096 else 4096

/-- A command that has started and not ended writes into a range (R234): the destination of a COPY or a FABRIC_RECV, that or the work
area of a FABRIC_COLLECTIVE; what a KV, adapter, model or STEP command will write is known only as it runs, so each of them counts
(log 142). -/
def commandMeets (s : State) (d a n : Nat) : Bool :=
  let x := cmdOf s d
  match cmdClass x with
  | 0x01 => tensorMeets s x (bit (field x 40 1) 4) (field x 16 8) a n
  | 0x31 => tensorMeets s x (bit (field x 20 1) 0) (field x 8 8) a n
  | 0x32 =>
    let op := field x 62 1 % 4
    let work := field x 32 8
    decide (work < a + n ∧ a < work + workBytes op (field x 56 4) (field x 60 2))
      || (decide (op ≠ 3) && tensorMeets s x false (field x 16 8) a n)
  | k => decide ((0x04 ≤ k ∧ k < 0x20) ∨ k = 0x41)

def flushBusy (s : State) (c : Nat) (e : Nat × Nat) : Bool :=
  let x := cmdOf s c
  let p := homeOf s x.fn
  (groupCmds s x.fn x.ring x.group).any fun d =>
    d != c && (cmdOf s d).phase = .running && (windowMeets s p d e.1 e.2 || commandMeets s d e.1 e.2)

/-- Program `i` of a BANK_RUN in its starting state (R221). -/
def startProgram (c : Nat) (x : Cmd) (p : Nat) (h : CloveImage) (im : List Byte) (i : Nat) (e : Launch) : CloveProg :=
  let q : CloveProg :=
    { cmd := c, launch := i, part := p, fn := x.fn, excl := bit h.flags 0, wbase := e.wbase, wlim := e.wlim, arg := e.arg
      save := e.save, seed := BitVec.ofNat 64 (field x 32 8), stream := BitVec.ofNat 64 (field x 40 8)
      pc := BitVec.ofNat 32 h.entry
      imem := putBytes 0 [] 0 ((im.drop 64).take h.code), dmem := putBytes 0 [] 0 ((im.drop h.dataAt).take h.data) }
  xset 2 0x20000 false (xset 10 e.arg false (xset 11 i false (xset 12 e.bank false q)))

def launchProgram (c p : Nat) (x : Cmd) (h : CloveImage) (im : List Byte) (e : Nat × Launch) (s : State) : State :=
  modClove e.2.bank (fun y => { y with waiting := y.waiting ++ [startProgram c x p h im e.1 e.2] }) s

/-- The launch table and the flush list can be read: their counts and addresses pass their checks (R233, R234). -/
def brLaunches (x : Cmd) : Bool := decide (1 ≤ brCount x ∧ brCount x ≤ 4096) && brLaunch x % 64 = 0
def brFlushRead (x : Cmd) : Bool := decide (1 ≤ brFlushes x ∧ brFlushes x ≤ 16) && brFlush x % 16 = 0

/-- The reads of a BANK_RUN's structures (R196); the image crosses each stack's interface when it is sent. -/
def bankRunNote (x : Cmd) (size : Nat) (s : State) : State :=
  let s := if brImage x % 64 = 0 then devReport (homeOf s x.fn) (brImage x) size s else s
  let s := if brLaunches x then bodyNote x (brLaunchHost x) (brLaunch x) (32 * brCount x) s else s
  if brFlushRead x then bodyNote x (brFlushHost x) (brFlush x) (16 * brFlushes x) s else s

/-- The ranges of device memory that the start of a BANK_RUN touches: its image, its tables, and what it flushes (R201, R239). -/
def bankTouches (x : Cmd) (b : BankRun) : List (Nat × Nat) :=
  (if brImage x % 64 = 0 then [(brImage x, if b.head.ok then b.head.size else 64)] else [])
    ++ (if brLaunches x && !(brLaunchHost x) then [(brLaunch x, 32 * brCount x)] else [])
    ++ (if brFlushRead x && !(brFlushHost x) then [(brFlush x, 16 * brFlushes x)] else [])
    ++ if brFlushRead x then b.flush else []

/-- The programs of a BANK_RUN start (R231, R340), the listed ranges flushed from the application cores' caches before the image is sent
(R234, R235). -/
def startBankRun (c p : Nat) (x : Cmd) (b : BankRun) (s : State) : State :=
  let s := foldState b.flush (fun e s => flushRange 2 p e.1 e.2 s) (bankRunNote x b.head.size s)
  let im := (bodyGet s x false (brImage x) b.head.size).2.1
  let s := modCmd c (fun x => { x with
    waitFor := (b.launch.map fun e => e.bank / 512).eraseDups, flags := 0, faults := []
    windows := b.launch.map fun e => (e.bank, e.wbase, e.wlim) }) s
  foldState (List.zip (rangeFrom 0 b.launch.length) b.launch) (launchProgram c p x b.head im) s

/-- A BANK_RUN with its fault found. -/
def bankRunFrom (c p : Nat) (x : Cmd) (b : BankRun) (e : Option SideFlt) (s : State) : State :=
  match e with
  | some (i, st, cause) =>
    finish c st cause 0 i 0 (bankRunNote x (if b.head.ok then b.head.size else 64) s)
  | none => startBankRun c p x b s

def bankRunEffect (c : Nat) (s : State) : State :=
  let x := cmdOf s c
  let b := bankRunOf s x
  let e := bankRunFault s x
  if ¬classReady s c 0x03 ∨ x.waitFor ≠ [] ∨ onCloves s c ∨ (e.isNone ∧ b.flush.any (flushBusy s c))
      ∨ hostHeld s x.fn (brLaunchHost x || brFlushHost x) then notTaken s
  else withAccess (2 * c) (homeOf s x.fn) (bankTouches x b) [] (bankRunFrom c (homeOf s x.fn) x b e) s

/-- BANK_RUN (R231 to R235): checked; its programs are on their way to their Cloves. -/
def execBankRun (c : Nat) (s : State) : Host.Outcome State Fault Refusal := take (.bankRun c) s (bankRunEffect c)

/-! ### Loading and admission (R235) -/

/-- The first waiting program whose image is written is admitted when fewer than 8 are (R235). -/
def cloveAdmit (x : Clove) : Clove :=
  if 8 ≤ x.progs.length then x
  else match x.waiting.find? fun q => q.loaded && !q.suspended with
    | none => x
    | some q => cloveFront { x with progs := x.progs ++ [q], waiting := x.waiting.filter fun p => p.cmd != q.cmd }

/-- The image of command `c` written into a Clove: its program has arrived behind those that wait there. -/
def cloveLoaded (c : Nat) (x : Clove) : Clove :=
  match x.waiting.find? fun q => q.cmd = c with
  | none => x
  | some q =>
    let x := { x with waiting := x.waiting.filter (fun p => p.cmd != c) ++ [{ q with loaded := true }] }
    if x.waiting.any fun p => p.cmd != c && p.loaded && !p.suspended then x else cloveAdmit x

def cloveImageLoadedEffect (c st : Nat) (s : State) : State :=
  let x := cmdOf s c
  if ¬(running s ∧ x.phase = .running ∧ cmdClass x = 0x03 ∧ x.waitFor.contains st) then notTaken s
  else
    let size := (bankRunOf s x).head.size
    let s := modCmd c (fun x => { x with waitFor := x.waitFor.erase st }) s
    let hit := (s.clv.clove.filter fun e => decide (e.1 / 512 = st) && e.2.waiting.any fun q => q.cmd = c).map (·.1)
    countSectors (homeOf s x.fn) st (ceilDiv size 64) (foldState hit (fun g s => modClove g (cloveLoaded c) s) s)

/-- A stack's image is written into its listed Cloves (R235): each admits the program, or lets it wait in order of
arrival. -/
def execCloveImageLoaded (c st : Nat) (s : State) : Host.Outcome State Fault Refusal :=
  take (.cloveImageLoaded c st) s (cloveImageLoadedEffect c st)

def cloveProgramAdmitEffect (g : Nat) (s : State) : State :=
  let x := cloveOf s g
  when (running s && decide (x.progs.length < 8) && x.waiting.any fun q => q.loaded && !q.suspended) s
    (modClove g cloveAdmit s)

/-- A waiting program is admitted (R235). -/
def execCloveProgramAdmit (g : Nat) (s : State) : Host.Outcome State Fault Refusal :=
  take (.cloveProgramAdmit g) s (cloveProgramAdmitEffect g)

end Sys2Proof.Machine
end

