-- ==== Sys2Proof/Machine/EvCtl.lean ====
section
/-!
DEFINITION. Commands of the event controller (R448 to R455): writes of the pending and mask registers, claim and completion
of a source, the hold-off's end, and the rebuild after a mismatch of its duplicated state.
-/
namespace Sys2Proof.Machine

/-- The bits of group `k` that agent `t` may write (R448): Sumac every bit, an application core those routed to itself. -/
def writable (s : State) (t k : Nat) : W32 :=
  if t = 32 then 0xFFFFFFFF#32
  else BitVec.ofNat 32 (((rangeFrom 0 32).filter fun i => routeOf s (32 * k + i) = t).foldl (fun n i => n + 2 ^ i) 0)

def evcPendSetEffect (t k : Nat) (v : W32) (s : State) : State :=
  when (running s) s (modGroup k (fun g => { g with pend := g.pend ||| (v &&& writable s t k) }) s)

/-- A write of EVC_PEND_SET (R448). -/
def execEvcPendSet (t k : Nat) (v : W32) (s : State) : Host.Outcome State Fault Refusal :=
  take (.evcPendSet t k v) s (evcPendSetEffect t k v)

def evcPendClrEffect (t k : Nat) (v : W32) (s : State) : State :=
  when (running s) s (modGroup k (fun g => { g with pend := g.pend &&& ~~~(v &&& writable s t k) }) s)

/-- A write of EVC_PEND_CLR (R448). -/
def execEvcPendClr (t k : Nat) (v : W32) (s : State) : Host.Outcome State Fault Refusal :=
  take (.evcPendClr t k v) s (evcPendClrEffect t k v)

def evcMaskSetEffect (t k : Nat) (v : W32) (s : State) : State :=
  when (running s) s (modGroup k (fun g => { g with mask := g.mask ||| (v &&& writable s t k) }) s)

/-- A write of EVC_MASK_SET (R448). -/
def execEvcMaskSet (t k : Nat) (v : W32) (s : State) : Host.Outcome State Fault Refusal :=
  take (.evcMaskSet t k v) s (evcMaskSetEffect t k v)

def evcMaskClrEffect (t k : Nat) (v : W32) (s : State) : State :=
  when (running s) s (modGroup k (fun g => { g with mask := g.mask &&& ~~~(v &&& writable s t k) }) s)

/-- A write of EVC_MASK_CLR (R448): a source that is pending is deliverable from then on (R449). -/
def execEvcMaskClr (t k : Nat) (v : W32) (s : State) : Host.Outcome State Fault Refusal :=
  take (.evcMaskClr t k v) s (evcMaskClrEffect t k v)

/-- Source `k` taken into service by target `t` (R449, R450): its pending bit is cleared, its group HELD for its hold-off. -/
def takeSource (t k : Nat) (s : State) : State :=
  let held := holdOf s (k / 32) != 0
  modTarget t (fun x => { x with insvc := some k })
    (modGroup (k / 32) (fun g => { g with
      pend := g.pend &&& ~~~BitVec.ofNat 32 (2 ^ (k % 32))
      held := held }) s)

def evcClaimEffect (t : Nat) (s : State) : State :=
  if ¬running s then notTaken s
  else match offer s t with
    | none => setReply (.data 0) s
    | some k => setReply (.data (2 ^ 31 + k)) (takeSource t k s)

/-- A read of EVC_CLAIM (R450): the offer, which it takes into service; VALID 0 while a source is in service. -/
def execEvcClaim (t : Nat) (s : State) : Host.Outcome State Fault Refusal := take (.evcClaim t) s (evcClaimEffect t)

def evcCompleteEffect (t : Nat) (v : W32) (s : State) : State :=
  let k := bits v.toNat 0 11
  if ¬running s then notTaken s
  else if (targetOf s t).insvc = some k then modTarget t (fun x => { x with insvc := none }) s
  else raise 60 (modTarget t (fun x => { x with seqCount := satAdd 16 x.seqCount 1, seqLast := BitVec.ofNat 11 k }) s)

/-- A write of EVC_COMPLETE (R451): it ends the service of the source it names, or is discarded and counted. -/
def execEvcComplete (t : Nat) (v : W32) (s : State) : Host.Outcome State Fault Refusal :=
  take (.evcComplete t v) s (evcCompleteEffect t v)

def evcSeqCountReadEffect (t : Nat) (s : State) : State :=
  when (running s) s
    (setReply (.data (evSeq (targetOf s t))) (modTarget t (fun x => { x with seqCount := 0, seqLast := 0 }) s))

/-- A read of EVC_SEQ_COUNT by its owner (R455): the value, which is then cleared. -/
def execEvcSeqCountRead (t : Nat) (s : State) : Host.Outcome State Fault Refusal :=
  take (.evcSeqCountRead t) s (evcSeqCountReadEffect t)

def eventHoldoffExpiredEffect (k : Nat) (s : State) : State :=
  when (running s && (groupOf s k).held) s (modGroup k (fun g => { g with held := false }) s)

/-- The hold-off of a HELD group has passed: the group is OPEN (R449). -/
def execEventHoldoffExpired (k : Nat) (s : State) : Host.Outcome State Fault Refusal :=
  take (.eventHoldoffExpired k) s (eventHoldoffExpiredEffect k)

/-- The mask copy with the more bits set. -/
def fullerMask (a b : W32) : W32 :=
  let n := fun (x : W32) => ((rangeFrom 0 32).filter fun i => x.getLsbD i).length
  if n a < n b then b else a

def evcStateMismatchEffect (k : Nat) (mask2 : W32) (target : Option Nat) (s : State) : State :=
  if ¬running s then notTaken s
  else
    let rebuilt := target.isNone || (groupOf s k).mask != mask2
    let s := if rebuilt then modGroup k (fun g => { g with mask := fullerMask g.mask mask2, pend := 0xFFFFFFFF#32 }) s else s
    let s := match target with
      | none => s
      | some t => modTarget t (fun x => { x with insvc := none }) s
    faultSettled 0x24 52 k 0 outMasked s

/-- The two copies of a group's state differ (R454): rebuilt from the fuller mask, every bit pending, recorded as source 52; a
service whose copies differ ends. `mask2` is the other copy of the mask; where it agrees and a target is named, the service alone differs and the
group stays. -/
def execEvcStateMismatch (k : Nat) (mask2 : W32) (target : Option Nat) (s : State) : Host.Outcome State Fault Refusal :=
  take (.evcStateMismatch k mask2 target) s (evcStateMismatchEffect k mask2 target)

end Sys2Proof.Machine
end

