-- ==== Sys2Proof/Machine/FabMsg.lean ====
section
/-!
DEFINITION. Fabric messages (12): the stream of a tensor (R406), FABRIC_SEND and FABRIC_RECV, and the packets of messages:
REQ, DATA, ACK, REJECT (R403 to R412).
-/
namespace Sys2Proof.Machine

/-! ### The stream of a tensor (R127, R406) -/

/-- The elements of a tensor in logical order: offset and scale index. -/
def TDesc.elems (t : TDesc) : List (Int × Nat) :=
  (rangeFrom 0 (product t.ext)).map fun k =>
    let cs := coordsOf t.ext k
    (t.off cs, if t.blk = 0 then 0 else (t.scalePos cs).1)

/-- Where the anchors or scales that follow the elements stand: (address, bytes), in the order of the elements. -/
def TDesc.sides (t : TDesc) (es : List (Int × Nat)) : List (Int × Nat) :=
  if t.w128 then es.map fun e => ((t.scale : Int) + 2 * e.1, 2)
  else if t.blk = 0 then []
  else (es.map (·.2)).eraseDups.map fun i => (((t.scale + i : Nat) : Int), 1)

/-- Bytes of the stream of some elements. -/
def TDesc.streamLen (t : TDesc) (es : List (Int × Nat)) : Nat :=
  packedLen t.width es.length + ((t.sides es).map (·.2)).sum

/-- The value code at an element, and poison. -/
def valueRead (s : State) (x : Cmd) (t : TDesc) (off : Int) : Nat × Bool :=
  let sp := bitSpan (t.bitAddr off) t.width
  let r := spRead s x t sp.1.toNat sp.2
  (leNat r.2.1 / 2 ^ (t.bitAddr off % 8).toNat % 2 ^ t.width, r.2.2)

/-- Byte ranges of the stream that carry the flagged pieces: pieces of `w` bits from bit 8 × base. -/
def flaggedRanges (base w : Nat) : Nat → List Bool → List (Nat × Nat)
  | _, [] => []
  | k, b :: t =>
    (if b then [(base + k * w / 8, (k * w + w + 7) / 8 - k * w / 8)] else []) ++ flaggedRanges base w (k + 1) t

/-- The stream of a tensor: its bytes and the ranges read poisoned. -/
def streamRead (s : State) (x : Cmd) (t : TDesc) : List Byte × List (Nat × Nat) :=
  let es := t.elems
  let vs := es.map fun e => valueRead s x t e.1
  let ss := (t.sides es).map fun e => let r := spRead s x t e.1.toNat e.2; (r.2.1, r.2.2)
  let n := packedLen t.width es.length
  (natLe n (packCodes t.width (vs.map (·.1))) ++ ss.flatMap (·.1),
    flaggedRanges 0 t.width 0 (vs.map (·.2)) ++ flaggedRanges n (if t.w128 then 16 else 8) 0 (ss.map (·.2)))

/-- The part of bit range [lo, lo + w) of a stream that bytes `bs` from stream byte `o` carry, written at bit address `b`. -/
def streamBits (o : Nat) (bs : List Byte) (poison : List (Nat × Nat)) (lo w : Nat) (b : Int) (z : Out) : Out :=
  let l := Nat.max lo (8 * o)
  let h := Nat.min (lo + w) (8 * (o + bs.length))
  if l < h then
    outBits (b + ((l - lo : Nat) : Int)) (h - l) (leNat bs / 2 ^ (l - 8 * o))
      (touches poison (l / 8 - o) ((h + 7) / 8 - l / 8)) z
  else z

/-- The sides of a stream laid down one after another from stream byte `base`. -/
def streamSides (o : Nat) (bs : List Byte) (poison : List (Nat × Nat)) : Nat → List (Int × Nat) → Out → Out
  | _, [], z => z
  | base, e :: t, z =>
    streamSides o bs poison (base + e.2) t (streamBits o bs poison (8 * base) (8 * e.2) (8 * e.1) z)

/-- Bytes [o, o + bs.length) of the stream of some elements, as output in the tensor. -/
def streamOut (t : TDesc) (es : List (Int × Nat)) (o : Nat) (bs : List Byte) (poison : List (Nat × Nat)) : Out :=
  let z := (List.zip (rangeFrom 0 es.length) es).foldl (fun z e =>
    streamBits o bs poison (e.1 * t.width) t.width (t.bitAddr e.2.1) z) ({} : Out)
  streamSides o bs poison (packedLen t.width es.length) (t.sides es) z

/-- Output stored in a partition's device memory, its poisoned sectors marked (R145, R410). -/
def devOut (p : Nat) (o : Out) (s : State) : State :=
  let runs := runsOfBytes (o.bytes.map fun e =>
    let old := if e.2.2 = 255 then 0 else leNat (devGet s p e.1 1).1
    (e.1, (BitVec.ofNat 8 (old - (old &&& e.2.2) + e.2.1) : Byte)))
  let s := foldState runs (fun e s => devPut p e.1 e.2 s) s
  foldState o.poison.eraseDups (devPoisonSector p) s

/-- Every destination byte of a message that ended early is unspecified (R412). -/
def devScatter (p : Nat) (t : TDesc) (s : State) : State :=
  let es := t.elems
  let spans := (es.map fun e => bitSpan (t.bitAddr e.1) t.width) ++ t.sides es
  let free := s.freeCtr
  foldState spans (fun e s => devPut p e.1.toNat ((rangeFrom e.1.toNat e.2).map (Config.freeByte free)) s)
    { s with freeCtr := s.freeCtr + 1 }

/-! ### Checks of the commands (R404 to R406, R419) -/

/-- The cause of a descriptor's fault under R419; the address range check has none there and takes R340's. -/
def fabCause (st : Status) (cause : Nat) : Nat :=
  match st with
  | .descFault => 0x801 | .formatFault => 0x810 | .alignFault => 0x820 | .boundsFault => 0x630
  | .poisonConsumed => if cause = 0x650 then 0x650 else 0x840
  | _ => cause

def fabFlt (f : Status × Nat) : Flt := (f.1, fabCause f.1 f.2)

/-- Data of the fabric passes through a mover (R16): with none configured a command that moves data ends with UNRECOVERED (R123). -/
def fabMover (s : State) : Bool × Status × Nat := ((chosenMover s).isNone, .unrecovered, 0x150)

/-- Every element and side of a tensor lies in its space. -/
def elemsOk (s : State) (x : Cmd) (t : TDesc) (write : Bool) : Bool :=
  let es := t.elems
  ((es.map fun e => bitSpan (t.bitAddr e.1) t.width) ++ t.sides es).all fun e =>
    decide (0 ≤ e.1) && (if write then spWriteOk s x t e.1.toNat e.2 else (spRead s x t e.1.toNat e.2).1)

/-- The faults of a tensor that a fabric command names: R125 to R132 and R404 to R406; the controls of a COPY are not part of
it. -/
def fabTensor (s : State) (x : Cmd) (dst : Bool) (d : Sum SideFlt TDesc) : List (Bool × Status × Nat) :=
  match d with
  | .inl f => [(true, fabFlt f.2)]
  | .inr t =>
    let l : List (Bool × Status × Nat) := (tdescFaults s x 0 t).map fun e => (e.1, fabFlt e.2.2)
    let bad := (t.indexed || (dst && t.space != 2), Status.descFault, 0x801)
    let l := bad :: l
    if l.any (·.1) then l else [(!elemsOk s x t dst, .boundsFault, 0x630)]

/-- The partition of a fabric domain (R404). -/
def domainPart (s : State) (d : Nat) : Option Nat :=
  if d = 0 then none else findFrom (fun p => (partOf s p).state = .active && (partOf s p).domain = d) 0 64

def fabDomain (s : State) (x : Cmd) : Nat := (partOf s (homeOf s x.fn)).domain

/-- A fabric command completes with its work recorded as applied (R411); one that met poison may still be replayed (R410), and what R412
asks for is sent when its record is written. -/
def fabDone (c : Nat) (poison : Bool) (flags : BitVec 4) (s : State) : State :=
  let x := cmdOf s c
  let s := modCmd c (fun y => { y with applied := !poison }) s
  let s := if poison then finish c .poisonConsumed 0x840 0 0 flags s else finish c .ok 0 0 0 flags s
  wakeJob (x.fn, x.ring) s

/-- The next message number for a channel of a domain (R393). -/
def takeMseq (domain channel : Nat) (s : State) : Nat × State :=
  let k := domain * 65536 + channel
  let m := tabGet 0 s.stw.mseqs k
  (m, { s with stw := { s.stw with mseqs := tabSet 0 s.stw.mseqs k ((m + 1) % 65536) } })

def fabWait (c : Nat) (s : State) : State := modCmd c (fun y => { y with waiting := true }) s

/-! ### FABRIC_SEND (R406 to R409) -/

/-- The data of a REQ: element count, FMT, SBLK and stream length. -/
def reqData (t : TDesc) : List Byte :=
  natLe 8 (product t.ext) ++ natLe 1 (fmtCode t.fmt) ++ natLe 1 t.sblk ++ natLe 6 0 ++ natLe 8 (t.streamLen t.elems)

def sendTensor (s : State) (x : Cmd) : Sum SideFlt TDesc := tdescRead s x (bit (field x 20 1) 0) (field x 8 8) 0

/-- The fault of a FABRIC_SEND. -/
def sendFault (s : State) (x : Cmd) : Option Flt :=
  let dest := field x 16 2
  firstFault (fabTensor s x false (sendTensor s x) ++
    [(decide (fabDomain s x = 0), .boundsFault, 0x831),
     ((s.stw.devValid && decide (dest = ownId s)) || !(routeEntry s dest).valid, .boundsFault, 0x830), fabMover s])

/-- The ranges of one space that the data of a tensor takes. -/
def tensorTouches (space : Nat) (t : TDesc) : List (Nat × Nat) := if t.space = space then readSpans t t.elems else []

/-- A message begins: its REQ is sent (R406). -/
def beginSend (c : Nat) (x : Cmd) (t : TDesc) (s : State) : State :=
  let dom := fabDomain s x
  let ch := field x 18 2
  let (bs, poison) := streamRead s x t
  let s := spNote x t (readSpans t t.elems) s
  let (m, s) := takeMseq dom ch s
  let y : SendCtx := { cmd := c, part := homeOf s x.fn, domain := dom, dest := field x 16 2, channel := ch, mseq := m
                       req := reqData t, data := bs, poison := poison }
  if (usableRoute s y.dest).isNone then fabEnd c .unrecovered 0x850 0 s
  else pushReq y (fabWait c { s with stw := { s.stw with sends := s.stw.sends ++ [y] } })

/-- The packets of a message that carried poison are to be sent again; `bs` and `poison` are what the tensor holds now. -/
def SendCtx.reread (x : SendCtx) (bs : List Byte) (poison : List (Nat × Nat)) : SendCtx :=
  let bad := fun (o : Nat) => touches x.poison o packetMax
  { x with
    data := bs, poison := poison
    acked := x.acked.filter (fun o => !(bad o))
    sends := x.sends.filter (fun e => !(bad e.1)) }

/-- A message goes on in a replay from its first packet that is not acknowledged with clean data (R410, R411). -/
def againSend (c : Nat) (x : Cmd) (t : TDesc) (y : SendCtx) (s : State) : State :=
  let (bs, poison) := streamRead s x t
  let y' := y.reread bs poison
  pushOrFail y' (modSend y (fun _ => y') (fabWait c (spNote x t (readSpans t t.elems) s)))

/-- A FABRIC_SEND whose descriptor `d` has been read and checked: its tensor is read. -/
def sendData (c : Nat) (x : Cmd) (t : TDesc) (s : State) : State :=
  if (chosenMover s).isNone then fabEnd c .unrecovered 0x150 0 s
  else withAccess (2 * c) (homeOf s x.fn) (tensorTouches 2 t) (tensorTouches 3 t) (fun s =>
    match s.stw.sends.find? fun y => y.cmd = c with
    | none => beginSend c x t s
    | some y => againSend c x t y s) s

/-- The range of device memory that a fabric command's descriptor takes. -/
def bodyTouch (host : Bool) (a n : Nat) : List (Nat × Nat) := if host then [] else [(a, n)]

/-- The start of a FABRIC_SEND: its descriptor is read once and checked. -/
def sendStart (c : Nat) (x : Cmd) (s : State) : State :=
  let host := bit (field x 20 1) 0
  let s' := bodyNote x host (field x 8 8) 128 s
  match sendFault s x, sendTensor s x with
  | some f, _ => fabEnd c f.1 f.2 0 s'
  | none, .inl _ => s'
  | none, .inr t =>
    goOn (sendData c x t) (modCmd c (fun x => { x with fetched := some { src := (bodyGet s x host (field x 8 8) 128).2.1 } }) s')

def fabricSendEffect (c : Nat) (s : State) : State :=
  let x := cmdOf s c
  if ¬classReady s c 0x30 then notTaken s
  else if x.applied then finishOk c 0 s
  else match x.fetched with
    | some y => sendData c x (tdescOf y.src) s
    | none => withAccess (2 * c) (homeOf s x.fn) (bodyTouch (bit (field x 20 1) 0) (field x 8 8) 128) [] (sendStart c x) s

/-- FABRIC_SEND (R406): a REQ, then the message by window grants; in a replay it goes on from its first unacknowledged
packet (R411). -/
def execFabricSend (c : Nat) (s : State) : Host.Outcome State Fault Refusal := take (.fabricSend c) s (fabricSendEffect c)

/-! ### FABRIC_RECV (R406, R407) -/

/-- MSEQ `a` comes before or is `b`, modulo 65,536. -/
def mseqLe (a b : Nat) : Bool := decide ((b + 65536 - a) % 65536 < 32768)

/-- A REQ that a FABRIC_RECV names. -/
def RecvCtx.wants (x : RecvCtx) (k : Packet) : Bool :=
  k.kind = 1 && k.domain = x.domain && k.channel = x.channel && (x.source = 0xFFFF || x.source = k.src)

/-- Waiting REQs of one sender and channel are taken in MSEQ order (R406). -/
def firstOfSender (l : List Packet) (k : Packet) : Bool :=
  l.all fun j => j.kind != 1 || j.src != k.src || j.domain != k.domain || j.channel != k.channel || mseqLe k.mseq j.mseq

/-- A REQ meets its FABRIC_RECV (R406): they agree and grants begin, or both end. -/
def matchReq (x : RecvCtx) (k : Packet) (s : State) : State :=
  let t := tdescOf x.desc
  let at_ := fun lo n => leNat ((k.data.drop lo).take n)
  let refuse := fun (st : Status) (cause : Nat) (s : State) =>
    fabEnd x.cmd st cause 0 (sendPacket (rejectTo k.src k.domain k.channel k.mseq cause) s)
  if at_ 0 8 ≠ product t.ext then refuse .descFault 0x804 s
  else if at_ 8 1 ≠ fmtCode t.fmt ∨ at_ 9 1 ≠ t.sblk then refuse .formatFault 0x810 s
  else
    let old := fun (y : RecvCtx) => y.closed != 0 && y.domain = k.domain && y.channel = k.channel
      && y.msg = some (k.src, k.mseq)
    let y := { x with msg := some (k.src, k.mseq), total := at_ 16 8 }
    let s := { s with stw := { s.stw with recvs := (s.stw.recvs.filter fun z => !(old z)).map fun z =>
      if z.cmd = x.cmd then y else z } }
    if cmdRuns s x.cmd then grantRecv y s else s

def recvTensor (s : State) (x : Cmd) : Sum SideFlt TDesc := tdescRead s x (bit (field x 20 1) 0) (field x 8 8) 1

def recvFault (s : State) (x : Cmd) : Option Flt :=
  firstFault (fabTensor s x true (recvTensor s x) ++ [(decide (fabDomain s x = 0), .boundsFault, 0x831), fabMover s])

/-- A FABRIC_RECV that has started looks for a waiting REQ. -/
def beginRecv (c : Nat) (x : Cmd) (s : State) : State :=
  let desc := (bodyGet s x (bit (field x 20 1) 0) (field x 8 8) 128).2.1
  let y : RecvCtx := { cmd := c, part := homeOf s x.fn, domain := fabDomain s x, source := field x 16 2
                       channel := field x 18 2, desc := desc }
  let s := fabWait c { s with stw := { s.stw with recvs := s.stw.recvs ++ [y] } }
  match s.stw.waiting.find? fun k => domainPart s k.domain = some y.part && y.wants k && firstOfSender s.stw.waiting k with
  | none => s
  | some k => matchReq y k { s with stw := { s.stw with waiting := s.stw.waiting.erase k } }

/-- Whether the group of a command that is the ring's current one has failed, from the commands that have ended in it. -/
def clearFailed (c : Nat) (s : State) : State :=
  let x := cmdOf s c
  let bad := fun (d : Nat) => phaseDone (cmdOf s d).phase && !statusOk (cmdOf s d).status
  modRing x.fn x.ring (fun q => { q with failed := (groupCmds s x.fn x.ring q.curGroup).any bad }) s

/-- A FABRIC_RECV that has all of its message ends: with POISON_CONSUMED where a packet of it came poisoned and has not come clean since
(R408, R410). -/
def endRecv (x : RecvCtx) (s : State) : State :=
  if x.got.length ≠ packetCount x.total then s
  else if x.poison = [] then clearFailed x.cmd (fabDone x.cmd false 0 (modRecv x.cmd (fun y => { y with closed := 1 }) s))
  else if phaseDone (cmdOf s x.cmd).phase then s
  else fabDone x.cmd true 0 s

/-- A FABRIC_RECV that goes on in a replay (R411). -/
def againRecv (c : Nat) (y : RecvCtx) (s : State) : State :=
  if (chosenMover s).isNone then fabEnd c .unrecovered 0x150 0 s
  else
    let s := grantRecv y (fabWait c s)
    if y.msg.isSome then endRecv y s else s

def recvStart (c : Nat) (x : Cmd) (s : State) : State :=
  let s' := bodyNote x (bit (field x 20 1) 0) (field x 8 8) 128 s
  match recvFault s x with
  | some f => fabEnd c f.1 f.2 0 s'
  | none => beginRecv c x s'

def fabricRecvEffect (c : Nat) (s : State) : State :=
  let x := cmdOf s c
  if ¬classReady s c 0x31 then notTaken s
  else if x.applied then finishOk c 0 s
  else match s.stw.recvs.find? fun y => y.cmd = c && y.closed = 0 with
    | some y => againRecv c y s
    | none => withAccess (2 * c) (homeOf s x.fn) (bodyTouch (bit (field x 20 1) 0) (field x 8 8) 128) [] (recvStart c x) s

/-- FABRIC_RECV (R406): matched to a REQ on its channel, it writes the message through its own descriptor; in a replay it
continues (R411). -/
def execFabricRecv (c : Nat) (s : State) : Host.Outcome State Fault Refusal := take (.fabricRecv c) s (fabricRecvEffect c)

/-! ### Packets of messages -/

/-- The front packet of the inbox, of a kind, and the machine without it. -/
def takePacket (kind : Nat) (s : State) : Option (Packet × State) :=
  match s.stw.inbox with
  | [] => none
  | k :: t => if running s ∧ k.kind = kind then some (k, { s with stw := { s.stw with inbox := t } }) else none

def holdPacket (k : Packet) (s : State) : State :=
  { s with stw := { s.stw with waiting := s.stw.waiting ++ [k] } }

def packetReqRxEffect (s : State) : State :=
  match takePacket 1 s with
  | none => notTaken s
  | some (k, s) =>
    match domainPart s k.domain with
    | none => sendPacket (rejectTo k.src k.domain k.channel k.mseq 0x831) s
    | some p =>
      match s.stw.recvs.find? fun y => y.closed = 0 && y.msg.isNone && y.part = p && y.wants k with
      | some y => matchReq y k s
      | none => holdPacket k s

/-- A REQ arrives (R404, R406): matched with the first FABRIC_RECV started, left waiting, or rejected. -/
def execPacketReqRx (s : State) : Host.Outcome State Fault Refusal := take .packetReqRx s packetReqRxEffect

/-- The receiver of a message's packet. -/
def RecvCtx.takes (x : RecvCtx) (k : Packet) : Bool :=
  k.domain = x.domain && k.channel = x.channel && x.msg = some (k.src, k.mseq)

/-- What a DATA packet writes of a message's tensor. -/
def recvOut (x : RecvCtx) (k : Packet) : Out :=
  let t := tdescOf x.desc
  streamOut t t.elems k.offset k.data k.poison

/-- A DATA packet written through the descriptor, acknowledged, and the message ended with its last one (R403, R408, R410). Without a
mover nothing can be written (R16, R123): a FABRIC_RECV in progress ends. -/
def recvData (x : RecvCtx) (k : Packet) (s : State) : State :=
  if (chosenMover s).isNone ∧ x.closed = 0 then fabEnd x.cmd .unrecovered 0x150 0 s
  else
    let s := if (chosenMover s).isNone then s else devOut x.part (recvOut x k) (noteMoved k.data.length s)
    let got := if x.got.contains k.offset then x.got else x.got ++ [k.offset]
    let n := if x.closed = 0 ∧ cmdRuns s x.cmd then grantsDue x.total x.granted got.length else x.granted
    let bad := x.poison.filter (· != k.offset) ++ if k.poison = [] then [] else [k.offset]
    let y := { x with got := got, granted := n, poison := bad }
    let s := modRecv x.cmd (fun _ => y) (sendPacket (ackPacket k.src k.domain k.channel k.mseq k.offset true false n) s)
    if x.closed = 0 then endRecv y s else s

/-- The front packet of the inbox is gone. -/
def popInbox (s : State) : State := { s with stw := { s.stw with inbox := s.stw.inbox.drop 1 } }

/-- A DATA packet waits in the inbox while the chunk or the bank that it writes is not to be had (R201, R207, R239). -/
def packetDataRxEffect (s : State) : State :=
  match takePacket 0 s with
  | none => notTaken s
  | some (k, t) =>
    match domainPart s k.domain with
    | none => countNoRoute t
    | some p =>
      match s.stw.recvs.find? fun y => y.closed != 2 && y.part = p && y.takes k with
      | some y => withAccess (2 * y.cmd) p ((recvOut y k).bytes.map fun e => (e.1, 1)) [] (fun s => recvData y k (popInbox s)) s
      | none => sendPacket (rejectTo k.src k.domain k.channel k.mseq 0x851) t

/-- A DATA packet arrives (R403): written, a duplicate included, and acknowledged; rejected where its FABRIC_RECV has failed
(R412). -/
def execPacketDataRx (s : State) : Host.Outcome State Fault Refusal := take .packetDataRx s packetDataRxEffect

/-- Everything of a message or step has been acknowledged. -/
def SendCtx.complete (x : SendCtx) : Bool :=
  let n := packetCount x.data.length + (if x.head = [] then 0 else 1)
  decide (x.acked.length = n)

/-- What an ACK does to its message: a packet retired, grants counted. -/
def SendCtx.ackedBy (x : SendCtx) (k : Packet) : SendCtx :=
  let flags := leNat (k.data.take 4)
  let n := leNat ((k.data.drop 4).take 4)
  { x with granted := Nat.max x.granted n
           acked := if bit flags 0 && !(x.acked.contains k.offset) && tabGet 0 x.sends k.offset != 0
             then x.acked ++ [k.offset] else x.acked }

/-- The message or step of a partition that an ACK, REJECT or resend concerns. -/
def SendCtx.answeredBy (x : SendCtx) (p : Nat) (k : Packet) : Bool :=
  x.part = p && x.dest = k.src && x.domain = k.domain && x.channel = k.channel && x.mseq = k.mseq

def ackTarget (s : State) (p : Nat) (k : Packet) : Option SendCtx :=
  s.stw.sends.find? fun x => x.answeredBy p k && x.coll = bit (leNat (k.data.take 4)) 1

def dropSend (x : SendCtx) (s : State) : State :=
  { s with stw := { s.stw with sends := s.stw.sends.filter fun y => !(x.same y) } }

/-- After an ACK of a message (R407 to R409): the message has ended (one that read poison stays, to be sent again by a replay, R410), or a
job that waited for a grant goes on, and what is now admitted is sent. -/
def afterAck (x : SendCtx) (s : State) : State :=
  if phaseDone (cmdOf s x.cmd).phase then s
  else if x.complete then if x.poison = [] then fabDone x.cmd false 0 (dropSend x s) else fabDone x.cmd true 0 s
  else
    let s := if x.holdsGrant then wakeJob ((cmdOf s x.cmd).fn, (cmdOf s x.cmd).ring) s else s
    if cmdRuns s x.cmd then pushOrFail x s else s

/-- The status that a rejection's cause gives the sender (R404, R406, R412). -/
def rejectStatus (info : Nat) : Status × Nat :=
  if info = 0x804 then (.descFault, 0x804)
  else if info = 0x810 then (.formatFault, 0x810)
  else if info = 0x831 then (.boundsFault, 0x831)
  else (.unrecovered, 0x851)

def packetRejectRxEffect (s : State) : State :=
  match takePacket 3 s with
  | none => notTaken s
  | some (k, s) =>
    let f := rejectStatus k.info
    match domainPart s k.domain with
    | none => countNoRoute s
    | some p =>
      match s.stw.sends.find? fun x => x.answeredBy p k && !(phaseDone (cmdOf s x.cmd).phase) with
      | none => s
      | some x => fabEnd x.cmd f.1 f.2 0 s

/-- A REJECT arrives (R404, R412): the sending command ends. -/
def execPacketRejectRx (s : State) : Host.Outcome State Fault Refusal := take .packetRejectRx s packetRejectRxEffect

/-- The message or step of a command that has the packet at an offset sent and not acknowledged. -/
def unackedSend (s : State) (c off : Nat) : Option SendCtx :=
  s.stw.sends.find? fun x => x.cmd = c && tabGet 0 x.sends off != 0 && !(x.acked.contains off)

def packetAckTimeoutEffect (c off : Nat) (s : State) : State :=
  match unackedSend s c off with
  | none => notTaken s
  | some x =>
    if ¬(running s ∧ cmdRuns s c) then notTaken s
    else if 4 ≤ tabGet 0 x.sends off ∨ (usableRoute s x.dest).isNone then fabEnd c .unrecovered 0x850 0 s
    else if (chosenMover s).isNone then fabEnd c .unrecovered 0x150 0 s
    else match x.admitted.find? fun e => e.1 = off with
      | none => notTaken s
      | some e => sendOne x e { s with stw := { s.stw with resends := satAdd 32 s.stw.resends 1 } }

/-- 2 ms without an ACK (R403): the packet is sent again; a packet sent 4 times, or without a route, ends its command. A stopped
job sends nothing (R373). -/
def execPacketAckTimeout (c off : Nat) (s : State) : Host.Outcome State Fault Refusal :=
  take (.packetAckTimeout c off) s (packetAckTimeoutEffect c off)

def grantWaitTimeoutEffect (c : Nat) (s : State) : State :=
  let x := cmdOf s c
  let mine := s.stw.sends.filter fun y => (cmdOf s y.cmd).fn = x.fn && (cmdOf s y.cmd).ring = x.ring
  if running s && x.phase = .running && cmdClass x = 0x30 && cmdRuns s c && mine.any (fun y => y.cmd = c)
      && mine.all (fun y => !y.holdsGrant) then
    requestStop (homeOf s x.fn) 3 s
  else notTaken s

/-- A FABRIC_SEND whose job has held no grant for 50 µs (R409): the job becomes WAITING, as under R365. -/
def execGrantWaitTimeout (c : Nat) (s : State) : Host.Outcome State Fault Refusal :=
  take (.grantWaitTimeout c) s (grantWaitTimeoutEffect c)

end Sys2Proof.Machine
end

