-- ==== Sys2Proof/Machine/FabColl.lean ====
section
/-!
DEFINITION. Collectives over a ring of devices (12, R413 to R417): FABRIC_COLLECTIVE, its COLL and BARRIER packets, and the ACK
and ABORT packets that messages and collectives share.
-/
namespace Sys2Proof.Machine

/-! ### Fields and checks (R405, R413, R415, R417) -/

def collOp (x : Cmd) : Nat := field x 62 1 % 4
def collRound (x : Cmd) : Nat := field x 62 1 / 4 % 8
def collN (x : Cmd) : Nat := field x 60 2
def collE (x : Cmd) : Nat := field x 56 4
def collRing (x : Cmd) : Nat := field x 24 8
def collWork (x : Cmd) : Nat := field x 32 8

/-- The first element of chunk `c` of `e` elements over `n` devices (R413). -/
def chunkLo (e n c : Nat) : Nat := c * e / n
def chunkSize (e n c : Nat) : Nat := chunkLo e n (c + 1) - chunkLo e n c

/-- Bytes of the work area (R417). -/
def workLen (x : Cmd) : Nat :=
  if collOp x ≤ 1 then 2 * ceilDiv (collE x) (collN x) * 18 + 4096 else 4096

/-- The ring table: readable, the IDs, poisoned. -/
def ringIds (s : State) (x : Cmd) : Bool × List Nat × Bool :=
  let (ok, bs, bad) := bodyGet s x false (collRing x) (2 * collN x)
  (ok, (rangeFrom 0 (collN x)).map fun q => leNat ((bs.drop (2 * q)).take 2), bad)

/-- This device's ring position (R413). -/
def collPos (s : State) (ids : List Nat) : Nat := ids.idxOf (ownId s)

def ringValid (s : State) (ids : List Nat) : Bool := noDup ids && s.stw.devValid && ids.contains (ownId s)

def collSrc (s : State) (x : Cmd) : Sum SideFlt TDesc := tdescRead s x false (field x 8 8) 0
def collDst (s : State) (x : Cmd) : Sum SideFlt TDesc := tdescRead s x false (field x 16 8) 1

/-- The work area meets an array of a tensor in device memory. -/
def workMeets (x : Cmd) (t : TDesc) (dst : Bool) : Bool :=
  t.space = 2 && (t.arrays dst).any fun a =>
    decide (a.1 < ((collWork x + workLen x : Nat) : Int) ∧ ((collWork x : Nat) : Int) < a.2)

/-- Faults of the two tensors together (R415), beside whatever else is at fault (R10); the size of the own chunk counts where the ring table
`ring` gives this device's position. -/
def collPair (s : State) (x : Cmd) (ring : Bool) (src dst : TDesc) : List (Bool × Status × Nat) :=
  let own := chunkSize (collE x) (collN x) (collPos s (ringIds s x).2.1)
  let n := fun (t : TDesc) (k : Nat) => k != 0 && product t.ext != k
  let op := collOp x
  [((op != 2 && n src (collE x)) || (op != 1 && n dst (collE x)), .descFault, 0x801),
   (ring && ((op = 2 && n src own) || (op = 1 && n dst own)), .descFault, 0x801),
   (workMeets x src false || workMeets x dst true, .descFault, 0x801),
   (decide (op ≤ 1) && src.fmt != .w128, .formatFault, 0x810),
   (decide (op ≤ 1) && !(fmtIsOutput dst.fmt && (dst.sblk = 0 || fmtOutScalable dst.fmt)), .formatFault, 0x810),
   (op = 2 && (src.fmt != dst.fmt || src.sblk != dst.sblk), .formatFault, 0x810)]

/-- Own W128 partials by element; none for an entry R57 refuses. -/
def ownSums (s : State) (x : Cmd) (t : TDesc) : Option (Tab Acc) :=
  (List.zip (rangeFrom 0 t.elems.length) t.elems).foldl (fun z e =>
    match z, elemRead s x t e.2.1 e.2.2 with
    | some l, some r =>
      (entryAcc (BitVec.ofNat 128 r.code) (BitVec.ofNat 16 r.side)).map fun c => tabPut l e.1 { c with poison := r.poison }
    | z, _ => z) (some [])

/-- The faults of a FABRIC_COLLECTIVE at its start. -/
def collFaults (s : State) (x : Cmd) : List (Bool × Status × Nat) :=
  let (ok, ids, bad) := ringIds s x
  let fields : List (Bool × Status × Nat) :=
    [(field x 62 1 / 32 != 0 || decide (5 ≤ collRound x) || decide (collN x < 2 ∨ 4096 < collN x)
        || (collOp x != 3 && collE x = 0), .descFault, 0x801),
     (decide (fabDomain s x = 0), .boundsFault, 0x831),
     (collRing x % 2 != 0 || collWork x % 64 != 0, .alignFault, 0x820)]
  if fields.any fun e => e.1 && e.2.1 == Status.descFault then fields
  else
    let places : List (Bool × Status × Nat) :=
      [(!ok, .boundsFault, 0x630), (ok && bad, .poisonConsumed, 0x840), (ok && !bad && !ringValid s ids, .descFault, 0x803),
       (!devOk s (homeOf s x.fn) (collWork x) (workLen x), .boundsFault, 0x630)]
    let tensors := if collOp x = 3 then [] else fabTensor s x false (collSrc s x) ++ fabTensor s x true (collDst s x)
    let l := fields ++ places ++ tensors
    if collOp x = 3 then l
    else
      let l := l ++ [fabMover s]
      match collSrc s x, collDst s x with
      | .inr src, .inr dst =>
        let sums := !(l.any (·.1)) && decide (collOp x ≤ 1) && src.fmt = .w128 && (ownSums s x src).isNone
        l ++ collPair s x (ok && !bad && ringValid s ids) src dst ++ [(sums, .formatFault, 0x810)]
      | _, _ => l

/-! ### Chunks (R413, R415, R417) -/

def collDescX (x : CollCtx) (s : State) : Cmd := cmdOf s x.cmd

/-- In its reduce-scatter phase (R415). -/
def CollCtx.reducing (x : CollCtx) : Bool := decide (x.op ≤ 1) && decide (x.step < x.ndev - 1)

/-- The step within its phase. -/
def CollCtx.phaseStep (x : CollCtx) : Nat := if x.op = 0 ∧ ¬x.reducing then x.step - (x.ndev - 1) else x.step

/-- The chunk that a step sends, and the one it receives (R415). -/
def CollCtx.outChunk (x : CollCtx) : Nat :=
  if x.reducing then (x.pos + 2 * x.ndev - x.phaseStep - 1) % x.ndev else (x.pos + x.ndev - x.phaseStep) % x.ndev
def CollCtx.inChunk (x : CollCtx) : Nat :=
  if x.reducing then (x.pos + 2 * x.ndev - x.phaseStep - 2) % x.ndev else (x.pos + 2 * x.ndev - 1 - x.phaseStep) % x.ndev

def CollCtx.lastStep (x : CollCtx) : Nat := if x.op = 0 then 2 * (x.ndev - 1) - 1 else x.ndev - 2

/-- The elements of chunk `c`, by index in the whole tensor. -/
def CollCtx.members (x : CollCtx) (c : Nat) : List Nat :=
  rangeFrom (chunkLo x.ecount x.ndev c) (chunkSize x.ecount x.ndev c)

def CollCtx.dstDesc (x : CollCtx) : TDesc := tdescOf x.dst

/-- The destination's elements of chunk `c`: for REDUCE_SCATTER the destination holds the own chunk alone. -/
def CollCtx.dstElems (x : CollCtx) (c : Nat) : List (Int × Nat) :=
  let es := x.dstDesc.elems
  if x.op = 1 then es else (es.drop (chunkLo x.ecount x.ndev c)).take (chunkSize x.ecount x.ndev c)

/-- Bytes of the chunk that a step receives. -/
def CollCtx.inLen (x : CollCtx) : Nat :=
  if x.reducing then 18 * chunkSize x.ecount x.ndev x.inChunk else x.dstDesc.streamLen (x.dstElems x.inChunk)

/-- A chunk of W128 partials as a stream, with its poisoned ranges. -/
def sumStream (x : CollCtx) (c : Nat) : List Byte × List (Nat × Nat) :=
  let ms := (x.members c).map fun i => tabGet ({} : Acc) x.sums i
  let es := ms.map accEntry
  (es.flatMap (fun e => natLe 16 e.1.toNat) ++ es.flatMap (fun e => natLe 2 e.2.toNat),
    flaggedRanges 0 128 0 (ms.map (·.poison)) ++ flaggedRanges (16 * ms.length) 16 0 (ms.map (·.poison)))

/-- The received partials added to the device's own (R57, R415); none where anchors disagree. -/
def addIncoming (x : CollCtx) : Option CollCtx :=
  let bs := (rangeFrom 0 x.inLen).map fun k => tabGet 0 x.rx k
  let n := chunkSize x.ecount x.ndev x.inChunk
  (List.zip (rangeFrom 0 n) (x.members x.inChunk)).foldl (fun z e =>
    match z with
    | none => none
    | some x =>
      let v := leNat ((bs.drop (16 * e.1)).take 16)
      let a := leNat ((bs.drop (16 * n + 2 * e.1)).take 2)
      match entryAcc (BitVec.ofNat 128 v) (BitVec.ofNat 16 a) with
      | none => none
      | some d =>
        let p := touches x.rxPoison (16 * e.1) 16 || touches x.rxPoison (16 * n + 2 * e.1) 2
        let own := tabGet ({} : Acc) x.sums e.2
        (entryAdd { d with poison := p } own).map fun c =>
          { x with sums := tabPut x.sums e.2 c, flags := x.flags ||| nanFlags (accNan d || accNan own) (accVal c) })
    (some x)

/-- A chunk's sums in the destination's format, rounded once (R59 to R63, R415): codes, scales in the order of the elements,
flags. The scale of a block that a chunk's end splits is that of the larger of the sums here and those of the block's other elements,
which other devices alone hold: what these give is a free function of the collective's fields and its sums here (R62, log 85). -/
def roundChunk (x : CollCtx) (rd : Rnd) (c : Nat) : List Nat × List Nat × BitVec 4 :=
  let t := x.dstDesc
  let ms := x.members c
  let vs := ms.map fun i => accVal (tabGet ({} : Acc) x.sums i)
  if t.w128 then
    let es := ms.map fun i => accEntry (tabGet ({} : Acc) x.sums i)
    (es.map (·.1.toNat), es.map (·.2.toNat), 0)
  else if t.blk = 0 then
    let es := List.zipWith (fun i v => encodeVal t.fmt rd i v) ms vs
    (es.map (·.1), [], es.foldl (fun g e => g ||| e.2) 0)
  else
    let es := List.zip (x.dstElems c) (List.zip ms vs)
    let others : List (Int × Nat) := if x.op = 1 then [] else
      t.elems.take (chunkLo x.ecount x.ndev c) ++ t.elems.drop (chunkLo x.ecount x.ndev (c + 1))
    let edge := fun (b : Nat) => others.any fun e => e.2 = b
    let bl := ((x.dstElems c).map (·.2)).eraseDups.map fun b =>
      let mine := es.filter fun e => e.1.2 = b
      let vs := mine.map fun m => m.2.2
      let own := scaleCode t.fmt vs
      let sums := (x.members c).map fun i => (accEntry (tabGet ({} : Acc) x.sums i)).1.toNat
      let sc := if edge b then Nat.max own (Config.splitScale x.head sums b % 255) else own
      let (codes, g) := encodeScaled t.fmt rd (fun j => ((mine[j]?).map (·.2.1)).getD 0) sc vs
      (b, sc, codes, g)
    let codeOf := fun (e : Nat × (Int × Nat)) =>
      match bl.find? fun b => b.1 = e.2.2 with
      | none => 0
      | some b => b.2.2.1.getD (((x.dstElems c).take e.1).filter fun (y : Int × Nat) => y.2 = e.2.2).length 0
    ((List.zip (rangeFrom 0 ms.length) (x.dstElems c)).map codeOf, bl.map (·.2.1), bl.foldl (fun g b => g ||| b.2.2.2) 0)

/-- A rounded chunk as a stream of the destination's format. -/
def roundedStream (x : CollCtx) (rd : Rnd) (c : Nat) : List Byte × BitVec 4 :=
  let t := x.dstDesc
  let (codes, sides, g) := roundChunk x rd c
  (natLe (packedLen t.width codes.length) (packCodes t.width codes) ++ sides.flatMap (natLe (if t.w128 then 2 else 1)), g)

/-- The poisoned ranges of a rounded chunk's stream: an element is marked with its sum, and in a scaled destination with every
sum of its block (R140, R410). -/
def roundedPoison (x : CollCtx) (c : Nat) : List (Nat × Nat) :=
  let t := x.dstDesc
  let es := List.zip (x.dstElems c) ((x.members c).map fun i => (tabGet ({} : Acc) x.sums i).poison)
  let n := packedLen t.width es.length
  if t.blk = 0 then
    let l := es.map (·.2)
    flaggedRanges 0 t.width 0 l ++ (if t.w128 then flaggedRanges n 16 0 l else [])
  else
    let bad := fun (b : Nat) => es.any fun e => e.1.2 = b && e.2
    flaggedRanges 0 t.width 0 (es.map fun e => bad e.1.2)
      ++ flaggedRanges n 8 0 (((x.dstElems c).map (·.2)).eraseDups.map bad)

/-- The work area holds partials and a progress record in a form the spec does not give: its bytes are unspecified (R417). -/
def touchWork (x : CollCtx) (s : State) : State :=
  let y := collDescX x s
  let free := s.freeCtr
  devPut x.part (collWork y) ((rangeFrom (collWork y) (workLen y)).map (Config.freeByte free)) { s with freeCtr := s.freeCtr + 1 }

/-! ### Steps -/

/-- A step begins: its record and, as granted, its chunk go to next; packets that wait for it are taken up (R414, R415). -/
def startStep (x : CollCtx) (data : List Byte) (poison : List (Nat × Nat)) (s : State) : State :=
  let (m, s) := takeMseq x.domain x.collId s
  let y : SendCtx := { cmd := x.cmd, part := x.part, domain := x.domain, dest := x.next, channel := x.collId, mseq := m
                       coll := true, head := x.head, data := data, poison := poison }
  let x := { x with msg := none, granted := 0, got := [], rx := [], rxPoison := [] }
  let s := modColl x.cmd (fun _ => x) { s with stw := { s.stw with sends := s.stw.sends ++ [y] } }
  if (usableRoute s y.dest).isNone then fabEnd x.cmd .unrecovered 0x850 x.flags s else wakeColl x (pushSend y s)

/-- A collective completes (R415, R416). -/
def endColl (x : CollCtx) (s : State) : State :=
  let s := { s with stw := { s.stw with colls := s.stw.colls.filter fun y => y.cmd != x.cmd } }
  fabDone x.cmd x.poison x.flags s

/-- A chunk's stream written into the destination. -/
def writeChunk (x : CollCtx) (c : Nat) (bs : List Byte) (poison : List (Nat × Nat)) (s : State) : State :=
  devOut x.part (streamOut x.dstDesc (x.dstElems c) 0 bs poison) (noteMoved bs.length s)

/-- The end of the reduce-scatter (R415): the own chunk is rounded and written, and gathered for ALL_REDUCE. -/
def endReduce (x : CollCtx) (s : State) : State :=
  let y := collDescX x s
  let rd : Rnd := { mode := collRound y, seed := field y 40 8, stream := field y 48 8 }
  let (bs, g) := roundedStream x rd x.pos
  let poison := roundedPoison x x.pos
  let x := { x with flags := x.flags ||| g, poison := x.poison || poison != [] }
  let s := writeChunk x x.pos bs poison s
  if x.op = 1 then endColl x s else startStep { x with step := x.step + 1 } bs poison s

/-- A step whose chunk has been received and whose own chunk has been acknowledged (R415). -/
def finishStep (x : CollCtx) (s : State) : State :=
  if x.reducing then
    match addIncoming x with
    | none => fabEnd x.cmd .formatFault 0x810 x.flags s
    | some x =>
      let s := touchWork x (modColl x.cmd (fun _ => x) s)
      if x.step + 2 = x.ndev then endReduce x s
      else
        let x := { x with step := x.step + 1 }
        let (bs, poison) := sumStream x x.outChunk
        startStep x bs poison s
  else
    let bs := (rangeFrom 0 x.inLen).map fun k => tabGet 0 x.rx k
    let poison := x.rxPoison
    let s := touchWork x (writeChunk x x.inChunk bs poison s)
    let x := { x with poison := x.poison || poison != [] }
    if x.step = x.lastStep then endColl x s else startStep { x with step := x.step + 1 } bs poison s

/-- The step is over when everything has come in and nothing is unacknowledged. -/
def stepOver (s : State) (x : CollCtx) : Bool :=
  x.msg.isSome && decide (x.got.length = packetCount x.inLen) && s.stw.sends.all fun y => y.cmd != x.cmd

/-- The ranges of device memory that the end of a step writes: the work area, and a chunk of the destination. -/
def CollCtx.endTouches (x : CollCtx) (y : Cmd) : List (Nat × Nat) :=
  let chunk := fun (c : Nat) => readSpans x.dstDesc (x.dstElems c)
  (collWork y, workLen y) :: (if x.reducing then if x.step + 2 = x.ndev then chunk x.pos else [] else chunk x.inChunk)

/-- A step of a collective ends while its job runs; a stopped job's collective stays in its step (R374). Without a mover its chunk cannot
be written (R16, R123); while what it writes is not to be had (R201, R207, R239) the step waits, and the command goes on when it is
issued again. -/
def settleStep (c : Nat) (s : State) : State :=
  match s.stw.colls.find? fun x => x.cmd = c with
  | none => s
  | some x =>
    let l := x.endTouches (collDescX x s)
    if ¬(stepOver s x && cmdRuns s c) then s
    else if (chosenMover s).isNone then fabEnd c .unrecovered 0x150 x.flags s
    else if accessNow (2 * c) x.part l [] s then finishStep x (dropAsk (2 * c) s)
    else modColl c (fun x => { x with again := true }) (goOn (withAccess (2 * c) x.part l [] id) s)

/-- Grants that a collective's step can give now, in an ACK that acknowledges nothing (R407, R415). -/
def grantColl (x : CollCtx) (s : State) : State :=
  match x.msg with
  | none => s
  | some m =>
    let n := grantsDue x.inLen x.granted x.got.length
    if n = x.granted then s
    else sendPacket (ackPacket x.prev x.domain x.collId m 0 false true n) (modColl x.cmd (fun y => { y with granted := n }) s)

/-! ### FABRIC_COLLECTIVE (R413 to R417) -/

/-- The token of a BARRIER goes to next (R416), then `go`; without a usable route the command ends (R403). -/
def passToken (x : CollCtx) (go : State → State) (s : State) : State :=
  if (usableRoute s x.next).isNone then fabEnd x.cmd .unrecovered 0x850 0 s else go (sendTagged (cmdTag x.cmd) x.token s)

/-- The participant's own chunk in an ALL_GATHER, written to the destination and sent on. -/
def beginGather (x : CollCtx) (y : Cmd) (s : State) : State :=
  if chunkSize x.ecount x.ndev x.pos = 0 then startStep x [] [] s
  else
    let t := tdescOf x.src
    let (bs, poison) := streamRead s y t
    let s := spNote y t (readSpans t t.elems) s
    let x := { x with poison := poison != [] }
    startStep x bs poison (writeChunk x x.pos bs poison s)

/-- The participant's partials of an ALL_REDUCE or REDUCE_SCATTER. -/
def beginReduce (x : CollCtx) (y : Cmd) (s : State) : State :=
  let t := tdescOf x.src
  let x := { x with sums := (ownSums s y t).getD [] }
  let x := { x with poison := x.sums.any fun e => e.2.poison }
  let s := spNote y t (readSpans t t.elems) s
  let (bs, poison) := sumStream x x.outChunk
  startStep x bs poison s

/-- The first accesses of a collective to its data. -/
def beginData (x : CollCtx) (y : Cmd) (s : State) : State :=
  let x := { x with begun := true }
  let s := touchWork x (fabWait x.cmd (modColl x.cmd (fun _ => x) s))
  if x.op = 3 then wakeColl x (if x.pos = 0 then passToken x id s else s)
  else if x.op = 2 then beginGather x y s
  else beginReduce x y s

/-- The ranges of one space that they touch. -/
def beginTouches (space : Nat) (x : CollCtx) (y : Cmd) : List (Nat × Nat) :=
  (if x.op = 3 then [] else tensorTouches space (tdescOf x.src))
    ++ (if space = 2 then (collWork y, workLen y) :: (if x.op = 2 then readSpans x.dstDesc (x.dstElems x.pos) else []) else [])

/-- A collective whose tables have been read and checked begins. -/
def collData (c : Nat) (y : Cmd) (x : CollCtx) (s : State) : State :=
  if x.op ≠ 3 ∧ (chosenMover s).isNone then fabEnd c .unrecovered 0x150 0 s
  else withAccess (2 * c) x.part (beginTouches 2 x y) (beginTouches 3 x y) (beginData x y) s

/-- A participant in a collective, from its command, ring table and descriptors (R413, R415). -/
def collCtx (c : Nat) (y : Cmd) (s : State) : CollCtx :=
  let ids := (ringIds s y).2.1
  let src := (bodyGet s y false (field y 8 8) 128).2.1
  let dst := (bodyGet s y false (field y 16 8) 128).2.1
  let t := tdescOf dst
  let kind := if collOp y = 3 then natLe 8 0 else natLe 1 (fmtCode t.fmt) ++ natLe 1 t.sblk ++ natLe 6 0
  { cmd := c, part := homeOf s y.fn, domain := fabDomain s y, collId := field y 63 1, op := collOp y
    ndev := collN y, pos := collPos s ids, ids := ids
    head := natLe 24 (field y 40 24) ++ kind ++ ids.flatMap (natLe 2)
    ecount := collE y, src := src, dst := dst }

/-- The ring table and the descriptors of a collective are read once (R413, R415). -/
def beginColl (c : Nat) (y : Cmd) (s : State) : State :=
  let x := collCtx c y s
  goOn (collData c y x) { s with stw := { s.stw with colls := s.stw.colls ++ [x] } }

/-- A collective that is reissued goes on in its ring step (R374, R417): it sends what is granted and a token that was cancelled, takes up
the packets that waited for it, grants, and ends the step if that is over. -/
def resumeColl (c : Nat) (x : CollCtx) (s : State) : State :=
  let s := modColl c (fun y => { y with again := false, owed := false }) (fabWait c s)
  let s := if x.owed then passToken x id s else s
  let s := foldState (s.stw.sends.filter fun z => z.cmd = c) pushOrFail s
  match s.stw.colls.find? fun y => y.cmd = c with
  | none => s
  | some x => settleStep c (grantColl x (wakeColl x s))

/-- The ranges of device memory that the tables of a collective take. -/
def tableTouches (x : Cmd) : List (Nat × Nat) :=
  (collRing x, 2 * collN x) :: if collOp x = 3 then [] else [(field x 8 8, 128), (field x 16 8, 128)]

/-- The start of a collective: its tables are read and checked. -/
def collStart (c : Nat) (x : Cmd) (s : State) : State :=
  let s' := bodyNote x false (collRing x) (2 * collN x) s
  let s' := if collOp x = 3 then s' else bodyNote x false (field x 8 8) 128 (bodyNote x false (field x 16 8) 128 s')
  match firstFault (collFaults s x) with
  | some f => fabEnd c f.1 f.2 0 s'
  | none => beginColl c x s'

/-- A collective begins, is reissued, or goes on after its job was held. -/
def collReady (s : State) (c : Nat) : Bool :=
  classReady s c 0x32
    || (classReady (modCmd c (fun y => { y with waiting := false }) s) c 0x32 && s.stw.colls.any fun y => y.cmd = c && y.again)

def fabricCollectiveEffect (c : Nat) (s : State) : State :=
  let x := cmdOf s c
  if ¬collReady s c then notTaken s
  else if x.applied then finish c .ok 0 0 0 x.flags s
  else match s.stw.colls.find? fun y => y.cmd = c with
    | some y => if y.begun then resumeColl c y s else collData c x y s
    | none => withAccess (2 * c) (homeOf s x.fn) (tableTouches x) [] (collStart c x) s

/-- FABRIC_COLLECTIVE (R415, R416): an exact ring reduce-scatter, all-gather, all-reduce or barrier; a replay continues from
the recorded point (R417). -/
def execFabricCollective (c : Nat) (s : State) : Host.Outcome State Fault Refusal :=
  take (.fabricCollective c) s (fabricCollectiveEffect c)

/-! ### COLL, BARRIER, ACK and ABORT packets -/

/-- The key of the last step taken from a peer in a collective. -/
def collKey (k : Packet) : Nat := (k.domain * 65536 + k.src) * 256 + k.channel % 256

/-- A packet of a step already taken. -/
def collOld (s : State) (k : Packet) : Bool :=
  let l := tabGet 0 s.stw.collLast (collKey k)
  l != 0 && mseqLe k.mseq (l - 1)

def ackColl (x : CollCtx) (k : Packet) (s : State) : State :=
  sendPacket (ackPacket k.src k.domain k.channel k.mseq k.offset true true x.granted) s

/-- The record of a step is compared (R414): it begins the step, or the command ends. A record from a device that this one's ring table does
not make its previous one, and any for a BARRIER, differs from what this participant gave (log 161). -/
def takeRecord (x : CollCtx) (k : Packet) (s : State) : State :=
  if k.data ≠ x.head ∨ k.src ≠ x.prev ∨ x.op = 3 then fabEnd x.cmd .descFault 0x802 x.flags s
  else
    let x := { x with msg := some k.mseq, granted := grantsDue x.inLen 0 0 }
    let s := { s with stw := { s.stw with collLast := tabSet 0 s.stw.collLast (collKey k) (k.mseq + 1) } }
    settleStep x.cmd (ackColl x k (modColl x.cmd (fun _ => x) s))

/-- A packet of the step in progress. -/
def takeChunk (x : CollCtx) (k : Packet) (s : State) : State :=
  if x.got.contains k.offset ∨ k.offset < x.head.length then ackColl x k s
  else
    let o := k.offset - x.head.length
    let got := x.got ++ [k.offset]
    let n := if cmdRuns s x.cmd then grantsDue x.inLen x.granted got.length else x.granted
    let x := { x with got := got, granted := n, rx := putBytes 0 x.rx o k.data
                      rxPoison := x.rxPoison ++ k.poison.map fun e => (e.1 + o, e.2) }
    settleStep x.cmd (ackColl x k (modColl x.cmd (fun _ => x) s))

/-- The collective, of those that satisfy `f`, that a packet is for: one whose previous participant sent it, else any of its COLL_ID. -/
def collFor (f : CollCtx → Bool) (k : Packet) (s : State) : Option CollCtx :=
  let l := s.stw.colls.filter f
  match l.find? fun x => k.src = x.prev with
  | some x => some x
  | none => l.head?

def packetCollRxEffect (s : State) : State :=
  match takePacket 4 s with
  | none => notTaken s
  | some (k, s) =>
    match domainPart s k.domain with
    | none => sendPacket (rejectTo k.src k.domain k.channel k.mseq 0x831) s
    | some p => match collFor (fun x => x.part = p && x.takes k) k s with
    | none => if collOld s k then sendPacket (ackPacket k.src k.domain k.channel k.mseq k.offset true true 0) s else holdPacket k s
    | some x =>
      if x.msg = some k.mseq ∧ k.src = x.prev then takeChunk x k s
      else if collOld s k then ackColl x k s
      else if x.msg.isNone ∧ k.offset = 0 ∧ cmdRuns s x.cmd then takeRecord x k s
      else holdPacket k s

/-- A COLL packet arrives (R414, R415): its step's record is checked, its data added to the local partial or gathered; it
waits while the collective has not come to it or its job does not run (R373). -/
def execPacketCollRx (s : State) : Host.Outcome State Fault Refusal := take .packetCollRx s packetCollRxEffect

/-- The token has come (R416). -/
def takeToken (x : CollCtx) (s : State) : State :=
  let x := { x with passes := x.passes + 1 }
  let s := modColl x.cmd (fun _ => x) s
  if x.passes = 1 then passToken x id (touchWork x s)
  else if x.pos = 0 then endColl x s
  else passToken x (endColl x) s

def packetBarrierRxEffect (s : State) : State :=
  match takePacket 5 s with
  | none => notTaken s
  | some (k, t) =>
    match domainPart s k.domain with
    | none => countNoRoute t
    | some p => match s.stw.colls.find? fun x => x.part = p && x.takes k && x.op = 3 with
    | none => holdPacket k t
    | some x =>
      if cmdRuns s x.cmd then
        withAccess (2 * x.cmd) p [(collWork (cmdOf s x.cmd), workLen (cmdOf s x.cmd))] [] (fun s => takeToken x (popInbox s)) s
      else holdPacket k t

/-- A BARRIER token arrives (R416): passed on, and the barrier completes on its second pass. -/
def execPacketBarrierRx (s : State) : Host.Outcome State Fault Refusal := take .packetBarrierRx s packetBarrierRxEffect

def packetAckRxEffect (s : State) : State :=
  match takePacket 2 s with
  | none => notTaken s
  | some (k, s) =>
    match domainPart s k.domain with
    | none => countNoRoute s
    | some p => match ackTarget s p k with
    | none => s
    | some x =>
      let y := x.ackedBy k
      let s := modSend x (fun _ => y) s
      if ¬y.coll then afterAck y s
      else if y.complete then settleStep y.cmd (dropSend y s)
      else if cmdRuns s y.cmd then pushOrFail y s else s

/-- An ACK arrives (R403, R407): its packet is retired, and what it grants is sent. -/
def execPacketAckRx (s : State) : Host.Outcome State Fault Refusal := take .packetAckRx s packetAckRxEffect

/-- The ABORT of a message (R412): a waiting REQ is withdrawn; a matched FABRIC_RECV ends, its destination unspecified. -/
def abortMessage (p : Nat) (k : Packet) (s : State) : State :=
  let s := { s with stw := { s.stw with waiting := s.stw.waiting.filter fun j =>
    !(j.kind = 1 && j.src = k.src && j.domain = k.domain && j.channel = k.channel && j.mseq = k.mseq) } }
  match s.stw.recvs.find? fun y => y.closed = 0 && y.part = p && y.takes k with
  | none => s
  | some y =>
    if phaseDone (cmdOf s y.cmd).phase then modRecv y.cmd (fun z => { z with closed := 2 }) s
    else
    let s := devScatter y.part (tdescOf y.desc) (modRecv y.cmd (fun z => { z with closed := 2 }) s)
    fabEnd y.cmd .unrecovered 0x851 0 s

/-- The ABORT of a collective (R414): it ends and passes the ABORT round the ring. -/
def abortColl (p : Nat) (k : Packet) (s : State) : State :=
  match collFor (fun x => x.part = p && x.domain = k.domain && x.collId = k.channel % 256) k s with
  | none => s
  | some x => fabEnd x.cmd .unrecovered 0x851 0 s

def packetAbortRxEffect (s : State) : State :=
  match takePacket 6 s with
  | none => notTaken s
  | some (k, s) =>
    match domainPart s k.domain with
    | none => countNoRoute s
    | some p => if k.nbytes = 0 then abortMessage p k s else abortColl p k s

/-- An ABORT arrives (R412, R414). -/
def execPacketAbortRx (s : State) : Host.Outcome State Fault Refusal := take .packetAbortRx s packetAbortRxEffect

end Sys2Proof.Machine
end

