-- ==== Sys2Proof/Machine/FabLink.lean ====
section
/-!
DEFINITION. Stawa ports (12): training, keying and retraining (R387 to R390, R399, R490), flits with their credits, sequence
numbers, acknowledgements and replay (R391 to R398), and forwarding (R401, R402).
-/
namespace Sys2Proof.Machine

/-! ### Flits as they stand on a link (R391, R399) -/

/-- The 64-bit header of a flit (R391). -/
def flitHeader (y : Flit) : Nat :=
  2 ^ 52 * y.seq + 2 ^ 40 * y.ack + 2 ^ 32 * y.credit + 2 ^ 30 * y.cvc + 2 ^ 28 * y.vc + 2 ^ 24 * y.typ + 2 ^ 16 * y.plen
    + 2 ^ 15 * b01 y.poison

/-- The 240 payload bytes: an IDLE or NAK flit's begin with its count (R392). -/
def flitPayload (y : Flit) : List Byte :=
  let l := if y.typ = 0 ∨ y.typ = 5 then natLe 8 y.count else y.pay
  l ++ List.replicate (240 - l.length) 0

/-- The IV of a flit: the salt, then a 64-bit count (R399). -/
def flitIv (salt : W32) (count : Nat) : Nat := leNat (natLe 4 salt.toNat ++ natLe 8 count)

/-- The 64-bit tag of a flit under a direction's key, its header the additional data (R391, R399): GCM's tag cut to its first eight
bytes (log 175). -/
def flitTag (key : Nat) (salt : W32) (count : Nat) (y : Flit) : List Byte :=
  let iv := flitIv salt count
  (Config.gcmTag key iv (Config.gcmCipher key iv (flitPayload y)) (natLe 8 (flitHeader y))).take 8

/-- The count of an IDLE or NAK flit in its IV: bit 63 set (R399). -/
def idleCount (n : Nat) : Nat := 2 ^ 63 + n % 2 ^ 63

/-- The number of sequenced flits sent before one with SEQ `q`, as a receiver that expects number `n` takes it: the nearest (log 163). -/
def seqCount (n q : Nat) : Nat :=
  let back := (n % 4096 + 4096 - q % 4096) % 4096
  if back < 2048 then n - back else n + (4096 - back)

/-- A flit's tag verifies (R396, R399): under the receive key, or for what was sealed before the last replacement under the one before
it (log 163). -/
def authentic (x : Port) (y : Flit) : Bool :=
  let n := if y.typ = 0 ∨ y.typ = 5 then idleCount y.count else seqCount x.rxSeq y.seq
  decide (y.trailer = flitTag x.keyRx x.saltRx n y)
    || match x.keyRxOld with | none => false | some k => decide (y.trailer = flitTag k x.saltRx n y)

/-- One bit of the CRC-64 of ECMA-182, whose polynomial the standard gives (log 175). -/
def crcBit (c : Nat) : Nat := if 2 ^ 63 ≤ c then ((2 * c) % 2 ^ 64) ^^^ 0x42F0E1EBA9EA3693 else 2 * c

/-- CRC-64 (ECMA-182) of a byte string. -/
def crc64 (bs : List Byte) : Nat := bs.foldl (fun c b => iter (fun _ c => crcBit c) 0 8 (c ^^^ (b.toNat * 2 ^ 56))) 0

/-- A MGMT flit's trailer is the CRC-64 of its other bytes (R391), little-endian (log 175). -/
def mgmtGood (y : Flit) : Bool := y.fec && decide (y.trailer = natLe 8 (crc64 (natLe 8 (flitHeader y) ++ flitPayload y)))

/-- Neither count of a direction has reached 2^40 under its key (R399). -/
def keyFresh (x : Port) : Bool := decide (x.txSeq - x.keyedSeq < 2 ^ 40 ∧ x.idleTx - x.keyedIdle + 1 < 2 ^ 40)

/-! ### Port states (R388) -/

/-- A port whose session ends: keys destroyed, everything in flight gone, its lanes at rest (R399). -/
def portCleared (st : PortState) (x : Port) : Port :=
  { x with
    state := st, rxWidth := 0, txWidth := 0, enc := false, keyTx := 0, keyRx := 0, saltTx := 0, saltRx := 0, keyRxOld := none
    keyedSeq := 0, keyedIdle := 0
    attempts := 0, recentRetrains := 0, txSeq := 0, rxSeq := 0, ackIn := 0, idleTx := 0, idleRx := 0, nakSent := false
    replay := [], queue := [], openTag := [], fwd := [], txFree := [], rxUsed := [], rxFreed := [], partial_ := [] }

/-- The buffer entry of a forwarded flit is freed at the port it came in by (R394). -/
def freeEntry (tag : Nat) (s : State) : State :=
  if tag = 0 ∨ 64 ≤ tag then s
  else
    let c := (tag - 1) % 4
    modPort ((tag - 1) / 4) (fun x => { x with
      rxUsed := tabMod 0 x.rxUsed c fun k => k - 1
      rxFreed := tabMod 0 x.rxFreed c fun k => k + 1 }) s

/-- Flits waiting to be forwarded through a port that closes are lost: their buffer entries are freed. -/
def freeQueue (pt : Nat) (s : State) : State := foldState (portOf s pt).queue (fun e s => freeEntry e.1 s) s

/-- A port without the packets on their way through port `pt`, which closed: flits that arrived through `pt` are gone from its
queue, and the rest of each packet that it was forwarding to `pt` is discarded. -/
def dropThrough (pt : Nat) (x : Port) : Port :=
  let mine := fun (tag : Nat) => decide (1 + 4 * pt ≤ tag ∧ tag < 5 + 4 * pt)
  { x with
    queue := x.queue.filter fun e => !(mine e.1)
    openTag := x.openTag.filter fun e => !(mine (e.2 - 1))
    fwd := tabMap 0 x.fwd fun _ w => if 2 ≤ w ∧ (w - 2) / 4 = pt then 1 else w }

def dropForwards (pt : Nat) (s : State) : State :=
  { s with stw := { s.stw with ports := tabMap {} s.stw.ports fun _ x => dropThrough pt x } }

/-- A change of state or width raises source 40 + pt (R388, R446). -/
def portEvent (pt : Nat) (s : State) : State := raise (40 + pt) s

def portDown (pt : Nat) (s : State) : State :=
  portEvent pt (dropForwards pt (modPort pt (fun x => { portCleared .down x with en := false }) (freeQueue pt s)))

/-- A port fails (R388, R460): its record is written. -/
def portFailed (pt : Nat) (s : State) : State :=
  faultSettled 0x31 (40 + pt) pt 0 outNoEffect (dropForwards pt (modPort pt (portCleared .failed) (freeQueue pt s)))

/-- EN set: a port that is DOWN trains; failed lanes are forgotten (R388, R389). -/
def portEnable (pt : Nat) (s : State) : State :=
  if (portOf s pt).state = .down then
    portEvent pt (modPort pt (fun x => { portCleared .training x with en := true, rxFail := 0, txFail := 0 }) s)
  else modPort pt (fun x => { x with en := true }) s

/-- A width (0 none, 1 LOW, 2 HIGH, 3 both halves) uses no failed lane (R387, R389). -/
def lanesFree (width : Nat) (fail : Byte) : Bool :=
  (width % 2 = 0 || fail.toNat % 16 = 0) && (width / 2 % 2 = 0 || fail.toNat / 16 = 0)

def portTrainedEffect (pt rx tx : Nat) (s : State) : State :=
  when (running s && (portOf s pt).state = .training && rx != 0 && tx != 0 && lanesFree rx (portOf s pt).rxFail
    && !s.thm.refMissing.contains 3) s
    (portEvent pt (modPort pt (fun x => { x with state := .keying, rxWidth := rx, txWidth := tx }) s))

/-- Both directions have locked at x8 or x4 (R388), on lanes that have not failed (R389). -/
def execPortTrained (pt rx tx : Nat) (s : State) : Host.Outcome State Fault Refusal :=
  take (.portTrained pt rx tx) s (portTrainedEffect pt rx tx)

def trainingAttemptTimeoutEffect (pt : Nat) (s : State) : State :=
  if ¬(running s ∧ (portOf s pt).state = .training) then notTaken s
  else if 2 ≤ (portOf s pt).attempts then portFailed pt s
  else modPort pt (fun x => { x with attempts := x.attempts + 1 }) s

/-- A training attempt fails; the third makes the port FAILED (R388). -/
def execTrainingAttemptTimeout (pt : Nat) (s : State) : Host.Outcome State Fault Refusal :=
  take (.trainingAttemptTimeout pt) s (trainingAttemptTimeoutEffect pt)

/-- Measurement block 10 of this device (R481): SHA-512 of the owner key, zero when there is no owner. -/
def block10 (s : State) : Nat := match s.sec.ownerKey with | none => 0 | some k => Config.sha512 k

/-- Credits of a new session (R394). -/
def fullCredits : Tab Nat := [(0, 1536), (1, 1536), (2, 512), (3, 512)]

/-- Keys and salts of a link session, derived from its secret (R399, log 15). -/
def linkKeys (secret pt : Nat) (x : Port) : Port :=
  { x with
    keyTx := Config.deriveLink secret 2 (2 * pt), keyRx := Config.deriveLink secret 2 (2 * pt + 1)
    saltTx := BitVec.ofNat 32 (Config.deriveLink secret 3 (2 * pt))
    saltRx := BitVec.ofNat 32 (Config.deriveLink secret 3 (2 * pt + 1)) }

/-- A direction has failed lanes in both halves (R387). -/
def bothHalves (fail : Byte) : Bool := fail.toNat % 16 != 0 && fail.toNat / 16 != 0

/-- A direction's width after a RETRAIN (R389). -/
def narrowed (old : Nat) (fail : Byte) : Nat :=
  if fail = 0 then old else if fail.toNat % 16 ≠ 0 then 2 else 1

/-- A port enters RETRAIN (R388): FAILED instead with failed lanes in both halves, or when this is the third within a
second; whether two earlier ones lie within it is a free value (log 20). -/
def enterRetrain (pt : Nat) (s : State) : State :=
  let (k, s) := draw s
  let s := modPort pt (fun x => { x with state := .retrain, retrains := satAdd 32 x.retrains 1
                                         recentRetrains := x.recentRetrains + 1 }) s
  let x := portOf s pt
  if bothHalves x.rxFail || bothHalves x.txFail || (decide (3 ≤ x.recentRetrains) && k % 2 = 1) then portFailed pt s
  else portEvent pt s

def linkSessionEstablishedEffect (pt : Nat) (chainOk : Bool) (peerState peerBlock10 : Nat) (s : State) : State :=
  if ¬(running s ∧ (portOf s pt).state = .keying) then notTaken s
  else if ¬(chainOk ∧ peerState = 2 ∧ peerBlock10 = block10 s) then portFailed pt s
  else
    let (k, s) := draw s
    let s := portEvent pt (modPort pt (fun x => { linkKeys k pt x with state := .active, enc := true, txFree := fullCredits }) s)
    if lanesFree (portOf s pt).rxWidth (portOf s pt).rxFail then s else enterRetrain pt s

/-- The link session of KEYING ends (R388, R399, R490): ACTIVE with fresh keys and credits, or FAILED. A lane in use that failed meanwhile
makes it RETRAIN (log 162). -/
def execLinkSessionEstablished (pt : Nat) (chainOk : Bool) (peerState peerBlock10 : Nat) (s : State) :
    Host.Outcome State Fault Refusal :=
  take (.linkSessionEstablished pt chainOk peerState peerBlock10) s
    (linkSessionEstablishedEffect pt chainOk peerState peerBlock10)

/-- A port that receives on its lanes: neither DOWN nor FAILED. -/
def portUp (x : Port) : Bool := x.state != .down && x.state != .failed

def laneFailureEffect (pt lane : Nat) (s : State) : State :=
  let x := portOf s pt
  if ¬(running s ∧ portUp x) then notTaken s
  else
    let s := modPort pt (fun x => { x with rxFail := x.rxFail ||| BitVec.ofNat 8 (2 ^ lane) }) s
    let s := faultSettled 0x30 (40 + pt) pt ((portOf s pt).rxFail.setWidth 64) outMasked s
    if x.state = .active then enterRetrain pt s
    else if x.state = .retrain ∧ bothHalves (portOf s pt).rxFail then portFailed pt s else s

/-- A receive lane fails (R389): recorded, and an ACTIVE port retrains. -/
def execLaneFailure (pt lane : Nat) (s : State) : Host.Outcome State Fault Refusal :=
  take (.laneFailure pt lane) s (laneFailureEffect pt lane)

/-! ### Sending (R391 to R397) -/

/-- Flits sent again from position `i` of the replay buffer (R397); one sent 8 times already makes the port retrain
(R398). -/
def resendFrom (pt i : Nat) (s : State) : State :=
  let x := portOf s pt
  let l := x.replay.drop i
  if l.any fun e => decide (8 ≤ e.sent) then enterRetrain pt s
  else
    setReply (.flits (l.map (·.flit))) (modPort pt (fun x => { x with
      replay := x.replay.take i ++ (x.replay.drop i).map fun e => { e with sent := e.sent + 1 }
      retry := satAdd 32 x.retry l.length }) s)

def retrainCompleteEffect (pt : Nat) (txFail : Byte) (s : State) : State :=
  if ¬(running s ∧ (portOf s pt).state = .retrain) then notTaken s
  else
    let s := modPort pt (fun x => { x with txFail := x.txFail ||| txFail }) s
    let x := portOf s pt
    if bothHalves x.rxFail || bothHalves x.txFail then portFailed pt s
    else
      let s := portEvent pt (modPort pt (fun x => { x with
        state := .active, rxWidth := narrowed x.rxWidth x.rxFail, txWidth := narrowed x.txWidth x.txFail }) s)
      setReply (.flits (x.replay.map (·.flit))) (modPort pt (fun x => { x with
        replay := x.replay.map fun e => { e with sent := e.sent + 1 }
        retry := satAdd 32 x.retry x.replay.length }) s)

/-- Both directions have trained again (R389, R390): ACTIVE, narrowed where lanes failed; unacknowledged flits are sent
again. -/
def execRetrainComplete (pt : Nat) (txFail : Byte) (s : State) : Host.Outcome State Fault Refusal :=
  take (.retrainComplete pt txFail) s (retrainCompleteEffect pt txFail)

/-- The ACK field: SEQ of the last sequenced flit accepted (R391). -/
def ackField (x : Port) : Nat := (x.rxSeq + 4095) % 4096

/-- The channel whose freed entries the next flit returns, and how many: the lowest-numbered with some (R394). -/
def creditBack (x : Port) : Nat × Nat :=
  match findFrom (fun c => tabGet 0 x.rxFreed c != 0) 0 4 with
  | none => (0, 0)
  | some c => (c, Nat.min 255 (tabGet 0 x.rxFreed c))

/-- A flit stamped with ACK and CREDIT and sealed with count `n` as it leaves, and the port after it. -/
def stamp (n ack : Nat) (y : Flit) (x : Port) : Flit × Port :=
  let (c, k) := creditBack x
  let y := { y with ack := ack, cvc := c, credit := k }
  ({ y with trailer := flitTag x.keyTx x.saltTx n y }, { x with rxFreed := tabMod 0 x.rxFreed c fun i => i - k })

/-- An entry that may be sent now (R392, R394): its channel has a credit and is free or open for its packet. -/
def sendable (x : Port) (e : Nat × Flit) : Bool :=
  let opened := tabGet 0 x.openTag e.2.vc
  decide (0 < tabGet 0 x.txFree e.2.vc) && (opened = e.1 + 1 || (opened = 0 && (e.2.typ = 1 || e.2.typ = 4)))

/-- The next flit that may be sent: with replay room, and under a key whose counts allow it. -/
def nextSend (x : Port) : Option (Nat × Flit) :=
  if x.replay.length < 2048 ∧ keyFresh x then x.queue.find? (sendable x) else none

/-- A flit leaves the queue with its sequence number and is kept until it is acknowledged (R397). -/
def sendFlit (e : Nat × Flit) (x : Port) : Flit × Port :=
  let (y, x) := stamp x.txSeq (ackField x) { e.2 with seq := x.txSeq % 4096, fec := true, fixed := 0 } x
  let opened := if e.2.typ = 1 ∨ e.2.typ = 2 then e.1 + 1 else 0
  (y, { x with
    queue := x.queue.erase e, txSeq := x.txSeq + 1, txFlits := satAdd 64 x.txFlits 1
    txFree := tabMod 0 x.txFree e.2.vc (fun k => k - 1)
    openTag := tabSet 0 x.openTag e.2.vc opened
    replay := x.replay ++ [{ flit := y, sent := 1, tag := e.1 }] })

def flitSendEffect (pt : Nat) (s : State) : State :=
  let x := portOf s pt
  match (if running s && x.state = .active then nextSend x else none) with
  | none => notTaken s
  | some e =>
    let (y, x') := sendFlit e x
    setReply (.flit y) (freeEntry e.1 (modPort pt (fun _ => x') s))

/-- A sequenced flit is sent (R392, R394, R397): the first queued one whose channel has a credit, with replay room. -/
def execFlitSend (pt : Nat) (s : State) : Host.Outcome State Fault Refusal := take (.flitSend pt) s (flitSendEffect pt)

/-- An IDLE flit (TYPE 0) or a NAK (TYPE 5) with the next count (R392). -/
def countedFlit (typ ack : Nat) (x : Port) : Flit × Port :=
  let (y, x) := stamp (idleCount (x.idleTx + 1)) ack { typ := typ, count := x.idleTx + 1 } x
  (y, { x with idleTx := x.idleTx + 1 })

def idleFlitSendEffect (pt : Nat) (s : State) : State :=
  let x := portOf s pt
  if ¬(running s ∧ x.state = .active ∧ nextSend x = none ∧ keyFresh x) then notTaken s
  else let (y, x') := countedFlit 0 (ackField x) x; setReply (.flit y) (modPort pt (fun _ => x') s)

/-- With no sequenced flit to send, an IDLE flit carries ACK, CREDIT and its count (R392). -/
def execIdleFlitSend (pt : Nat) (s : State) : Host.Outcome State Fault Refusal :=
  take (.idleFlitSend pt) s (idleFlitSendEffect pt)

def replayTimeoutEffect (pt : Nat) (s : State) : State :=
  let x := portOf s pt
  if ¬(running s ∧ x.state = .active ∧ x.replay ≠ []) then notTaken s else resendFrom pt 0 s

/-- 10 µs without ACK progress: flits are sent again from the oldest (R397, R398). -/
def execReplayTimeout (pt : Nat) (s : State) : Host.Outcome State Fault Refusal :=
  take (.replayTimeout pt) s (replayTimeoutEffect pt)

/-! ### Receiving (R392 to R397) -/

/-- Flits up to the acknowledged one leave the replay buffer. -/
def takeAck (a : Nat) (x : Port) : Port :=
  match x.replay.findIdx? fun e => e.flit.seq = a with
  | none => x
  | some i => { x with replay := x.replay.drop (i + 1), ackIn := x.ackIn + i + 1 }

def takeCredit (y : Flit) (x : Port) : Port :=
  if y.credit = 0 then x else { x with txFree := tabMod 0 x.txFree y.cvc fun k => k + y.credit }

/-- A flit that the FEC could not correct, or whose tag fails, is counted (R396, R399). -/
def countBad (y : Flit) (x : Port) : Port :=
  if ¬y.fec then { x with fecUncorr := satAdd 32 x.fecUncorr 1 }
  else if ¬authentic x y then { x with authFail := satAdd 32 x.authFail 1 } else x

/-- The codewords that the FEC corrected in a flit are counted (R420). -/
def countFixed (y : Flit) (x : Port) : Port := { x with fecCorr := satAdd 64 x.fecCorr y.fixed }

/-- A flit discarded: one NAK until the expected flit arrives (R396). -/
def discardFlit (pt : Nat) (y : Flit) (s : State) : State :=
  let x := countBad y (portOf s pt)
  if x.nakSent ∨ ¬keyFresh x then modPort pt (fun _ => x) s
  else
    let (k, x) := countedFlit 5 (x.rxSeq % 4096) x
    setReply (.flit k) (modPort pt (fun _ => { x with nakSent := true }) s)

/-- The packet that flits of one channel carry (R393): its data, and the ranges whose flits carried POISON. -/
def assemble (fs : List Flit) : Packet :=
  let bytes := fs.flatMap fun y => y.pay.take y.plen
  let marks := (fs.foldl (fun (z : Nat × List (Nat × Nat)) y =>
    (z.1 + Nat.min y.plen y.pay.length, if y.poison then z.2 ++ [(z.1, Nat.min y.plen y.pay.length)] else z.2)) (0, [])).2
  packetOf bytes (marks.map fun e => (e.1 - 32, if e.1 < 32 then e.2 - (32 - e.1) else e.2))

/-- Entries of a channel's buffer freed. -/
def freeRx (pt vc n : Nat) (s : State) : State :=
  modPort pt (fun x => { x with
    rxUsed := tabMod 0 x.rxUsed vc fun k => k - n
    rxFreed := tabMod 0 x.rxFreed vc fun k => k + n }) s

/-- A flit of a packet for this device: the packet is delivered with its last flit. A packet that begins on a channel
replaces one that never ended there (log 80). -/
def deliverFlit (pt : Nat) (y : Flit) (s : State) : State :=
  let held := tabGet [] (portOf s pt).partial_ y.vc
  let begins := y.typ = 1 ∨ y.typ = 4
  let l := if begins then [y] else held ++ [y]
  let lost := if begins then held.length else 0
  if y.typ = 3 ∨ y.typ = 4 then
    let s := modPort pt (fun x => { x with partial_ := tabSet [] x.partial_ y.vc [] }) s
    freeRx pt y.vc (lost + l.length) { s with stw := { s.stw with inbox := s.stw.inbox ++ [assemble l] } }
  else
    let s := modPort pt (fun x => { x with partial_ := tabSet [] x.partial_ y.vc l }) s
    if lost = 0 then s else freeRx pt y.vc lost s

/-- A flit of a packet for another device, forwarded without waiting for its TAIL (R401). -/
def forwardFlit (pt out vc : Nat) (y : Flit) (s : State) : State :=
  modPort out (fun x => { x with queue := x.queue ++ [(1 + 4 * pt + y.vc, { y with vc := vc })] }) s

/-- Where a packet that begins with this flit goes: 0 here, 1 discarded, 2 + 4 × port + channel forwarded (R401, R402). -/
def packetWay (s : State) (pt : Nat) (y : Flit) : Nat :=
  let dst := leNat (y.pay.take 2)
  if s.stw.devValid ∧ dst = ownId s then 0
  else match usableRoute s dst with
    | none => 1
    | some out => 2 + 4 * out + outVc s out (decide (2 ≤ y.vc)) (some (pt, y.vc))

/-- An accepted flit on its way. -/
def routeFlit (pt : Nat) (y : Flit) (s : State) : State :=
  let first := y.typ = 1 ∨ y.typ = 4
  let way := if first then packetWay s pt y else tabGet 0 (portOf s pt).fwd y.vc
  let s := modPort pt (fun x => { x with
    fwd := tabSet 0 x.fwd y.vc (if y.typ = 3 ∨ y.typ = 4 then 0 else way)
    rxUsed := tabMod 0 x.rxUsed y.vc (· + 1) }) s
  if way = 0 then
    if ¬first ∧ tabGet [] (portOf s pt).partial_ y.vc = [] then freeRx pt y.vc 1 s else deliverFlit pt y s
  else if way = 1 then freeRx pt y.vc 1 (if first then countNoRoute s else s)
  else forwardFlit pt ((way - 2) / 4) ((way - 2) % 4) y s

def flitRxSequencedEffect (pt : Nat) (y : Flit) (s : State) : State :=
  let x := portOf s pt
  if ¬(running s ∧ x.state = .active) then notTaken s
  else
    let s := modPort pt (countFixed y) s
    if ¬(y.fec ∧ authentic x y ∧ y.seq = x.rxSeq % 4096) then discardFlit pt y s
    else
      routeFlit pt y (modPort pt (fun x => takeCredit y (takeAck y.ack { x with
        rxSeq := x.rxSeq + 1, nakSent := false, rxFlits := satAdd 64 x.rxFlits 1 })) s)

/-- A sequenced flit arrives (R396): accepted when corrected, authentic and expected, then delivered or forwarded (R401);
otherwise discarded, with one NAK. -/
def execFlitRxSequenced (pt : Nat) (y : Flit) (s : State) : Host.Outcome State Fault Refusal :=
  take (.flitRxSequenced pt y) s (flitRxSequencedEffect pt y)

/-- An IDLE or NAK flit is accepted: authentic, with a count above the last accepted (R392). -/
def countNewer (x : Port) (y : Flit) : Bool := y.fec && authentic x y && decide (x.idleRx < y.count)

def flitRxIdleEffect (pt : Nat) (y : Flit) (s : State) : State :=
  let x := portOf s pt
  if ¬(running s ∧ x.state = .active) then notTaken s
  else if ¬countNewer x y then modPort pt (fun x => countBad y (countFixed y x)) s
  else modPort pt (fun x => takeCredit y (takeAck y.ack { countFixed y x with idleRx := y.count })) s

/-- An IDLE flit arrives (R392): ACK and credits are taken when its count is newer. -/
def execFlitRxIdle (pt : Nat) (y : Flit) (s : State) : Host.Outcome State Fault Refusal :=
  take (.flitRxIdle pt y) s (flitRxIdleEffect pt y)

def flitRxNakEffect (pt : Nat) (y : Flit) (s : State) : State :=
  let x := portOf s pt
  if ¬(running s ∧ x.state = .active) then notTaken s
  else if ¬countNewer x y then modPort pt (fun x => countBad y (countFixed y x)) s
  else
    let s := modPort pt (fun x => takeCredit y { countFixed y x with idleRx := y.count }) s
    match (portOf s pt).replay.findIdx? fun e => e.flit.seq = y.ack with
    | none => s
    | some i => resendFrom pt i s

/-- A NAK flit arrives (R397): every flit from the SEQ it names is sent again. -/
def execFlitRxNak (pt : Nat) (y : Flit) (s : State) : Host.Outcome State Fault Refusal :=
  take (.flitRxNak pt y) s (flitRxNakEffect pt y)

def flitRxMgmtEffect (pt : Nat) (y : Flit) (s : State) : State :=
  let x := portOf s pt
  when (running s && portUp x) s
    (modPort pt (fun x => countFixed y (if mgmtGood y ∨ y.fec then x else countBad y x)) s)

/-- A MGMT flit arrives (R391, R392), discarded where the FEC cannot correct it or its CRC-64 fails: traffic of training and of the key exchange, whose results arrive as PORT_TRAINED,
RETRAIN_COMPLETE, LINK_SESSION_ESTABLISHED and LINK_KEY_UPDATE. -/
def execFlitRxMgmt (pt : Nat) (y : Flit) (s : State) : Host.Outcome State Fault Refusal :=
  take (.flitRxMgmt pt y) s (flitRxMgmtEffect pt y)

def linkKeyUpdateEffect (pt : Nat) (s : State) : State :=
  let x := portOf s pt
  if ¬(running s ∧ x.state = .active ∧ x.enc) then notTaken s
  else
    let (k, s) := draw s
    modPort pt (fun x => { x with
      keyTx := Config.deriveLink k 2 (2 * pt), keyRx := Config.deriveLink k 2 (2 * pt + 1), keyRxOld := some x.keyRx
      keyedSeq := x.txSeq, keyedIdle := x.idleTx }) s

/-- The Sumacs replace the keys of a link (R399), before a count reaches 2^40; traffic, sequence numbers and counts go on. -/
def execLinkKeyUpdate (pt : Nat) (s : State) : Host.Outcome State Fault Refusal :=
  take (.linkKeyUpdate pt) s (linkKeyUpdateEffect pt)

end Sys2Proof.Machine
end

