-- ==== Sys2Proof/Machine/Restore.lean ====
section
/-!
DEFINITION. What the runtime does about lost data: a sequence evicted (R381), a retired frame replaced (R277, R468), and a
poisoned word restored from its second source (R463, R467).
-/
namespace Sys2Proof.Machine

/-- Candidates in order: least urgent last class, then least recently named. -/
def evictOrder (l : List Named) : List Named := (rangeFrom 0 4).reverse.flatMap fun c => l.filter fun e => e.cls = c

/-- The work of the KV_FREE that reclaims from one sequence: with NTOK = KVLEN, and NTOK 0 forgets the record. -/
def evictWork (p : Nat) (e : Named) (s : State) : Kv :=
  let z : Kv := { s := s, p := p, fn := e.fn }
  match (kvOpen e.record z).1 with
  | none => z
  | some r =>
    let z := kvFreeOn e.record r.kvlen r.spillEn z
    if r.kvlen = 0 then { z with s := forgetNamed p e.record z.s } else z

/-- The KV_FREE that reclaims from one sequence. -/
def evictSeq (p : Nat) (e : Named) (s : State) : State := (kvResult (evictWork p e s) s).2

/-! ### Frames (R463, R467, R468) -/

/-- The token journal of a partition can be read (R467): it has one, in its far range, on a port that passes reads. -/
def journalReadable (s : State) (p : Nat) : Bool :=
  let q := partOf s p
  decide (0 < q.journal ∧ q.journal ≤ q.farSize)
    && !(farDead s (farAddr s p ((q.farSize - q.journal) * 2 ^ 30))) && !(farDead s (farAddr s p (q.farSize * 2 ^ 30 - 64)))

/-- The word of a KV frame as its second source gives it: of a spilled frame from its far image; otherwise recomputed from
the token journal, which gives the bits first written (R467, log 127). The bytes of a word that no STEP wrote stay free. -/
def kvSource (p n : Nat) (x : Frame) (o : Nat) (s : State) : Option (Nat × State) :=
  if x.spilled then
    let a := x.farslot.toNat * 16384 + o
    let r := farGet s p a 8
    if farOk s p a 8 ∧ ¬r.2 then some (leNat r.1, farNote p a 8 s) else none
  else
    let at_ := fun (i : Nat) => tabGet none s.kvt.gold (n * 16384 + o + i)
    if ¬x.spec ∧ journalReadable s p ∧ (rangeFrom 0 8).any (fun i => (at_ i).isSome) then
      let (v, s') := draw s
      some (leNat ((rangeFrom 0 8).map fun i => (at_ i).getD (BitVec.ofNat 8 (v / 2 ^ (8 * i)))), s')
    else none

/-- A word of a frame copied to its replacement: as it decodes, or from its second source; poison stays where there is none. -/
def copyFrameWord (p n m : Nat) (x : Frame) (i : Nat) (s : State) : State :=
  let off := n % 4096 * 16384 + 8 * i
  let dst := m % 4096 * 16384 + 8 * i
  let g := n / 4096
  let (v, k) := readWord s g off
  let s := noteWord 64 g off s
  if ¬kindPoison k then putWord g dst v s
  else match kvSource p n x (8 * i) s with
    | some (v, s) => putWord g dst v s
    | none => putPoison g dst v s

/-- The page-list entries of a record that name frame `n`: list, entry, SPEC. -/
def entriesNaming (s : State) (p : Nat) (r : KvRec) (n : Nat) : List (Nat × Nat × Bool) :=
  let z : Kv := { s := s, p := p, fn := 0 }
  let names := fun (l j : Nat) (spec : Bool) =>
    match (kvEntry r l j spec z).1 with
    | some v => decide (0 ≤ v) && frameNum s p v.toNat = some n
    | none => false
  (rangeFrom 0 r.lists).flatMap fun l =>
    ((rangeFrom 0 r.cap).filter fun j => names l j false).map (fun j => (l, j, false))
      ++ ((rangeFrom 0 2).filter fun j => names l j true).map fun j => (l, j, true)

/-- A record the runtime knows, when it is well formed. -/
def knownRec (s : State) (p a : Nat) : Option KvRec :=
  let (r, z) := kvOpen a { s := s, p := p, fn := 0 }
  if z.errs = [] then r else none

/-- Frame `n` replaced by value `w` in every page list of the records that the runtime knows (R277). -/
def renameFrame (p n w : Nat) (s : State) : State :=
  foldState (partOf s p).kvRecords (fun a s =>
    match knownRec s p a with
    | none => s
    | some r => foldState (entriesNaming s p r n) (fun e s => devPut p (entryAddr r e.1 e.2.1 e.2.2) (natLe 4 w) s) s) s

/-- An eligible frame of a bank, sequences reclaimed as EVICT does until there is one (R468). -/
def bankFrame (p g : Nat) : List Named → State → Option (Nat × Nat) × State
  | [], s => (firstEligible s p g, s)
  | e :: l, s =>
    match firstEligible s p g with
    | some f => (some f, s)
    | none =>
      if (partOf s p).heldRecords.any (fun h => h.1 = e.record) then bankFrame p g l s else bankFrame p g l (evictSeq p e s)

/-- Frame `m`, page-list value `w`, takes the place of frame `n`: its contents, its entry's fields and its page-list entries. -/
def replaceWith (p n m w : Nat) (s : State) : State :=
  let x := frameOf s n
  if x.state ≠ .held then s
  else
    let s := iter (fun i s => copyFrameWord p n m x i s) 0 2048 s
    let s := modFrame m (fun y => { x with retired := y.retired }) s
    let s := dropGold n (copyGold n 0 m 0 16384 (dropGold m s))
    renameFrame p n w (modFrame n frameFree s)

/-- A retired frame replaced (R468) by one of its bank; the retired one is FREE and never taken again. -/
def replaceFrame (p n : Nat) (s : State) : State :=
  match bankFrame p (n / 4096) (evictOrder (partOf s p).named) s with
  | (none, s) => s
  | (some (m, w), s) => replaceWith p n m w s

/-- Every retired frame that a partition holds is replaced, where its bank has a frame for it. -/
def replaceRetired (p : Nat) (s : State) : State :=
  foldState ((s.kvt.frames.filter fun e => e.2.retired && e.2.state = .held && e.2.owner = p).map (·.1)) (replaceFrame p) s

/-- A record still names a retired frame: STEP requests of its sequence are paused (R468). -/
def namesRetired (s : State) (p a : Nat) : Bool :=
  match knownRec s p a with
  | none => false
  | some r => ((s.kvt.frames.filter fun e => e.2.retired && e.2.state = .held && e.2.owner = p).map (·.1)).any
    fun n => entriesNaming s p r n != []

/-! ### A frame-table entry rebuilt (R457, R463) -/

/-- The partition that holds the chunk of frame `n` with KV = 1. -/
def frameHolder (s : State) (n : Nat) : Option Nat :=
  match mapOf s (chunkAt s (n / 4096) (n % 4096 * 16384)) with
  | none => none
  | some (i, e) => if e.kv then entryOwner s i else none

/-- The page-list entries that name frame `n` in the records of partition `p` that are known, each with its record. -/
def frameNames (s : State) (p n : Nat) : List (KvRec × Nat × Nat × Bool) :=
  (partOf s p).kvRecords.flatMap fun a => match knownRec s p a with
    | none => []
    | some r => (entriesNaming s p r n).map fun e => (r, e)

/-- Committed positions that entry `j` of a list of a record puts into its frame. -/
def entryTokens (r : KvRec) (j : Nat) (spec : Bool) : Nat := if spec then 0 else Nat.min 32 (r.kvlen - 32 * j)

/-- A frame-table entry lost beyond correction, written anew (R463): OWNER from the chunk map, REFCNT and TOKENS recounted from the records that
KV commands of the partition have named. SEQ is that of a record naming it, no far image is claimed, and VF is the function that last
named that record, a free value where none has (log 166). An entry that no record names is FREE. -/
def rebuildEntry (n : Nat) (s : State) : State :=
  let gone := fun (x : Frame) => { frameFree x with retired := isRetired s (.frame n) }
  match frameHolder s n with
  | none => modFrame n gone s
  | some p =>
    match frameNames s p n with
    | [] => modFrame n gone s
    | (r, i, j, spec) :: l =>
      let (k, s) := draw s
      let vf := match (partOf s p).named.find? fun e => e.record = r.addr with | some e => e.fn | none => k % 1026
      modFrame n (fun x => { gone x with
        state := .held, owner := p, vf := vf, seq := BitVec.ofNat 32 r.seq, spec := spec, refcnt := l.length + 1
        tokens := ((r, i, j, spec) :: l).foldl (fun t e => Nat.max t (entryTokens e.1 e.2.2.1 e.2.2.2)) 0 }) s

/-! ### The contents of a bank moved to others (R466) -/

/-- The bank that a list of bank `g` moves to: where an entry of it stands already, else the lowest-numbered other bank whose Clove is in
service and that has `k` eligible frames. -/
def moveTarget (s : State) (p g k : Nat) (r : KvRec) (l : Nat) : Option Nat :=
  let z : Kv := { s := s, p := p, fn := 0 }
  let here := (rangeFrom 0 r.used).findSome? fun j => match (kvEntry r l j false z).1 with
    | some v => if v < 0 then none else (frameNum s p v.toNat).bind fun n => if n / 4096 = g then none else some (n / 4096)
    | none => none
  match here with
  | some b => if bankHas s p b k then some b else none
  | none => findFrom (fun b => b != g && !(cloveOf s b).deconfigured && bankHas s p b k) 0 4096

/-- The frames of bank `g` that a list of a record names. -/
def listFrames (s : State) (p g : Nat) (r : KvRec) (l : Nat) : List Nat :=
  let z : Kv := { s := s, p := p, fn := 0 }
  let at_ := fun (j : Nat) (spec : Bool) => match (kvEntry r l j spec z).1 with
    | some v => if v < 0 then none else (frameNum s p v.toNat).bind fun n => if n / 4096 = g then some n else none
    | none => none
  ((rangeFrom 0 r.cap).filterMap (at_ · false) ++ (rangeFrom 0 2).filterMap (at_ · true)).eraseDups

/-- One list moved, frame by frame, where a bank has room for it. -/
def moveList (p g : Nat) (r : KvRec) (l : Nat) (s : State) : State :=
  let ns := listFrames s p g r l
  if ns = [] then s
  else match moveTarget s p g ns.length r l with
    | none => s
    | some b => foldState ns (fun n s => match firstEligible s p b with
        | none => s
        | some (m, w) => replaceWith p n m w s) s

/-- Every list of the records that partition `p` knows moved out of bank `g`. -/
def moveLists (p g : Nat) (s : State) : State :=
  foldState (partOf s p).kvRecords (fun a s => match knownRec s p a with
    | none => s
    | some r => iter (fun l s => moveList p g r l s) 0 r.lists s) s

/-! ### Second sources (R463) -/

/-- The byte of a physical chunk at a bank offset: chunkLoc read backwards (R185, R186). -/
def chunkByte (isLocal : Bool) (g off : Nat) : Nat :=
  if isLocal then off % 2 ^ 21
  else (g % 16 * 256 + g % 512 / 16 * 8 + g / 512) * 512 + off % 512

/-- The partition chunk and byte of a word, when partition `p` holds it. -/
def wordPlace (s : State) (p g off : Nat) : Option (Nat × Nat × Bool) :=
  match mapOf s (chunkAt s g off) with
  | none => none
  | some (n, e) =>
    let q := partOf s p
    if q.ctBase ≤ n ∧ n < q.ctBase + q.ctCount then some (n - q.ctBase, chunkByte e.bankLocal g off, e.kv) else none

/-- The bytes of the `i`-th chunk of a model's store. -/
def chunkBytes (i : Nat) (l : List Byte) : List Byte := (l.drop (i * 2 ^ 21)).take (2 ^ 21)

/-- A 2 MiB range of a model slot's sections copied again from the image (R291). -/
def reloadModel (p c : Nat) (m : ModelSlot) (s : State) : Option State :=
  let isLocal := m.localPlace.contains c
  let l := if isLocal then m.localPlace else m.place
  let i := l.idxOf c
  let r0 := modelRead s p m.image m.size
  let ok := r0.1
  let ss := r0.2.2.1
  let bad := r0.2.2.2
  let parts := (ss.filter fun e => (e.kind = 1) = (isLocal = true)).map fun e => farGet s p (m.image + e.off) e.size
  if ok ∧ ¬bad ∧ ¬(parts.any (·.2)) then
    some (devPut p (c * 2 ^ 21) (chunkBytes i (parts.flatMap (·.1))) (farNote p m.image m.size s))
  else none

/-! ### A retired BANK_LOCAL chunk (R200, R202) -/

/-- The bank of a BANK_LOCAL partition chunk (R186). -/
def chunkBank (s : State) (p c : Nat) : Option Nat :=
  match chunkOf s p c with
  | none => none
  | some e => if e.bankLocal then some (e.pchunk % 4096) else none

/-- A model slot whose store has changed in chunk `d`, that chunk loaded from the image where it can be read. -/
def fillChunk (p d slot : Nat) (m : ModelSlot) (s : State) : State :=
  (reloadModel p d m s).elim s (setModel p slot m)

/-- The weight slices that stood in partition chunk `c` of a model slot placed elsewhere (R202): the highest-numbered suitable chunk that the
slot does not use takes its place, loaded from the image (R291, log 160). Without one, or where the image cannot be read, they stay. -/
def moveSlices (p c slot : Nat) (m : ModelSlot) (s : State) : State :=
  let free := (modelChunks s p slot true).filter fun d => !(m.localPlace.contains d) && !((chunkBank s p d).any fun g => (cloveOf s g).deconfigured)
  match free.getLast? with
  | none => s
  | some d => fillChunk p d slot { m with localPlace := m.localPlace.map fun e => if e = c then d else e } s

/-- The contents of partition chunk `c`, which maps nothing any more, placed elsewhere by the runtime (R202): weight slices here, KV frames
as their retirement is dealt with (R277, R468). -/
def placeElsewhere (p c : Nat) (s : State) : State :=
  foldState ((partOf s p).models.filter fun e => e.2.state = .ready && e.2.localPlace.contains c) (fun e s => moveSlices p c e.1 e.2 s) s

/-- The lists and weight slices of bank `g` moved to other banks by the runtimes that hold them (R466). -/
def moveBank (g : Nat) (s : State) : State :=
  foldState (rangeFrom 0 64) (fun p s =>
    if (partOf s p).state = .none then s
    else
      let cs := ((partOf s p).models.flatMap fun e => e.2.localPlace).filter fun c => chunkBank s p c = some g
      moveLists p g (foldState cs (placeElsewhere p) s)) s

def bankLocalRetireEffect (chunk : Nat) (s : State) : State :=
  if ¬(s.mem.localRetire.contains chunk ∧ ¬windowOver s chunk) then notTaken s
  else
    let s := { s with mem := { s.mem with localRetire := s.mem.localRetire.filter fun k => k != chunk } }
    let s := addRetired (.chunk chunk) (retireFrames chunk s)
    match mapOf s chunk with
    | none => s
    | some (n, _) =>
      let s := retireEntry n s
      match entryOwner s n with
      | none => s
      | some p => placeElsewhere p (n - (partOf s p).ctBase) s

/-- A BANK_LOCAL chunk is retired once no BANK_RUN's window covers it (R200, R202). -/
def execBankLocalRetire (chunk : Nat) (s : State) : Host.Outcome State Fault Refusal :=
  take (.bankLocalRetire chunk) s (bankLocalRetireEffect chunk)

/-! ### Words restored -/

/-- The targets of an adapter whose factors lie at address `x` copied again from its image (R308). -/
def reloadTargets (c : Cmd) (e : DirEntry) (x : Nat) : List Target → Nat → State × Bool → State × Bool
  | [], _, a => a
  | t :: l, at_, a =>
    let at' := at_ + factorSize e t.dIn e.rank
    let next := at' + factorSize e e.rank t.dOut
    let a := if at_ ≤ x ∧ x < next then loadFactor c e t.bOff at' e.rank t.dOut (loadFactor c e t.aOff at_ t.dIn e.rank a) else a
    reloadTargets c e x l next a

def reloadAdapter (c : Cmd) (p x : Nat) (v : AdapterSlot) (s : State) : Option State :=
  let d0 := dirRead s p v.dir
  let e := d0.1
  let bad := d0.2
  let r0 := imageTargets s p e
  let ok := r0.1
  let ts := r0.2.1
  let badImage := r0.2.2
  if ok ∧ ¬bad ∧ ¬badImage then
    let r := reloadTargets c e x ts ((partOf s p).poolBase * 2 ^ 21 + v.at_) (s, false)
    if r.2 then none else some r.1
  else none

/-- A lost word restored from a second source of R463 other than the group's own inputs; none where there is none. `j` is the
job whose group needs it. -/
def restoreWord (p : Nat) (j : Nat × Nat) (g off : Nat) (s : State) : Option State :=
  if 4096 ≤ g then none
  else if ¬kindPoison (readWord s g off).2 then some s
  else match wordPlace s p g off with
    | none => none
    | some (c, o, kv) =>
      if kv then
        let n := g * 4096 + off / 16384
        if (frameOf s n).state = .held ∧ (frameOf s n).owner = p then
          (kvSource p n (frameOf s n) (off % 16384) s).map fun r => putWord g off r.1 r.2
        else none
      else match (partOf s p).models.find? fun m => m.2.state = .ready && (m.2.place.contains c || m.2.localPlace.contains c) with
        | some m => reloadModel p c m.2 s
        | none =>
          let x := c * 2 ^ 21 + o
          let lo := (partOf s p).poolBase * 2 ^ 21
          match (partOf s p).adapters.find? fun a => a.2.state = .ready && decide (lo + a.2.at_ ≤ x ∧ x < lo + a.2.at_ + a.2.bytes) with
          | some a => reloadAdapter { fn := j.1, ring := j.2 } p x a.2 s
          | none => none

/-- A word lies in a unit that a hard fault is retiring (R465). -/
def wordRetiring (s : State) (g off : Nat) : Bool :=
  if 4096 ≤ g then false
  else
    let k := chunkAt s g off
    isRetired s (.chunk k) || isRetired s (.frame (g * 4096 + off / 16384)) || s.mem.localRetire.contains k
      || s.mem.moves.any fun m => m.chunk = k

/-- A word of a KV frame, whose second source is the token journal or its image. -/
def wordOfKv (s : State) (p g off : Nat) : Bool :=
  if 4096 ≤ g then false else match wordPlace s p g off with | some (_, _, kv) => kv | none => false

end Sys2Proof.Machine
end

