-- ==== Sys2Proof/Machine/StepOps.lean ====
section
/-!
DEFINITION. The step block of a STEP and its checks (R292 to R295, R309, R312), and the layout of the return area (R318).
-/
namespace Sys2Proof.Machine

/-- A step block header (R293). -/
structure StepHdr where
  magic : Nat
  nreq : Nat
  model : Nat
  full : Bool
  bf16 : Bool
  topk : Nat
  maxRows : Nat
  sigma : Nat
  reserved : Bool
  deriving DecidableEq, Repr

def stepHdrOf (bs : List Byte) : StepHdr :=
  let n := leNat bs
  { magic := bits n 0 32, nreq := bits n 32 16, model := bits n 48 8, full := bit n 64, bf16 := bit n 65
    topk := bits n 96 16, maxRows := if bits n 112 16 = 0 then 65536 else bits n 112 16
    sigma := if bits n 128 32 = 0 then 0x3FB8AA3B else bits n 128 32
    reserved := bits n 56 8 != 0 || bits n 66 6 != 0 || bits n 72 24 != 0 || bits n 160 352 != 0 }

/-- A request entry (R293), with its number in the block. -/
structure StepReq where
  ix : Nat
  record : Nat
  adapter : Nat
  ntok : Nat
  cls : Nat
  verify : Bool
  commit : Bool
  retAll : Bool
  a : Nat
  nnodes : Nat
  token : Nat
  tokens : Nat
  tree : Nat
  path : List Nat
  reserved : Bool
  deriving DecidableEq, Repr

def stepReqOf (ix : Nat) (bs : List Byte) : StepReq :=
  let n := leNat bs
  let a := bits n 136 8
  { ix := ix, record := bits n 0 64, adapter := bits n 64 32, ntok := bits n 96 32, cls := bits n 128 2
    verify := bit n 130, commit := bit n 131, retAll := bit n 132, a := a, nnodes := bits n 144 8
    token := bits n 160 32, tokens := bits n 192 64, tree := bits n 256 64
    path := (rangeFrom 0 (Nat.min a 16)).map fun i => bits n (320 + 8 * i) 8
    reserved := bits n 133 3 != 0 || bits n 152 8 != 0 || bits n 448 64 != 0
      || (rangeFrom a (16 - a)).any fun i => bits n (320 + 8 * i) 8 != 0 }

def noAdapter : Nat := 0xFFFFFFFF

/-- Batch rows and return rows (R294). -/
def reqRows (q : StepReq) : Nat := if q.verify then 1 + q.nnodes else q.ntok
def reqReturn (q : StepReq) : Nat := if q.verify then 1 + q.nnodes else if q.retAll then q.ntok else 1

/-- Tree nodes as (token, parent) (R312). -/
def treeNodes (bs : List Byte) : List (Nat × Nat) :=
  (rangeFrom 0 64).map fun k => (leNat ((bs.drop (4 * k)).take 4), leNat ((bs.drop (256 + k)).take 1))

/-- Depths of the first `n` nodes (R312). -/
def treeDepths (l : List (Nat × Nat)) (n : Nat) : List Nat :=
  (l.take n).foldl (fun ds e => ds ++ [if e.2 = 0xFF then 1 else ds.getD e.2 0 + 1]) []

def treeOk (l : List (Nat × Nat)) (n : Nat) : Bool :=
  (List.zip (rangeFrom 0 n) (l.take n)).all (fun e => e.2.2 = 0xFF || decide (e.2.2 < e.1))
    && (treeDepths l n).all (fun d => decide (d ≤ 16)) && (l.drop n).all fun e => e = (0, 0)

/-- A request as checked: its record, its tokens and tree. -/
structure StepWork where
  req : StepReq
  rec_ : KvRec
  tokens : List Nat := []
  tree : List (Nat × Nat) := []

/-- A fault of the checks with its request index (R320). -/
abbrev StepFlt := Nat × Status × Nat

def stepWorst (l : List StepFlt) : Option StepFlt :=
  l.foldl (fun b e => match b with
    | none => some e
    | some y => if statusRank e.2.1 < statusRank y.2.1 ∨ (statusRank e.2.1 = statusRank y.2.1 ∧ e.1 < y.1) then some e
      else b) none

/-- What a STEP reads beside its records: space, command, and where it lies. -/
structure StepCtx where
  x : Cmd
  p : Nat
  host : Bool
  block : Nat
  hdr : StepHdr
  model : ModelSlot

/-- A read of the step block's space: fault or bytes. -/
def stepGet (s : State) (x : Cmd) (host : Bool) (i a n : Nat) : StepFlt ⊕ List Byte :=
  let (ok, bs, bad) := bodyGet s x host a n
  if ¬ok then .inl (i, .boundsFault, 0x630)
  else if bad then .inl (i, .poisonConsumed, if host then 0x650 else 0x550)
  else .inr bs

/-- The fault of a structure of the step block's space that was delivered poisoned. -/
def stepPoison (host : Bool) (i : Nat) (bad : Bool) : List StepFlt :=
  if bad then [(i, .poisonConsumed, if host then 0x650 else 0x550)] else []

/-- A request's tokens, those delivered clean (R10, R293). -/
def stepTokens (s : State) (k : StepCtx) (q : StepReq) : List StepFlt × List Nat :=
  if q.ntok = 1 then ([], [q.token])
  else if 32768 < q.ntok then ([], [])
  else
    let (ok, bs, bad) := bodyGet s k.x k.host q.tokens (4 * q.ntok)
    if ¬ok then ([(q.ix, .boundsFault, 0x630)], [])
    else
      let clean := fun (i : Nat) => !bad || !(bodyGet s k.x k.host (q.tokens + 4 * i) 4).2.2
      (stepPoison k.host q.ix bad, ((rangeFrom 0 q.ntok).filter clean).map fun i => leNat ((bs.drop (4 * i)).take 4))

/-- A request's tree (R312), its nodes delivered clean. -/
def stepTree (s : State) (k : StepCtx) (q : StepReq) : List StepFlt × List (Nat × Nat) :=
  if ¬q.verify ∨ 64 < q.nnodes then ([], [])
  else if q.tree % 64 ≠ 0 then ([(q.ix, .alignFault, 0x520)], [])
  else
    let (ok, bs, bad) := bodyGet s k.x k.host q.tree 320
    let l := treeNodes bs
    let lost := fun (o n : Nat) => (bodyGet s k.x k.host (q.tree + o) n).2.2
    let clean := fun (i : Nat) => !lost (4 * i) 4 && !lost (256 + i) 1
    let each := (List.zip (rangeFrom 0 64) l).filter fun e => !bad || clean e.1
    let good := if ¬bad then treeOk l q.nnodes
      else each.all fun e => if e.1 < q.nnodes then e.2.2 = 0xFF || decide (e.2.2 < e.1) else e.2 = (0, 0)
    if ¬ok then ([(q.ix, .boundsFault, 0x630)], [])
    else (stepPoison k.host q.ix bad ++ (if good then [] else [(q.ix, .descFault, 0x504)]), (each.filter fun e => e.1 < q.nnodes).map (·.2))

/-- KEEP of the commit in a STEP (R314). -/
def stepKeep (q : StepReq) (held : Nat) : Bool := q.verify && decide (ceilDiv q.nnodes 32 ≤ held)

/-- SPEC frames that every list of a record holds. -/
def specHeld (r : KvRec) (z : Kv) : Nat :=
  if r.lists = 0 then 0
  else (rangeFrom 0 r.lists).foldl (fun m l => Nat.min m (kvSpecFrames r l z).1.length) 2

/-- One page-list entry that a STEP needs: committed entries hold a frame or a far image (R264), the others may hold none; a named
frame is HELD by the partition and function (R268). -/
def stepEntry (r : KvRec) (l j : Nat) (spec : Bool) (z : Kv) : Kv :=
  match kvEntry r l j spec z with
  | (none, z) => z
  | (some v, z) =>
    if 0 ≤ v then (kvFrame l j spec v z).2
    else if (¬spec ∧ v = -1 ∧ j < r.used) ∨ (spec ∧ v = -2) then kvErr .boundsFault 0x332 l j spec z
    else z

/-- The page-list entries that a request's positions reach, and the SPEC entries of a verify. -/
def stepEntries (r : KvRec) (q : StepReq) (z : Kv) : Kv :=
  let n := r.kvlen + q.path.length + (if q.verify then 1 else q.ntok)
  iter (fun l z =>
    let z := iter (fun j z => stepEntry r l j false z) 0 (Nat.min r.cap (ceilDiv n 32)) z
    if q.verify then iter (fun i z => stepEntry r l i true z) 0 2 z else z) 0 r.lists z

/-- A record's checks in a STEP: those of a KV command, its likeness to the model, and its commit's (R262, R271, R295). -/
def stepRecord (s : State) (k : StepCtx) (q : StepReq) : List StepFlt × Option KvRec :=
  let z : Kv := { s := s, p := k.p, fn := k.x.fn }
  let (r, z1) := kvOpen q.record z
  let own := z1.errs.map fun e => (q.ix, e.st, if q.record % 64 ≠ 0 ∧ e.cause = 0x320 then 0x520 else e.cause)
  match r with
  | none => (own, none)
  | some r =>
    let like := r.layers = k.model.layers && r.heads = k.model.kvheads && r.dim = k.model.dim
      && fmtCode r.fmt + 16 * r.sblk = k.model.kvfmt.toNat
    let path := q.path
    let bad := q.commit && (decide (16 < q.a) || !noDup path)
    let z2 := stepEntries r q { z1 with errs := [] }
    let commit := if q.commit && !bad then (kvCommitOn false r path (stepKeep q (specHeld r z1)) { z1 with errs := [] }).errs else []
    let more := (z2.errs ++ commit).map fun e => (q.ix, e.st, e.cause)
    (own ++ (if like then [] else [(q.ix, .descFault, 0x503)]) ++ (if bad then [(q.ix, .descFault, 0x304)] else []) ++ more,
      some r)

/-- An adapter's checks (R309). -/
def stepAdapter (s : State) (k : StepCtx) (q : StepReq) : List StepFlt :=
  if q.adapter = noAdapter then []
  else if (partOf s k.p).dircap ≤ q.adapter then [(q.ix, .boundsFault, 0x531)]
  else
    let d0 := dirRead s k.p q.adapter
    let e := d0.1
    let bad := d0.2
    if bad then [(q.ix, .poisonConsumed, 0x550)]
    else if dirEntryOk e && e.tag = k.model.tag.toNat then [] else [(q.ix, .descFault, 0x505)]

/-- A malformed request entry (cause 0x502). -/
def stepReqBad (k : StepCtx) (q : StepReq) (tokens : List Nat) (tree : List (Nat × Nat)) : Bool :=
  q.reserved || decide (q.ntok < 1 ∨ 32768 < q.ntok ∨ 16 < q.a)
    || (if q.verify then decide (q.ntok ≠ 1 ∨ q.nnodes < 1 ∨ 64 < q.nnodes) else q.nnodes != 0)
    || tokens.any (fun t => decide (k.model.vocab ≤ t)) || tree.any fun e => decide (k.model.vocab ≤ e.1)

def stepRequest (s : State) (k : StepCtx) (q : StepReq) : List StepFlt × Option StepWork :=
  let (ft, toks) := stepTokens s k q
  let (fr, tree) := stepTree s k q
  let (fd, r) := stepRecord s k q
  (ft ++ fr ++ fd ++ stepAdapter s k q ++ (if stepReqBad k q toks tree then [(q.ix, .descFault, 0x502)] else []),
    r.map fun r => { req := q, rec_ := r, tokens := toks, tree := tree })

/-! ### The return area (R318) -/

/-- QT, RS and the length the return rows need. -/
def tableBytes (n : Nat) : Nat := 64 * ceilDiv (16 * n) 64
def rowSize (k : StepCtx) : Nat :=
  64 * ceilDiv (16 + (if ¬k.hdr.full then 8 * k.hdr.topk else if k.hdr.bf16 then 2 * k.model.vocab else 4 * k.model.vocab)) 64
def returnRows (l : List StepReq) : Nat := l.foldl (fun n q => n + reqReturn q) 0

/-- FIRST_ROW of each request. -/
def firstRows : Nat → List StepReq → List Nat
  | _, [] => []
  | n, q :: t => n :: firstRows (n + reqReturn q) t

/-- A STEP's parameters (R292). -/
def stepBlock (x : Cmd) : Nat := field x 8 8
def stepRet (x : Cmd) : Nat := field x 16 8
def stepRetLen (x : Cmd) : Nat := field x 40 4
def stepHost (x : Cmd) : Bool := bit (field x 44 1) 3

/-- A request whose admission stands from an earlier run of the group (R301): its commit has been applied. -/
def stepAgain (x : Cmd) (q : StepReq) : StepReq :=
  if x.decisions.any fun d => d.ix = q.ix && d.status = 0 then { q with commit := false } else q

/-- What a STEP's checks answer: its faults, its context and its requests. -/
structure StepCheck where
  faults : List StepFlt := []
  ctx : Option StepCtx := none
  reqs : List StepReq := []
  works : List StepWork := []

/-- Every check of R295; of a block read in part poisoned, those of what came clean (R10). -/
def stepCheck (s : State) (x : Cmd) : StepCheck :=
  let p := homeOf s x.fn
  let host := stepHost x
  let a := stepBlock x
  let ret := stepRet x
  let outer : List StepFlt := (if ret % 64 ≠ 0 then [(0, .alignFault, 0x520)] else [])
    ++ if (chosenMover s).isNone then [(0, .unrecovered, 0x150)] else []
  if a % 64 ≠ 0 then { faults := (0, .alignFault, 0x520) :: outer }
  else match stepGet s x host 0 a 64 with
    | .inl f => { faults := f :: outer }
    | .inr bs =>
      let h := stepHdrOf bs
      let model := tabGet {} (partOf s p).models h.model
      let badHdr := h.magic != 0x50455453 || h.reserved || decide (h.nreq < 1 ∨ 4096 < h.nreq ∨ 16 ≤ h.model)
        || (!h.full && decide (h.topk < 1 ∨ 256 < h.topk ∨ (model.state = .ready ∧ model.vocab < h.topk)))
      if badHdr then { faults := (0, .descFault, 0x501) :: outer }
      else if model.state ≠ .ready then { faults := (0, .descFault, 0x503) :: outer }
      else
        let (ok, body, bad) := bodyGet s x host (a + 64) (64 * h.nreq)
        if ¬ok then { faults := (0, .boundsFault, 0x630) :: outer }
        else
          let k : StepCtx := { x := x, p := p, host := host, block := a, hdr := h, model := model }
          let clean := fun (i : Nat) => !bad || !(bodyGet s x host (a + 64 + 64 * i) 64).2.2
          let qs := ((rangeFrom 0 h.nreq).filter clean).map fun i => stepAgain x (stepReqOf i ((body.drop (64 * i)).take 64))
          let lost := ((rangeFrom 0 h.nreq).filter fun i => !clean i).flatMap fun i => stepPoison host i true
          let rs := qs.map (stepRequest s k)
          let twice := qs.filterMap fun q =>
            if qs.any (fun y => decide (y.ix < q.ix) && y.record = q.record) then some (q.ix, .descFault, 0x503) else none
          let need := tableBytes h.nreq + rowSize k * returnRows qs
          let short := decide (stepRetLen x < need) || !hostOk s x.fn ret (stepRetLen x) true
          { faults := outer ++ lost ++ rs.flatMap (·.1) ++ twice ++ (if short then [(0, .boundsFault, 0x530)] else [])
            ctx := some k, reqs := qs, works := rs.filterMap (·.2) }

/-- A request's record read, with its commit's checks (R271, R295). -/
def stepRecordNote (k : StepCtx) (q : StepReq) (s : State) : State :=
  let (r, z) := kvOpen q.record { s := s, p := k.p, fn := k.x.fn }
  match r with
  | none => kvNote z s
  | some r =>
    let z := stepEntries r q z
    kvNote { (if q.commit then kvCommitOn false r q.path (stepKeep q (specHeld r z)) z else z) with copyReads := [], bankReads := [] } s

/-- What the checks of one request have read (R295). -/
def stepReqNote (k : StepCtx) (q : StepReq) (s : State) : State :=
  let s := if q.ntok = 1 ∨ 32768 < q.ntok then s else bodyNote k.x k.host q.tokens (4 * q.ntok) s
  let s := if q.verify ∧ q.nnodes ≤ 64 ∧ q.tree % 64 = 0 then bodyNote k.x k.host q.tree 320 s else s
  let s := stepRecordNote k q s
  if q.adapter < (partOf s k.p).dircap then farNote k.p (64 * q.adapter) 64 s else s

/-- What the checks of a STEP that one of them ends have read: the header, and past it everything that its requests name. -/
def stepCheckNote (x : Cmd) (k : StepCheck) (s : State) : State :=
  let s := if stepBlock x % 64 = 0 then bodyNote x (stepHost x) (stepBlock x) 64 s else s
  match k.ctx with
  | none => s
  | some c => foldState k.reqs (stepReqNote c) (bodyNote x (stepHost x) (stepBlock x + 64) (64 * c.hdr.nreq) s)

end Sys2Proof.Machine
end

