-- ==== Sys2Proof/Machine/Layers.lean ====
section
/-!
DEFINITION. The layers of a STEP (R20 to R24, R279 to R285, R299, R300, R310 to R313, R316): projections with adapter side
products, the K and V rows of the step's own positions, attention over frames and SPEC slots, and logits. What the model's own
programs compute between these parts is Config's (log 25).
-/
namespace Sys2Proof.Machine

/-! ### The parts of a layer and their engines (R20, R22, R299) -/

/-- The parts of a layer that R20 places. -/
inductive LayerPart where
  | prefillDense | decodeDense | attention | merge | prefillAttention | sideProduct | elementwise | logits
  deriving DecidableEq, Repr

/-- A part runs on Cloves: `sliced` when the weight-streaming products do (R299), `compute` when the stack that holds its data is
in COMPUTE mode (R22). -/
def onClove (part : LayerPart) (sliced compute : Bool) : Bool :=
  match part with
  | .decodeDense => sliced
  | .attention => compute
  | .sideProduct => sliced
  | .elementwise => compute
  | _ => false

/-! ### The model's sections -/

/-- The byte ranges of partition device memory where `n` bytes stand from byte `o` of the sections stored in some chunks. -/
def storedAt (chunks : List Nat) (o n : Nat) : List (Nat × Nat) :=
  (unitsOf (2 ^ 21) o n).map fun u =>
    let lo := Nat.max u o
    (chunks.getD (u / 2 ^ 21) 0 * 2 ^ 21 + (lo - u), Nat.min (u + 2 ^ 21) (o + n) - lo)

/-- Each section of a list with its ranges, from byte `o` of the store. -/
def sectionRanges (chunks : List Nat) : Nat → List Section → List (Section × List (Nat × Nat))
  | _, [] => []
  | o, e :: t => (e, storedAt chunks o e.size) :: sectionRanges chunks (o + e.size) t

/-- The sections of a slot, those of its BANK_LOCAL chunks or the others (R289). -/
def slotSections (m : ModelSlot) (isLocal : Bool) : List (Section × List (Nat × Nat)) :=
  sectionRanges (if isLocal then m.localPlace else m.place) 0 (m.sections.filter fun e => (e.kind = 1) = (isLocal = true))

/-- What the programs of a model read: its sections by ROLE (R289). -/
def modelParts (s : State) (p : Nat) (m : ModelSlot) : List (Nat × List Byte) :=
  (slotSections m false ++ slotSections m true).map fun e => (e.1.role, e.2.flatMap fun a => (devGet s p a.1 a.2).1)

/-- The sections that a STEP's weight products read: the slices when they are streamed or when their stacks are PLAIN (R22). -/
def weightRanges (m : ModelSlot) (slices : Bool) : List (Nat × Nat) := (slotSections m slices).flatMap (·.2)

/-! ### A batch (R294, R299, R300) -/

/-- A batch row: its request, its number there, its position, token, adapter slot, SPEC node, the row number of R63, its hidden state
and what it has produced in the layer. -/
structure BatchRow where
  w : StepWork
  i : Nat
  pos : Nat
  token : Nat
  slot : Nat
  ix : Nat
  hidden : List Nat := []
  done : List (List Nat) := []

/-- What the layers leave: the rows, the numeric flags, and the first fault that their reads met. -/
structure Batch where
  rows : List BatchRow := []
  flags : BitVec 4 := 0
  fault : Option StepFlt := none

/-- What is fixed while a batch passes the layers. -/
structure LayerCtx where
  k : StepCtx
  parts : List (Nat × List Byte)
  rd : Rnd
  sliced : Bool

/-- The STEP's rounding for a row, as its programs take it (R63, R292): with mode 4 seed, stream number and the row's number. -/
def LayerCtx.rnd (c : LayerCtx) (ix : Nat) : List Nat := if c.rd.mode = 4 then [4, c.rd.seed, c.rd.stream, ix] else [c.rd.mode]

def BatchRow.prefill (r : BatchRow) : Bool := decide (1 < r.w.req.ntok)

/-- The committed count after a request's commit. -/
def stepStart (w : StepWork) : Nat := w.rec_.kvlen + (if w.req.commit then w.req.path.length else 0)

/-- The row's weight products stream in the banks (R20, R299): a prefill row's never do. -/
def BatchRow.inBank (c : LayerCtx) (r : BatchRow) : Bool := onClove (if r.prefill then .prefillDense else .decodeDense) c.sliced true

/-- Positions written by a request. -/
def stepWritten (w : StepWork) : Nat := if w.req.verify then 1 else w.req.ntok

/-- Position and NODE of a request's return row `i` (R313, R318). -/
def rowPlace (w : StepWork) (i : Nat) : Nat × Nat :=
  let p := stepStart w
  if w.req.verify then
    if i = 0 then (p, 0xFFFF) else (p + (treeDepths w.tree w.tree.length).getD (i - 1) 0, i - 1)
  else if w.req.retAll then (p + i, 0xFFFF) else (p + w.req.ntok - 1, 0xFFFF)

/-- The return row of a request's batch row `i`, counted over every request of the block (R300). -/
def returnIx (w : StepWork) (first i : Nat) : Nat :=
  if reqReturn w.req = reqRows w.req then first + i
  else if i + 1 = reqRows w.req then first
  else Config.restRow w.req.ix i

/-- The batch row `i` of a request that starts at return row `first` with adapter slot `slot`. -/
def batchRow (c : LayerCtx) (w : StepWork) (first slot i : Nat) : BatchRow :=
  let pos := if w.req.verify then (rowPlace w i).1 else stepStart w + i
  let token := if w.req.verify ∧ 0 < i then (w.tree.getD (i - 1) (0, 0)).1 else w.tokens.getD i 0
  let ix := returnIx w first i
  { w := w, i := i, pos := pos, token := token, slot := slot, ix := ix
    hidden := Config.embedRow c.parts (c.rnd ix) token pos }

/-- The bits of a tree node's mask M_k (R313): node k and its ancestors. -/
def treeMask (tree : List (Nat × Nat)) : Nat → Nat → List Nat
  | 0, _ => []
  | fuel + 1, k => k :: (let p := (tree.getD k (0, 0xFF)).2; if p = 0xFF then [] else treeMask tree fuel p)

/-- The SPEC slots that a row's query attends to (R282, R313): none for the root. -/
def BatchRow.slots (r : BatchRow) : List Nat :=
  if r.w.req.verify ∧ 0 < r.i then treeMask r.w.tree 64 (r.i - 1) else []

/-- The committed count of R66 for a row's query (R282, R285). -/
def BatchRow.count (r : BatchRow) : Nat := stepStart r.w + 1 + (if r.w.req.verify then 0 else r.i)

/-! ### Side products (R310, R311) -/

/-- Slot numbers in rising order, each once. -/
def insertSlot (a : Nat) : List Nat → List Nat
  | [] => [a]
  | b :: t => if a < b then a :: b :: t else if a = b then b :: t else b :: insertSlot a t

/-- The segments of adapted rows (R311): each slot with the index tensor of its rows, in batch-row order. -/
def segments (rows : List BatchRow) : List (Nat × List Nat) :=
  let on := (List.zip (rangeFrom 0 rows.length) rows).filter fun e => e.2.slot != 0xFFFF
  (on.foldl (fun l e => insertSlot e.2.slot l) []).map fun sl => (sl, (on.filter fun e => e.2.slot = sl).map (·.1))

/-- Rows gathered by an index tensor (R135). -/
def gatherRows {α : Type} (idx : List Nat) (l : List α) : List (Nat × α) := idx.filterMap fun i => (l[i]?).map fun a => (i, a)

/-- The places of the factors of each target in a slot (R304). -/
def targetPlaces (e : DirEntry) : Nat → List Target → List (Target × Nat × Nat)
  | _, [] => []
  | o, t :: l =>
    let b := o + factorSize e t.dIn e.rank
    (t, o, b) :: targetPlaces e (b + factorSize e e.rank t.dOut) l

/-- Column `c` of a resident factor of `k` rows and `n` columns. -/
def factorCol (s : State) (x : Cmd) (e : DirEntry) (at_ k n c : Nat) : List Val :=
  let t := factorDst e at_ k n
  (rangeFrom 0 k).map fun i => ((elemRead s x t (t.off [c, i]) 0).bind (elemVal t)).getD valZero

/-- Flags of several roundings together (R65). -/
def joinFlags (l : List (BitVec 4)) : BitVec 4 := l.foldl (· ||| ·) 0

/-- Step 2 of R310: u = x · A, each element rounded once to UFMT to nearest even, and the flags. -/
def sideU (s : State) (x : Cmd) (e : DirEntry) (at_ dIn : Nat) (row : List Val) : List Val × BitVec 4 :=
  let f := if e.ufmt = 0 then Fmt.f32 else .bf16
  let es := (rangeFrom 0 e.rank).map fun c =>
    let a := factorCol s x e at_ dIn e.rank c
    let v := accVal (accDotTight row a)
    let y := encodeVal f rne 0 v
    (decodeFloat f y.1, y.2 ||| nanFlags ((row ++ a).any valIsNan) v)
  (es.map (·.1), joinFlags (es.map (·.2)))

/-- Step 3 of R310: v_j = ALPHA × (u · B_j), rounded once to F32 to nearest even: its code and flags. -/
def sideV (s : State) (x : Cmd) (e : DirEntry) (at_ dOut : Nat) (u : List Val) (j : Nat) : Nat × BitVec 4 :=
  let b := factorCol s x e at_ e.rank dOut j
  let v := valMul (f32Val e.alpha) (accVal (accDotTight u b))
  (f32Code v, f32Flags (f32Val e.alpha :: u ++ b) v)

/-- Step 4 of R310: the side product added to the shared product as one more term, or alone where that has no anchor. -/
def adaptedVal (c : Acc) (v : Option Nat) : Val :=
  match v, c.anc with
  | none, _ => accVal c
  | some v, .fin a => accVal ((accTerm (.fin a) c (f32Val v)).getD c)
  | some v, _ => f32Val v

/-- The target of a projection in an adapter slot, with the places of its factors. -/
def slotTarget (s : State) (p layer proj slot : Nat) : Option (Target × Nat × Nat) :=
  let a := adapterOf s p slot
  (targetPlaces a.entry ((partOf s p).poolBase * 2 ^ 21 + a.at_) a.targets).find? fun t => t.1.layer = layer && t.1.proj = proj

/-- The side products of a projection for the rows of one segment: row index and the codes of v, and the flags. -/
def segmentSide (s : State) (x : Cmd) (p layer proj slot : Nat) (rows : List (Nat × List Val)) : List (Nat × List Nat) × BitVec 4 :=
  let e := (adapterOf s p slot).entry
  match slotTarget s p layer proj slot with
  | none => ([], 0)
  | some (t, ia, ib) =>
    let us := rows.map fun r => (r.1, sideU s x e ia t.dIn r.2)
    let vs := us.map fun u => (u.1, (rangeFrom 0 t.dOut).map (sideV s x e ib t.dOut u.2.1))
    (vs.map fun v => (v.1, v.2.map (·.1)), joinFlags (us.map (·.2.2)) ||| joinFlags (vs.flatMap fun v => v.2.map (·.2)))

/-- The side products of a projection over a batch, segment by segment (R311). -/
def sideProducts (s : State) (c : LayerCtx) (layer proj : Nat) (rows : List BatchRow) (xs : List (List Val)) :
    List (Nat × List Nat) × BitVec 4 :=
  let l := (segments rows).map fun g => segmentSide s c.k.x c.k.p layer proj g.1 (gatherRows g.2 xs)
  (l.flatMap (·.1), joinFlags (l.map (·.2)))

/-- The elements of a factor of `k` rows and `n` columns in the pool, as a range. -/
def factorRange (e : DirEntry) (at_ k n : Nat) : Nat × Nat :=
  let t := factorDst e at_ k n
  (at_, t.padR * t.padC * t.width / 8)

/-- The ranges that the side products of a projection read, each segment's with the request of its first row (R311). -/
def sideRanges (s : State) (c : LayerCtx) (layer proj : Nat) (rows : List BatchRow) : List (Nat × List (Nat × Nat)) :=
  (segments rows).map fun g =>
    let ix := ((g.2.head?.bind fun i => rows[i]?).map fun r => r.w.req.ix).getD 0
    (ix, match slotTarget s c.k.p layer proj g.1 with
      | none => []
      | some (t, ia, ib) =>
        let e := (adapterOf s c.k.p g.1).entry
        [factorRange e ia t.dIn e.rank, factorRange e ib e.rank t.dOut])

/-! ### What the products read (R20, R22, R24, R190, R196) -/

/-- Ranges of device memory that requests' products read, inside the banks by Cloves or across the interface: their errors and sectors, and
the first fault, of a range that no chunk maps before that of poison. The causes are those of the engine that reads (log 158). -/
def readRanges (p : Nat) (clove : Bool) (l : List (Nat × List (Nat × Nat))) (a : Option StepFlt × State) : Option StepFlt × State :=
  let s := a.2
  let lost := l.find? fun e => e.2.any fun r => !(devOk s p r.1 r.2)
  let bad := l.find? fun e => e.2.any fun r => (devGet s p r.1 r.2).2
  let f : Option StepFlt := match lost, bad with
    | some e, _ => some (e.1, .boundsFault, if clove then 0x231 else 0x130)
    | none, some e => some (e.1, .poisonConsumed, if clove then 0x242 else 0x042)
    | none, none => none
  (if a.1.isSome then a.1 else f,
    foldState (l.flatMap (·.2)) (fun r s => if clove then devReport p r.1 r.2 s else devNote p r.1 r.2 s) s)

/-- The reads of a projection's adapter factors, by the engines of its rows (R20). -/
def readFactors (c : LayerCtx) (layer proj : Nat) (rows : List BatchRow) (a : Option StepFlt × State) : Option StepFlt × State :=
  let one := fun (clove : Bool) (a : Option StepFlt × State) =>
    readRanges c.k.p clove (sideRanges a.2 c layer proj (rows.filter fun r => r.inBank c = clove)) a
  one false (one true a)

/-! ### Projections -/

/-- Output formats of a model's programs: an output format of R43 that is rounded. -/
def outFmt (c : LayerCtx) (layer proj : Nat) : Fmt :=
  let f := fmtOf (Config.outFormat c.parts layer proj)
  if fmtIsOutput f && f != .w128 then f else .bf16

/-- Output width of a projection: the heads' for queries, keys and values. -/
def projWidth (c : LayerCtx) (layer proj : Nat) : Nat :=
  match proj with
  | 0 => c.k.model.qheads * c.k.model.dim
  | 1 => c.k.model.kvheads * c.k.model.dim
  | 2 => c.k.model.kvheads * c.k.model.dim
  | _ => Config.outWidth c.parts layer proj

/-- Step 1 of R310: the shared product of a row with a weight column (R50, R52). -/
def sharedProduct (c : LayerCtx) (layer proj : Nat) (x w : List Val) : Acc :=
  let anc := match Config.pairAnchor c.parts layer proj with | some a => Anchor.fin a | none => tightAnchor x w
  (accDot anc { anc := anc } x w).getD { anc := anc }

/-- One row's projection: what the model's passes make of its rounded outputs, and the flags. -/
def projectRow (c : LayerCtx) (layer proj : Nat) (side : Option (List Nat)) (r : BatchRow) (x : List Val) : List Nat × BitVec 4 :=
  let f := outFmt c layer proj
  let w := projWidth c layer proj
  let outs := (rangeFrom 0 w).map fun j =>
    let col := (Config.weightCol c.parts layer proj j).map f32Val
    let v := side.bind (·[j]?)
    let y := adaptedVal (sharedProduct c layer proj x col) v
    let e := encodeVal f c.rd (r.ix * w + j) y
    (e.1, e.2 ||| nanFlags ((x ++ col ++ (v.map f32Val).toList).any valIsNan) y)
  let ys := outs.map fun e => f32Code ((decodeVal f e.1).getD valZero)
  (Config.passRow c.parts (c.rnd r.ix) layer proj r.pos ys, outs.foldl (fun g e => g ||| e.2) 0)

/-- A projection over the batch: every row has one output more. -/
def project (s : State) (c : LayerCtx) (layer : Nat) (b : Batch) (proj : Nat) : Batch :=
  let xs := b.rows.map fun r => (Config.inputRow c.parts (c.rnd r.ix) layer proj r.pos r.hidden r.done).map f32Val
  let (side, flags) := sideProducts s c layer proj b.rows xs
  let outs := (List.zip (rangeFrom 0 b.rows.length) (List.zip b.rows xs)).map fun e =>
    projectRow c layer proj ((side.find? fun v => v.1 = e.1).map (·.2)) e.2.1 e.2.2
  { b with
    rows := List.zipWith (fun r o => { r with done := r.done ++ [o.1] }) b.rows outs
    flags := outs.foldl (fun g o => g ||| o.2) (b.flags ||| flags) }

/-- A projection with the reads of its adapter factors. -/
def projectRead (c : LayerCtx) (layer : Nat) (a : Batch × State) (proj : Nat) : Batch × State :=
  let r := readFactors c layer proj a.1.rows (a.1.fault, a.2)
  ({ project r.2 c layer a.1 proj with fault := r.1 }, r.2)

/-! ### K and V rows (R253, R279, R285) -/

/-- Blocks of `n` elements. -/
def blocksOf {α : Type} (n : Nat) : Nat → List α → List (List α)
  | 0, _ => []
  | _, [] => []
  | k + 1, l => l.take n :: blocksOf n k (l.drop n)

/-- A row in the frame format (R64): its element bytes, its scale bytes, its flags; element i has index n + i. -/
def frameRow (r : KvRec) (rd : Rnd) (n : Nat) (vs : List Val) : List Byte × List Byte × BitVec 4 :=
  let w := fmtWidth r.fmt
  let b := sblkSize r.sblk
  if b = 0 then
    let es := (List.zip (rangeFrom n vs.length) vs).map fun e => encodeVal r.fmt rd e.1 e.2
    (natLe r.rb (packCodes w (es.map (·.1))), [], es.foldl (fun g e => g ||| e.2) 0)
  else
    let es := (List.zip (rangeFrom 0 vs.length) (blocksOf b vs.length vs)).map fun e => encodeBlock r.fmt rd (fun i => n + b * e.1 + i) e.2
    (natLe r.rb (packCodes w (es.flatMap (·.2.1))), es.map (fun e => BitVec.ofNat 8 e.1), es.foldl (fun g e => g ||| e.2.2) 0)

/-- The frame of an entry that a STEP reads or writes: its value, when RESIDENT. -/
def entryFrame (s : State) (c : LayerCtx) (r : KvRec) (l j : Nat) (spec : Bool) : Option Nat :=
  match (kvEntry r l j spec { s := s, p := c.k.p, fn := c.k.x.fn }).1 with
  | some v => if v < 0 then none else some v.toNat
  | none => none

/-- The entry and frame position where a batch row's K and V go (R264, R279): list entry or SPEC entry. -/
def BatchRow.place (r : BatchRow) : Nat × Nat × Bool :=
  if r.w.req.verify ∧ 0 < r.i then ((r.i - 1) / 32, (r.i - 1) % 32, true) else (r.pos / 32, r.pos % 32, false)

/-- The bytes of one row of a frame written. -/
def putRow (p v at_ : Nat) (bs : List Byte) (s : State) : State :=
  let s := match frameNum s p v with | some n => setGold n at_ bs s | none => s
  devPut p (v * 16384 + at_) bs s

/-- The K and V of one head of a batch row written into its frame. -/
def writeHead (c : LayerCtx) (layer h : Nat) (r : BatchRow) (a : BitVec 4 × State) : BitVec 4 × State :=
  let q := r.w.rec_
  let d := q.dim
  let n := r.ix * (q.heads * d) + h * d
  let row := fun (i : Nat) => frameRow q c.rd n (((r.done.getD i []).drop (h * d)).take d |>.map f32Val)
  let (k, v) := (row 1, row 2)
  let (j, t, spec) := r.place
  match entryFrame a.2 c q (layer * q.heads + h) j spec with
  | none => a
  | some f =>
    let s := putRow c.k.p f (t * q.rb) k.1 a.2
    let s := putRow c.k.p f (32 * q.rb + t * q.rb) v.1 s
    let s := if q.sb = 0 then s
      else putRow c.k.p f (64 * q.rb + 32 * q.sb + t * q.sb) v.2.1 (putRow c.k.p f (64 * q.rb + t * q.sb) k.2.1 s)
    (a.1 ||| k.2.2 ||| v.2.2, s)

/-- The K and V of every row of the batch written (R23 stage 3). -/
def writeKv (c : LayerCtx) (layer : Nat) (b : Batch) (s : State) : Batch × State :=
  let a := b.rows.foldl (fun a r => iter (fun h a => writeHead c layer h r a) 0 r.w.rec_.heads a) (b.flags, s)
  ({ b with flags := a.1 }, a.2)

/-! ### Attention (R66 to R69, R281, R282, R285, R313) -/

/-- The elements of a stored row, K (`side` 0) or V (1), of frame position t. -/
def storedRow (s : State) (p v : Nat) (r : KvRec) (side t : Nat) : List Val :=
  let w := fmtWidth r.fmt
  let b := sblkSize r.sblk
  let n := leNat (devGet s p (v * 16384 + 32 * side * r.rb + t * r.rb) r.rb).1
  let sc := (devGet s p (v * 16384 + 64 * r.rb + 32 * side * r.sb + t * r.sb) r.sb).1
  (rangeFrom 0 r.dim).map fun i =>
    applyScale (if b = 0 then none else some (sc.getD (i / b) 0).toNat) ((decodeVal r.fmt (bits n (w * i) w)).getD valZero)

/-- The key and value rows of a frame's unmasked positions; none where no frame stands. -/
def frameRows (s : State) (c : LayerCtx) (r : KvRec) (v : Option Nat) (ts : List Nat) : List (List Val × List Val) :=
  match v with
  | none => []
  | some v => ts.map fun t => (storedRow s c.k.p v r 0 t, storedRow s c.k.p v r 1 t)

/-- The leaves of one query head of a row over its list: those below the committed count, then the two SPEC leaves. -/
def headLeaves (s : State) (c : LayerCtx) (layer g : Nat) (r : BatchRow) : List (List (List Val × List Val)) :=
  let q := r.w.rec_
  let m := c.k.model
  let l := layer * q.heads + g / (m.qheads / m.kvheads)
  let pages := (rangeFrom 0 (ceilDiv r.count 32)).map fun j =>
    frameRows s c q (entryFrame s c q l j false) (rangeFrom 0 (Nat.min 32 (r.count - 32 * j)))
  let specs := (rangeFrom 0 2).map fun i =>
    frameRows s c q (entryFrame s c q l i true) ((rangeFrom 0 32).filter fun t => r.slots.contains (32 * i + t))
  pages ++ specs

/-- The root of one query head of a row, and the flags of what makes it (R65 to R69). -/
def headRoot (s : State) (c : LayerCtx) (layer g : Nat) (r : BatchRow) : Node × BitVec 4 :=
  let sigma := f32Val (Config.scoreScale c.parts layer)
  let query := ((r.done.getD 0 []).drop (g * r.w.rec_.dim)).take r.w.rec_.dim |>.map f32Val
  let ls := headLeaves s c layer g r
  let ns := ls.map (attnLeaf sigma query)
  (rootOf ns, joinFlags (ls.map (attnLeafFlags sigma query)) ||| nodeRootFlags (ns.length + 1) ns)

/-- The attention output of one head: its root rounded once in the STEP's mode (R69), from element `n` on; codes and flags. -/
def headOut (f : Fmt) (rd : Rnd) (d n : Nat) : Node → List Nat × BitVec 4
  | .empty => (List.replicate d 0, 0)
  | .node o _ z =>
    let es := (List.zip (rangeFrom n o.length) o).map fun e =>
      let v := valDiv (f32Val e.2) (f32Val z)
      let y := encodeVal f rd e.1 v
      (f32Code ((decodeVal f y.1).getD valZero), y.2 ||| nanFlags ([f32Val e.2, f32Val z].any valIsNan) v)
    (es.map (·.1), joinFlags (es.map (·.2)))

/-- The attention output of a row, head after head, and its flags. -/
def attendRow (s : State) (c : LayerCtx) (layer : Nat) (r : BatchRow) : List Nat × BitVec 4 :=
  let d := r.w.rec_.dim
  let hs := (rangeFrom 0 c.k.model.qheads).map fun g =>
    let z := headRoot s c layer g r
    let o := headOut (outFmt c layer 7) c.rd d (r.ix * (c.k.model.qheads * d) + g * d) z.1
    (o.1, o.2 ||| z.2)
  (hs.flatMap (·.1), joinFlags (hs.map (·.2)))

def attend (s : State) (c : LayerCtx) (layer : Nat) (b : Batch) : Batch :=
  let os := b.rows.map (attendRow s c layer)
  { b with
    rows := List.zipWith (fun r o => { r with done := r.done ++ [o.1] }) b.rows os
    flags := b.flags ||| joinFlags (os.map (·.2)) }

/-! ### What attention reads and sends (R20, R22, R24, R281) -/

/-- The frame ranges of a list that the rows of a request attend to: the frame's value, its positions, whether it is SPEC. -/
def listReads (s : State) (c : LayerCtx) (w : StepWork) (l : Nat) : List (Nat × Nat) :=
  let n := stepStart w + stepWritten w
  let pages := (rangeFrom 0 (ceilDiv n 32)).filterMap fun j => (entryFrame s c w.rec_ l j false).map fun v => (v, Nat.min 32 (n - 32 * j))
  let specs := if ¬w.req.verify then [] else (rangeFrom 0 (ceilDiv w.req.nnodes 32)).filterMap fun i =>
    (entryFrame s c w.rec_ l i true).map fun v => (v, Nat.min 32 (w.req.nnodes - 32 * i))
  pages ++ specs

/-- The stack of a frame is in COMPUTE mode. -/
def frameCompute (s : State) (p v : Nat) : Bool :=
  match frameNum s p v with | some n => s.clv.stackMode.getLsbD (n / 4096 / 512) | none => false

/-- Queries in and partials out of one bank for the rows of a request: sectors across the interface (R24); queries as BF16 (log 128). -/
def mailSectors (c : LayerCtx) (w : StepWork) : Nat :=
  let hq := c.k.model.qheads / c.k.model.kvheads
  reqRows w.req * (ceilDiv (hq * w.rec_.dim * 2) 64 + ceilDiv (hq * (4 * w.rec_.dim + 8)) 64)

/-- The banks of a list's frames. -/
def listBanks (s : State) (p : Nat) (l : List (Nat × Nat)) : List Nat :=
  ((l.filter fun e => frameCompute s p e.1).filterMap fun e => (frameNum s p e.1).map (· / 4096)).eraseDups

/-- The reads of attention over one list: inside the banks by their Cloves, or across the interface for prefill and where a stack is
PLAIN, with the first poison met as a fault. -/
def noteList (c : LayerCtx) (w : StepWork) (l : Nat) (a : Option StepFlt × State) : Option StepFlt × State :=
  let p := c.k.p
  let part := if 1 < w.req.ntok then LayerPart.prefillAttention else .attention
  let reads := listReads a.2 c w l
  let one := fun (a : Option StepFlt × State) (e : Nat × Nat) =>
    let clove := onClove part c.sliced (frameCompute a.2 p e.1)
    (rowRanges w.rec_ 0 e.2).foldl (fun a g =>
      let bad := (devGet a.2 p (e.1 * 16384 + g.1) g.2).2
      (if a.1.isNone && bad then some (w.req.ix, .poisonConsumed, if clove then 0x242 else 0x140) else a.1,
        if clove then devReport p (e.1 * 16384 + g.1) g.2 a.2 else devNote p (e.1 * 16384 + g.1) g.2 a.2)) a
  let a := reads.foldl one a
  let banks := if 1 < w.req.ntok then [] else listBanks a.2 p reads
  (a.1, foldState banks (fun g s => countSectors p (g / 512) (mailSectors c w) s) a.2)

/-- The frames of a request that cross the interface: those that prefill or a PLAIN stack's attention reads, and those that new rows go
to (R20, R22, R23). -/
def frameTouches (s : State) (c : LayerCtx) (w : StepWork) : List (Nat × Nat) :=
  let part := if 1 < w.req.ntok then LayerPart.prefillAttention else .attention
  let lo := stepStart w / 32
  (rangeFrom 0 w.rec_.lists).flatMap fun l =>
    let reads := (listReads s c w l).filterMap fun e => if onClove part c.sliced (frameCompute s c.k.p e.1) then none else some e.1
    let new := (rangeFrom lo (ceilDiv (stepStart w + stepWritten w) 32 - lo)).filterMap fun j => entryFrame s c w.rec_ l j false
    let spec := if w.req.verify then (rangeFrom 0 2).filterMap fun i => entryFrame s c w.rec_ l i true else []
    (reads ++ new ++ spec).eraseDups.map fun v => (v * 16384, 16384)

/-- The reads of a layer's attention for every request. -/
def noteAttention (c : LayerCtx) (layer : Nat) (ws : List StepWork) (b : Batch) (s : State) : Batch × State :=
  let a := ws.foldl (fun a w => iter (fun h a => noteList c w (layer * w.rec_.heads + h) a) 0 w.rec_.heads a) (b.fault, s)
  ({ b with fault := a.1 }, a.2)

/-! ### A layer (R23) -/

/-- The stages of one layer, in order: projections, K and V, attention, output and feed-forward projections. -/
def runLayer (c : LayerCtx) (ws : List StepWork) (layer : Nat) (a : Batch × State) : Batch × State :=
  let (b, s) := [0, 1, 2].foldl (projectRead c layer) a
  let (b, s) := writeKv c layer b s
  let (b, s) := noteAttention c layer ws b s
  let (b, s) := [3, 4, 5, 6].foldl (projectRead c layer) (attend s c layer b, s)
  let next := fun (r : BatchRow) => { r with hidden := Config.layerRow c.parts (c.rnd r.ix) layer r.hidden r.done, done := [] }
  let flags := b.rows.foldl (fun g r => g ||| BitVec.ofNat 4 (Config.passFlags c.parts (c.rnd r.ix) r.hidden)) b.flags
  ({ b with rows := b.rows.map next, flags := flags }, s)

/-- The sections that hold the output weights, which Saffron cores read for the logits (R20, R316). -/
def outputRanges (c : LayerCtx) : List (Nat × Nat) :=
  ((slotSections c.k.model false).filter fun e => (Config.outputRoles c.parts).contains e.1.role).flatMap (·.2)

/-- The weights that a STEP's products read, once each (log 129), as whether a Clove reads them, the first request they are read for, and
their ranges: the slices in their banks for the rows that stream them, and the slices or the INTERLEAVED sections across the interface for
the others; for the logits the output weights. -/
def weightReads (c : LayerCtx) (rows : List BatchRow) : List (Bool × Nat × List (Nat × Nat)) :=
  let m := c.k.model
  let few := decide (rows.length ≤ m.bstream) && m.slices
  let of := fun (q : BatchRow → Bool) => (rows.find? q).map fun r => r.w.req.ix
  let bank := of fun r => r.inBank c
  let plain := of fun r => !(r.inBank c) && !r.prefill && few
  let whole := of fun r => !(r.inBank c) && (r.prefill || !few)
  let one := fun (i : Option Nat) (e : Nat → Bool × Nat × List (Nat × Nat)) => (i.map e).toList
  one bank (fun i => (true, i, weightRanges m true)) ++ one plain (fun i => (false, i, weightRanges m true))
    ++ match whole with
      | some i => [(false, i, weightRanges m false)]
      | none => one (of fun _ => true) fun i => (false, i, outputRanges c)

/-- The weights that cross the interface for a batch of some requests (R22, R24). -/
def weightTouches (c : LayerCtx) (rows : Nat) : List (Nat × Nat) :=
  if rows = 0 then []
  else weightRanges c.k.model false ++ if c.sliced then [] else weightRanges c.k.model true

/-- The reads of a STEP's weights. -/
def noteWeights (c : LayerCtx) (b : Batch) (s : State) : Batch × State :=
  let r := (weightReads c b.rows).foldl (fun a e => readRanges c.k.p e.1 [(e.2.1, e.2.2)] a) (none, s)
  ({ b with fault := r.1 }, r.2)

/-- A batch through every layer of the model. -/
def runLayers (c : LayerCtx) (ws : List StepWork) (b : Batch) (s : State) : Batch × State :=
  iter (runLayer c ws) 0 c.k.model.layers (noteWeights c b s)

/-! ### Logits (R316, R317) -/

/-- σ_out × (h · E_v), exact (R316), and whether a NaN is among its operands. -/
def logitVal (c : LayerCtx) (h : List Val) (v : Nat) : Val × Bool :=
  let e := (Config.tokenRow c.parts v).map f32Val
  (valMul (f32Val c.k.hdr.sigma) (accVal (accDotTight h e)), (f32Val c.k.hdr.sigma :: h ++ e).any valIsNan)

/-- The final hidden state of a row. -/
def finalHidden (c : LayerCtx) (r : BatchRow) : List Val := (Config.finalRow c.parts (c.rnd r.ix) r.hidden).map f32Val

/-- y_v as F32, to nearest even, and as BF16 in the STEP's mode (R317, log 130): codes and flags. -/
def logitF32 (c : LayerCtx) (r : BatchRow) (v : Nat) : Nat × BitVec 4 :=
  let y := logitVal c (finalHidden c r) v
  let e := encodeVal .f32 rne 0 y.1
  (e.1, e.2 ||| nanFlags y.2 y.1)

def logitB16 (c : LayerCtx) (r : BatchRow) (v : Nat) : Nat × BitVec 4 :=
  encodeVal .bf16 c.rd (r.ix * c.k.model.vocab + v) (logitVal c (finalHidden c r) v).1

/-- The flags of the log-normaliser of a row's logits (R65, R69). -/
def normFlags (ys : List Nat) : BitVec 4 :=
  let ls := leaves32 (ys.length + 1) ys
  let ns := ls.map softLeaf
  joinFlags (ls.map fun l => leafFlags 0 l []) ||| nodeRootFlags (ns.length + 1) ns |||
    match rootOf ns with
    | .empty => 0
    | .node _ m z =>
      let lg := valLog 0x0F .f32 (f32Val z)
      f32Flags [f32Val z] lg ||| f32Flags [f32Val m, toF32 lg] (valAdd (f32Val m) (toF32 lg))

end Sys2Proof.Machine
end

