-- ==== Sys2Proof/Machine/Serving.lean ====
section
/-!
DEFINITION. STEP (R292 to R319): admission, the frames and adapters of admitted requests, the layers' run, what a STEP leaves in
records, frames and the return area; and EVICT (R381).
-/
namespace Sys2Proof.Machine

/-! ### Frames of a request (R296, R298, R314) -/

/-- The bank that a STEP takes a frame of list `l` from. A list stays in one bank (R281): that of its first RESIDENT entry; a list without
one goes to the lowest-numbered bank with `k` eligible frames, or else with any (DESIGN CHOICE, log 26; the runtime chooses). -/
def stepBank (r : KvRec) (l k : Nat) (z : Kv) : Nat :=
  let home := (rangeFrom 0 (Nat.max 1 r.used)).findSome? fun j => match (kvEntry r l j false z).1 with
    | some v => if v < 0 then none else frameNum z.s z.p v.toNat
    | none => none
  match home with
  | some n => n / 4096
  | none => match findFrom (fun g => bankHas z.s z.p g k) 0 4096 with
    | some g => g
    | none => (findFrom (fun g => (firstEligible z.s z.p g).isSome) 0 4096).getD 0

def reqFor (l bank first count : Nat) : KvReq := { list := l, bank := bank, first := first, count := count, reserved := false }

/-- One missing entry of a list appended. -/
def stepAppend (r : KvRec) (k l j : Nat) (z : Kv) : Kv :=
  match kvEntry r l j false z with
  | (some (-1), z) => (kvFill r (stepBank r l k z) l j false {} { z with want := z.want + 1 }).2
  | (_, z) => z

/-- The KV work of an admitted request before its layers: commit, fills, copy on write, new and speculative frames. -/
def stepFrames (w : StepWork) (z : Kv) : Kv × Bool :=
  let q := w.req
  let z := if q.commit then kvCommitOn true w.rec_ q.path (stepKeep q (specHeld w.rec_ z)) z else z
  let r := if q.commit then { w.rec_ with kvlen := w.rec_.kvlen + q.path.length } else w.rec_
  let n := if q.verify then 1 else q.ntok
  let k := ceilDiv (r.kvlen + n) 32 + ceilDiv q.nnodes 32
  let (filled, z) := iter (fun l (a : Bool × Kv) => iter (fun j (a : Bool × Kv) =>
      match kvEntry r l j false a.2 with
      | (some (-2), z) => (true, kvFillEntry r (reqFor l (stepBank r l k z) j 1) j { z with want := z.want + 1 })
      | (_, z) => (a.1, z)) 0 r.used a) 0 r.lists (false, z)
  let z := iter (fun l z => kvCow r (reqFor l (stepBank r l k z) 0 0) z) 0 r.lists z
  let z := if r.cap < ceilDiv (r.kvlen + n) 32 then kvErr .boundsFault 0x330 0 r.cap false z
    else iter (fun l z => iter (fun j z => stepAppend r k l j z) (r.kvlen / 32) (ceilDiv (r.kvlen + n) 32 - r.kvlen / 32) z) 0 r.lists z
  let z := if q.verify && specHeld r z = 0 then
      iter (fun l z => kvSpec r (reqFor l (stepBank r l k z) 0 (ceilDiv q.nnodes 32)) z) 0 r.lists z else z
  (z, filled)

/-- The quota of R261 over the frames a request takes. -/
def overQuota (before after : Kv) : Bool :=
  decide (before.want < after.want ∧ (partOf after.s after.p).kvQuota < framesUsed after.s after.p)

/-- A fault that says frames are lacking (R259, R261), which pauses a request instead of ending the STEP. -/
def lacksFrames (z : Kv) : Bool := z.errs.any fun e => e.cause = 0x341 || e.cause = 0x340

/-! ### Admission (R296 to R298) -/

inductive StepStatus where
  | ran | pausedRows | pausedBusy | pausedAdapter | pausedFrames | notRun
  deriving DecidableEq, Repr

def stepStatusCode : StepStatus → Nat
  | .ran => 0 | .pausedRows => 1 | .pausedBusy => 2 | .pausedAdapter => 3 | .pausedFrames => 4 | .notRun => 5

/-- What admission has decided so far. -/
structure Admit where
  z : Kv
  rows : Nat := 0
  busy : List Nat := []
  out : List StepDecision := []
  spilled : List Nat := []
  fault : Option StepFlt := none

/-- A decision that admits its request. -/
def ran (d : StepDecision) : Bool := d.status = 0

/-- Requests in the order of admission: class, then index. -/
def stepOrder (l : List StepWork) : List StepWork :=
  (rangeFrom 0 4).flatMap fun c => l.filter fun w => w.req.cls = c

/-- The sequences that may be spilled for a request, in order (R297). -/
def spillOrder (l : List StepWork) (w : StepWork) (a : Admit) : List StepWork :=
  let done := fun (y : StepWork) => a.spilled.contains y.req.ix || a.out.any fun d => d.ix = y.req.ix && ran d
  ((rangeFrom 0 4).reverse.flatMap fun c => (l.filter fun y => y.req.cls = c && decide (w.req.cls < c) && !done y).reverse).filter
    fun y => y.rec_.spillEn

/-- A fault of an expanded KV command ends admission (R320): it is recorded (R278), and what it read takes effect. -/
def noteAdmit (i : Nat) (e : KvFlt) (z : Kv) (a : Admit) : Admit :=
  let y : Kv := { a.z with s := kvRecordFault e a.z.s, reads := z.reads }
  let y := if z.errs = [] then
      { y with copyReads := z.copyReads, bankReads := z.bankReads, farReads := z.farReads, moved := z.moved } else y
  { a with z := y, fault := some (i, e.st, e.cause) }

/-- A request's frames, spilling others until they fit (R297); a spill that fails ends the STEP (R320). -/
def stepFit (w : StepWork) : List StepWork → Admit → Admit × Option (Kv × Bool)
  | cands, a =>
    let z := { a.z with errs := [], copyErrs := [] }
    let (z', filled) := stepFrames w z
    if ¬lacksFrames z' ∧ ¬overQuota z z' then (a, some (z', filled))
    else match cands with
      | [] => (a, none)
      | y :: rest =>
        let f := kvFreeOn y.rec_.addr y.rec_.kvlen true z
        match kvFault f with
        | none => stepFit w rest { a with z := f, spilled := y.req.ix :: a.spilled }
        | some e => (noteAdmit y.req.ix e f a, none)

/-- The slots that no load of a STEP may evict: those of its own requests and of other started STEPs (R305, R306). -/
def stepBusy (k : StepCtx) (a : Admit) : List Nat := a.busy ++ busySlots a.z.s k.p k.x

/-- Test 3 of R296: the adapter's slot, resident or loaded (R306). -/
def stepSlot (k : StepCtx) (w : StepWork) (a : Admit) : Option (Nat × State) :=
  if w.req.adapter = noAdapter then some (0xFFFF, a.z.s)
  else match residentIn a.z.s k.p w.req.adapter with
    | some i => some (i, touchSlot k.p i a.z.s)
    | none => match loadAdapter k.x k.p w.req.adapter 0xFFFF false (stepBusy k a) a.z.s with
      | .inl _ => none
      | .inr (i, s) => some (i, s)

/-- What a load that does not succeed has read. -/
def slotNote (k : StepCtx) (w : StepWork) (a : Admit) : State :=
  match loadAdapter k.x k.p w.req.adapter 0xFFFF false (stepBusy k a) a.z.s with
  | .inl f => loadNote k.p w.req.adapter f.1 a.z.s
  | .inr _ => a.z.s

/-- A request paused or not run. -/
def leaveReq (q : StepReq) (st : StepStatus) (a : Admit) : Admit :=
  { a with out := a.out ++ [⟨q.ix, q.record, stepStatusCode st, false, 0xFFFF⟩] }

/-- One request decided (R296); one that an earlier run of the group decided stays so (R301). -/
def admitOne (k : StepCtx) (l : List StepWork) (a : Admit) (w : StepWork) : Admit :=
  let q := w.req
  if a.out.any fun d => d.ix = q.ix then a
  else if a.fault.isSome then leaveReq q .notRun a
  else if a.spilled.contains q.ix then leaveReq q .pausedFrames a
  else if k.hdr.maxRows < a.rows + reqRows q then leaveReq q .pausedRows a
  else if (partOf a.z.s k.p).heldRecords.any (fun e => e.1 = q.record) then leaveReq q .pausedBusy a
  else if namesRetired a.z.s k.p q.record then leaveReq q .pausedFrames a
  else match stepSlot k w a with
    | none => leaveReq q .pausedAdapter { a with z := { a.z with s := slotNote k w a } }
    | some (slot, _) =>
      match stepFit w (spillOrder l w a) a with
      | (b, none) => leaveReq q (if b.fault.isSome then .notRun else .pausedFrames) b
      | (b, some (z, filled)) =>
        match kvFault z with
        | some e => leaveReq q .notRun (noteAdmit q.ix e z b)
        | none =>
          let b := { b with z := z }
          let s := match stepSlot k w b with | some (_, s) => s | none => z.s
          { b with z := { z with s := s }, rows := b.rows + reqRows q, busy := if slot = 0xFFFF then b.busy else slot :: b.busy
                   out := b.out ++ [⟨q.ix, q.record, 0, filled, slot⟩] }

/-! ### What admitted requests leave (R279, R282, R285, R467) -/

/-- TOKENS of the frames that a request's committed positions reach. -/
def raiseTokens (p : Nat) (w : StepWork) (l : Nat) (s : State) : State :=
  let z : Kv := { s := s, p := p, fn := 0 }
  iter (fun t s =>
    match (kvEntry w.rec_ l (t / 32) false { z with s := s }).1 with
    | some v => if v < 0 then s else match frameNum s p v.toNat with | some n => frameTokens n (t % 32 + 1) s | none => s
    | none => s) (stepStart w) (stepWritten w) s

/-- The token journal's new entries: every token named, at its position. -/
def journalOf (w : StepWork) : List JournalEntry :=
  let p := stepStart w
  (List.zip (rangeFrom p w.tokens.length) w.tokens).map (fun e => { record := w.req.record, pos := e.1, token := BitVec.ofNat 32 e.2 })
    ++ (List.zip (treeDepths w.tree w.tree.length) w.tree).map fun e =>
      { record := w.req.record, pos := p + e.1, token := BitVec.ofNat 32 e.2.1 }

/-- An admitted request's effect on its record and its frames' entries when the STEP completes (R282). -/
def writeRequest (p : Nat) (w : StepWork) (s : State) : State :=
  let s := iter (fun l s => raiseTokens p w l s) 0 w.rec_.lists s
  devPut p (w.rec_.addr + 4) (natLe 4 (stepStart w + stepWritten w)) s

/-- Where entry `i` of the token journal stands in the partition's far range: the journal is its upper part, 8 bytes per position, in
order, begun again when it is full (R467; how it is laid out is a DESIGN CHOICE, log 159). -/
def journalAt (q : Part) (i : Nat) : Nat := (q.farSize - q.journal) * 2 ^ 30 + 8 * i % (q.journal * 2 ^ 30)

/-- Entries appended to the token journal, each its token number and its position (R467). -/
def appendJournal (p : Nat) (l : List JournalEntry) (s : State) : State :=
  let q := partOf s p
  if q.journal = 0 ∨ q.farSize < q.journal then s
  else
    let s := foldState (List.zip (rangeFrom q.tokens.length l.length) l) (fun e s =>
      farPut p (journalAt q e.1) (natLe 4 e.2.token.toNat ++ natLe 4 e.2.pos) s) s
    modPart p (fun q => { q with tokens := q.tokens ++ l }) s

/-- An admitted STEP holds its records until it completes (R296). -/
def holdRecords (c p : Nat) (l : List StepDecision) (s : State) : State :=
  modPart p (fun q => { q with heldRecords := q.heldRecords ++ (l.filter ran).map fun d => (d.record, c) }) s

/-! ### Logits (R316 to R318) -/

/-- Candidate a ranks before b (R317): NaN last, equal values by token number. -/
def ranksBefore (a b : Nat × Val) : Bool :=
  if valIsNan a.2 then valIsNan b.2 && decide (a.1 < b.1)
  else valIsNan b.2 || valLt b.2 a.2 || (!valLt a.2 b.2 && decide (a.1 < b.1))

def insertRank (a : Nat × Val) : List (Nat × Val) → List (Nat × Val)
  | [] => [a]
  | b :: t => if ranksBefore a b then a :: b :: t else b :: insertRank a t

/-- The k best of y, best first. -/
def topK (k : Nat) (l : List (Nat × Val)) : List (Nat × Val) :=
  l.foldl (fun t a => (insertRank a t).take k) []

/-- A return row's bytes (R317, R318) and the flags of its logits. -/
def rowBytes (c : LayerCtx) (r : BatchRow) : List Byte × BitVec 4 :=
  let k := c.k
  let es := (rangeFrom 0 k.model.vocab).map fun v => (v, logitF32 c r v)
  let ys := es.map fun e => (e.1, f32Val e.2.1)
  let nan := ys.any fun e => valIsNan e.2
  let l := if nan then nanCode .f32 else f32Code (logNormaliser (es.map (·.2.1)))
  let top := if k.hdr.full then [] else topK k.hdr.topk ys
  let node := if r.w.req.verify ∧ 0 < r.i then r.i - 1 else 0xFFFF
  let head := natLe 4 l ++ natLe 4 r.pos ++ natLe 2 node ++ natLe 2 top.length ++ natLe 1 (b01 nan) ++ natLe 3 0
  let half := if k.hdr.full && k.hdr.bf16 then (rangeFrom 0 k.model.vocab).map (logitB16 c r) else []
  let body := if ¬k.hdr.full then top.flatMap fun e => natLe 4 e.1 ++ natLe 4 ((es[e.1]?.map (·.2.1)).getD 0)
    else if k.hdr.bf16 then half.flatMap fun e => natLe 2 e.1
    else es.flatMap fun e => natLe 4 e.2.1
  let bs := head ++ body
  (bs ++ List.replicate (rowSize k - bs.length) 0,
    half.foldl (fun g e => g ||| e.2) (es.foldl (fun g e => g ||| e.2.2) (normFlags (es.map (·.2.1)))))

/-- The batch row is returned (R294). -/
def BatchRow.returned (r : BatchRow) : Bool := reqReturn r.w.req = reqRows r.w.req || r.i + 1 = reqRows r.w.req

/-- A request table entry (R318). -/
def tableEntry (s : State) (p : Nat) (w : StepWork) (first : Nat) (a : Admit) : List Byte :=
  let d := (a.out.find? fun d => d.ix = w.req.ix).getD ⟨w.req.ix, w.req.record, stepStatusCode .notRun, false, 0xFFFF⟩
  let kvlen := leNat (devGet s p (w.rec_.addr + 4) 4).1
  let spilled := a.spilled.contains w.req.ix
  natLe 4 kvlen ++ natLe 4 first ++ natLe 2 (if ran d then reqReturn w.req else 0) ++ natLe 1 d.status
    ++ natLe 1 (b01 spilled + 2 * b01 d.filled) ++ natLe 2 d.slot ++ natLe 2 0

/-- The request table: where it stands and its bytes. -/
def tableRun (k : StepCtx) (l : List (StepWork × Nat)) (a : Admit) (s : State) : Nat × List Byte :=
  let bs := l.flatMap fun e => tableEntry s k.p e.1 e.2 a
  (stepRet k.x, bs ++ List.replicate (tableBytes k.hdr.nreq - bs.length) 0)

/-- Where return row `q` stands (R318). -/
def rowAt (k : StepCtx) (q : Nat) : Nat := stepRet k.x + tableBytes k.hdr.nreq + q * rowSize k

/-- Writes that follow one another without a gap are one. -/
def joinRuns (l : List (Nat × List Byte)) : List (Nat × List Byte) :=
  l.foldr (fun e t => match t with
    | (b, y) :: t' => if e.1 + e.2.length = b then (e.1, e.2 ++ y) :: t' else e :: t
    | [] => [e]) []

/-- A segment that a write covers in part does not authenticate (R348, R349). -/
def returnRefused (s : State) (k : StepCtx) (l : List (Nat × List Byte)) : Bool :=
  l.any fun e => !hostPutOk s k.x.fn e.1 e.2.length

/-- The return area written. -/
def putReturn (k : StepCtx) (l : List (Nat × List Byte)) (s : State) : State :=
  foldState l (fun e s => hostPut k.x.fn e.1 e.2 s) s

/-- The rows of a STEP that ended with a failure are unspecified: free values (R319). -/
def freeRows (k : StepCtx) (l : List StepWork) (s : State) : Nat × List Byte :=
  let a := rowAt k 0
  (a, (rangeFrom a (returnRows (l.map (·.req)) * rowSize k)).map (Config.freeByte s.freeCtr))

/-! ### STEP -/

/-- The weight-streaming products run on Cloves (R299). -/
def stepOnCloves (s : State) (k : StepCtx) (rows : Nat) : Bool :=
  decide (0 < rows ∧ rows ≤ k.model.bstream) && k.model.slices
    && k.model.localPlace.all fun c => match chunkOf s k.p c with
      | some e => s.clv.stackMode.getLsbD (e.pchunk % 4096 / 512)
      | none => false

/-- A STEP has weight-streaming products: a decode request is admitted (R20). -/
def stepDecodes (l : List StepWork) (a : Admit) : Bool := l.any fun w => decide (w.req.ntok ≤ 1) && a.out.any fun d => d.ix = w.req.ix && ran d

/-- RESULT of a STEP (R342). -/
def stepResult (s : State) (k : StepCtx) (l : List StepWork) (a : Admit) : Nat :=
  (a.out.filter ran).length + a.rows * 2 ^ 16 + b01 (stepOnCloves s k a.rows && stepDecodes l a) * 2 ^ 33

/-- The sequences that a STEP names (R381). -/
def nameRecords (p f : Nat) (l : List StepWork) (s : State) : State :=
  foldState l (fun w s =>
    let n := (partOf s p).useOrder + 1
    modPart p (fun q => { q with
      useOrder := n
      named := q.named.filter (fun e => e.record != w.req.record) ++ [⟨w.req.record, f, w.req.cls, n⟩] }) s) s

/-- The reads of a STEP's block, tokens and trees take effect on the memories. -/
def noteStep (k : StepCtx) (l : List StepWork) (s : State) : State :=
  let s := bodyNote k.x k.host k.block (64 + 64 * k.hdr.nreq) s
  foldState l (fun w s =>
    let s := if w.req.ntok = 1 then s else bodyNote k.x k.host w.req.tokens (4 * w.req.ntok) s
    if w.req.verify then bodyNote k.x k.host w.req.tree 320 s else s) s

/-- Admission as it stands when a run of the group begins: what an earlier run decided (R301). -/
def admitFrom (k : StepCtx) (l : List StepWork) (s : State) : Admit :=
  let old := k.x.decisions
  let mine := l.filter fun w => old.any fun d => d.ix = w.req.ix && ran d
  let used := (l.filterMap fun w => residentIn s k.p w.req.adapter) ++ (old.filter fun d => ran d && d.slot != 0xFFFF).map (·.slot)
  { z := { s := s, p := k.p, fn := k.x.fn }, busy := used, out := old, spilled := k.x.spilled
    rows := mine.foldl (fun n w => n + reqRows w.req) 0 }

/-- The admission of a STEP's requests, in the order of R296; no load evicts a slot that one of them uses (R306). -/
def admitAll (k : StepCtx) (l : List StepWork) (s : State) : Admit :=
  let s := noteRecords k.p (l.map fun w => w.req.record) (nameRecords k.p k.x.fn l (noteStep k l s))
  (stepOrder l).foldl (admitOne k l) (admitFrom k l (replaceRetired k.p s))

/-- What a STEP's admission has decided is kept for a replay, its records are held (R296, R301), and the requests that it newly admits
enter the token journal (R467). -/
def keepAdmission (c p : Nat) (ws : List StepWork) (a : Admit) (s : State) : State :=
  let l := a.out.filter fun d => d.status != stepStatusCode .notRun
  let new := l.filter fun d => ran d && !((cmdOf s c).decisions.contains d)
  let s := appendJournal p ((ws.filter fun w => new.any fun d => d.ix = w.req.ix).flatMap journalOf) s
  holdRecords c p l (modCmd c (fun x => { x with decisions := l, spilled := a.spilled }) s)

/-- The batch of a STEP: the rows of its admitted requests, in order of request index (R299). -/
def stepBatch (c : LayerCtx) (l : List (StepWork × Nat)) (a : Admit) : Batch :=
  { rows := l.flatMap fun e => match a.out.find? fun d => d.ix = e.1.req.ix && ran d with
      | some d => (rangeFrom 0 (reqRows e.1.req)).map (batchRow c e.1 e.2 d.slot)
      | none => [] }

/-- A STEP ends with a failure after its checks (R319): the request table, rows unspecified, no request completed. -/
def failStep (c : Nat) (k : StepCtx) (l : List StepWork) (a : Admit) (f : StepFlt) (flags : BitVec 4) (s : State) : State :=
  let a := { a with out := a.out.map fun d => if ran d then { d with status := stepStatusCode .notRun } else d }
  let runs := joinRuns [tableRun k (List.zip l (firstRows 0 (l.map (·.req)))) a s, freeRows k l s]
  finish c f.2.1 f.2.2 0 f.1 flags (putReturn k runs { s with freeCtr := s.freeCtr + 1 })

/-- A STEP completes (R282, R316 to R318): its records rise, the return area is written; a segment that does not authenticate ends it
with a failure instead (R349). -/
def completeStep (c : Nat) (y : LayerCtx) (l : List StepWork) (a : Admit) (b : Batch) (s : State) : State :=
  let k := y.k
  let firsts := List.zip l (firstRows 0 (l.map (·.req)))
  let done := l.filter fun w => a.out.any fun d => d.ix = w.req.ix && ran d
  let rows := (b.rows.filter (·.returned)).map fun r => (rowAt k r.ix, rowBytes y r)
  let flags := rows.foldl (fun g e => g ||| e.2.2) b.flags
  let s2 := foldState done (writeRequest k.p) s
  let runs := joinRuns (tableRun k firsts a s2 :: rows.map fun e => (e.1, e.2.1))
  if returnRefused s2 k runs then failStep c k l a (0, .poisonConsumed, 0x650) flags s
  else finish c .ok 0 (stepResult s2 k l a) 0 flags (modCmd c (fun x => { x with applied := true }) (putReturn k runs s2))

/-- What is fixed for the layers of an admitted STEP. -/
def layerCtx (s : State) (k : StepCtx) (l : List StepWork) (a : Admit) : LayerCtx :=
  { k := k, parts := modelParts s k.p k.model, sliced := stepOnCloves s k a.rows && stepDecodes l a
    rd := { mode := roundMode k.x, seed := field k.x 24 8, stream := field k.x 32 8 } }

/-- The admitted requests of a STEP pass the layers of the model; the RUN and BANK_RUN commands of its expansion that complete on the way raise
the partition's source (R23, R446). -/
def batchStep (c : Nat) (k : StepCtx) (l : List StepWork) (a : Admit) (s : State) : State :=
  let y := layerCtx s k l a
  let b := stepBatch y (List.zip l (firstRows 0 (l.map (·.req)))) a
  let done := l.filter fun w => a.out.any fun d => d.ix = w.req.ix && ran d
  let r := if b.rows = [] then (b, s) else runLayers y done b (raise (128 + k.p) s)
  match r.1.fault with
  | some f => failStep c k l a f r.1.flags r.2
  | none => completeStep c y l a r.1 r.2

/-- A STEP whose checks have passed (R296 to R319). -/
def runStep (c : Nat) (k : StepCtx) (l : List StepWork) (s : State) : State :=
  let a := admitAll k l s
  let s := keepAdmission c k.p l a (kvNote { a.z with errs := [], copyErrs := [] } a.z.s)
  match a.fault with
  | some f => failStep c k l a f 0 s
  | none => batchStep c k l a s

/-- The ranges of device memory that a STEP touches across the stack interface (R201, R239): its block, tokens and trees, its admission's,
the adapter slots of its rows, weights and frames. -/
def stepTouches (k : StepCtx) (l : List StepWork) (s : State) : List (Nat × Nat) :=
  let a := admitAll k l s
  let own := if k.host then [] else (k.block, 64 + 64 * k.hdr.nreq) :: l.flatMap fun w =>
    (if w.req.ntok = 1 then [] else [(w.req.tokens, 4 * w.req.ntok)]) ++ if w.req.verify then [(w.req.tree, 320)] else []
  let runs := a.out.filter ran
  let y := layerCtx a.z.s k l a
  own ++ a.z.reads ++ a.z.copyReads ++ a.z.writes ++ (runs.flatMap fun d => slotRange a.z.s k.p d.slot)
    ++ weightTouches y a.rows ++ (l.filter fun w => runs.any fun d => d.ix = w.req.ix).flatMap (frameTouches a.z.s y)

/-- The ranges of far memory that a STEP touches (R215): directory entries, images of adapters that it loads, far images of frames. -/
def stepFar (k : StepCtx) (l : List StepWork) (s : State) : List (Nat × Nat) :=
  let dirs := (l.map (·.req.adapter)).filter (· != noAdapter)
  (dirs.flatMap fun d => if (residentIn s k.p d).isSome then [(64 * d, 64)] else adapterFar s k.p d) ++ kvFar (admitAll k l s).z

/-- A started command that started earlier changes what the STEP names: the model slot (R290), or an adapter (R307). -/
def stepWaits (s : State) (c : Nat) : Bool :=
  let u := stepUses s c
  (startedBefore s c 0x1A).any (fun d => swapSlot (cmdOf s d) = u.1)
    || (startedBefore s c 0x19).any fun d => u.2.contains (evictDir (cmdOf s d))

def stepEffect (c : Nat) (s : State) : State :=
  let x := cmdOf s c
  if ¬classReady s c 0x04 ∨ stepWaits s c ∨ hostHeld s x.fn true then notTaken s
  else if x.applied then finish c .ok 0 x.result 0 x.flags (holdRecords c (homeOf s x.fn) x.decisions s)
  else
    let k := stepCheck s x
    match stepWorst k.faults, k.ctx with
    | some (i, st, cause), _ => finish c st cause 0 i 0 (stepCheckNote x k s)
    | none, none => notTaken s
    | none, some ctx => withAccess (2 * c) ctx.p (stepTouches ctx k.works s) (stepFar ctx k.works s) (runStep c ctx k.works) s

/-- STEP (R292 to R319): a batch of requests runs one step. -/
def execStep (c : Nat) (s : State) : Host.Outcome State Fault Refusal := take (.step c) s (stepEffect c)

/-! ### EVICT (R381) -/

def evictPart (x : Cmd) (s : State) : Nat := if x.fn = 0 then field x 8 1 else homeOf s x.fn
def evictKind (x : Cmd) : Nat := field x 9 1
def evictTarget (x : Cmd) : Nat := field x 12 4

/-- Reclaim has reached its target (R381). -/
def reclaimed (s : State) (p target used0 : Nat) : Bool :=
  if target = 0 then decide (framesUsed s p ≤ (partOf s p).kvQuota) else decide (target ≤ used0 - framesUsed s p)

def evictFrames (p target used0 : Nat) : List Named → State → State
  | [], s => s
  | e :: l, s =>
    if reclaimed s p target used0 then s
    else if (partOf s p).heldRecords.any (fun h => h.1 = e.record) then evictFrames p target used0 l s
    else evictFrames p target used0 l (evictSeq p e s)

/-- What the reclaim of frames touches, of device memory and of far memory, in its order. -/
def evictAccess (p target used0 : Nat) : List Named → State → List (Nat × Nat) × List (Nat × Nat)
  | [], _ => ([], [])
  | e :: l, s =>
    if reclaimed s p target used0 then ([], [])
    else if (partOf s p).heldRecords.any (fun h => h.1 = e.record) then evictAccess p target used0 l s
    else
      let z := evictWork p e s
      let r := evictAccess p target used0 l (evictSeq p e s)
      (kvTouches z ++ r.1, kvFar z ++ r.2)

/-- Adapter slots evicted, none that a started STEP uses: those at or above the quota first, then the least recently used. -/
def evictSlots (p target : Nat) (x : Cmd) : Nat → Nat → State → State
  | 0, _, s => s
  | n + 1, freed, s =>
    let q := (partOf s p).slotQuota
    if (if target = 0 then decide (slotsUsed s p ≤ q) else decide (target ≤ freed)) then s
    else
      let busy := busySlots s p x
      let pick := match lruSlot s p busy fun i => decide (q ≤ i) with | some i => some i | none => lruSlot s p busy fun _ => true
      match pick with
      | none => s
      | some i => evictSlots p target x n (freed + 1) (evictSlot p i s)

/-- An EVICT ends; a replay of its group does not reclaim again (R275). -/
def evictDone (c : Nat) (s : State) : State := finishOk c 0 (modCmd c (fun x => { x with applied := true }) s)

def evictEffect (c : Nat) (s : State) : State :=
  let x := cmdOf s c
  let p := evictPart x s
  if ¬classReady s c 0x41 then notTaken s
  else if x.applied then finishOk c 0 s
  else if 1 < evictKind x then fail c .descFault 0x701 s
  else if ¬(p < 64 ∧ (partOf s p).state = .active) then fail c .boundsFault 0x631 s
  else if evictKind x = 0 then
    let used := framesUsed s p
    let l := evictOrder (partOf s p).named
    let t := evictAccess p (evictTarget x) used l s
    withAccess (2 * c) p t.1 t.2 (fun s => evictDone c (evictFrames p (evictTarget x) used l s)) s
  else evictDone c (evictSlots p (evictTarget x) x ((partOf s p).adapters.length + 1) 0 s)

/-- EVICT (R381): frames or adapter slots of a partition reclaimed. -/
def execEvict (c : Nat) (s : State) : Host.Outcome State Fault Refusal := take (.evict c) s (evictEffect c)

end Sys2Proof.Machine
end

