-- ==== Sys2Proof/Machine/RecOps.lean ====
section
/-!
DEFINITION. Recovery (R461 to R468): which groups a fault affects, units taken out of service (R466), and how a group is
stopped, restored and made ready to run again (R464, R465).
-/
namespace Sys2Proof.Machine

/-! ### Affected groups (R461) -/

/-- Partitions whose running group has a started command that satisfies `q`. -/
def busyParts (s : State) (q : Nat → Cmd → Bool) : List Nat :=
  (rangeFrom 0 64).filter fun p =>
    match (partOf s p).running with
    | none => false
    | some j => (groupCmds s j.1 j.2 (jobRing s j).curGroup).any fun c => (cmdOf s c).phase = .running && q c (cmdOf s c)

/-- Partitions with a command that runs on core `n`. -/
def coreParts (s : State) (n : Nat) : List Nat := busyParts s fun c _ => (coresOf s c).contains n

/-- The jobs with programs on Clove `g`. -/
def cloveJobs (s : State) (g : Nat) : List (Nat × Nat) :=
  (((cloveOf s g).progs ++ (cloveOf s g).waiting).map fun q => ((cmdOf s q.cmd).fn, (cmdOf s q.cmd).ring)).eraseDups

/-- Partitions whose running group has programs on Clove `g`. -/
def cloveParts (s : State) (g : Nat) : List Nat :=
  (rangeFrom 0 64).filter fun p => match (partOf s p).running with | none => false | some j => (cloveJobs s g).contains j

/-- Partitions with a command whose work mover `m` does: the configured mover that serves them (log 22). -/
def moverParts (s : State) (m : Nat) : List Nat :=
  if chosenMover s = some m then busyParts s fun _ x => cmdClass x != 0x02 && cmdClass x != 0x03 && !x.waiting else []

/-- Partitions with any started command: a stack controller or stack interface serves them all. -/
def anyParts (s : State) : List Nat := busyParts s fun _ _ => true

/-- Partitions whose runtime instance runs on application core `a`. -/
def acParts (s : State) (a : Nat) : List Nat := (rangeFrom 0 64).filter fun p => (partOf s p).acs.contains a

/-- A number for a job's current group. -/
def groupKey (s : State) (j : Nat × Nat) : Nat := (j.1 * 16 + j.2) * 2 ^ 40 + (jobRing s j).curGroup + 1

/-- Unit codes: 0 a core, 1 a mover, 2 a Clove, 3 an application core, and its number. -/
def unitCode (cls n : Nat) : Nat := cls * 2 ^ 16 + n

/-- A unit named by the record that is written next, in the groups it affects (R466). -/
def noteUnit (u : Nat) (ps : List Nat) (s : State) : State :=
  let jobs := (ps.filter fun p => decide (p < 64)).filterMap fun p => (partOf s p).running
  let l := if jobs = [] then [(u, s.evc.flogCount, 0, 0)]
    else jobs.map fun j => (u, s.evc.flogCount, groupKey s j, (jobRing s j).runs)
  { s with evc := { s.evc with unitFaults := s.evc.unitFaults ++ l } }

/-- A fault of a unit: noted, recorded, the groups that ran on it affected. -/
def unitFault (u kind source unit : Nat) (detail : W64) (ps : List Nat) (s : State) : State :=
  faultAffects kind source unit detail ps (noteUnit u ps s)

/-! ### Units out of service (R466) -/

/-- Units that this group's faults name in two of its runs, and any unit that three records name; whether those lie within 24 hours is
a free value (log 20). -/
def dueUnits (k : Nat) (s : State) (key : Nat) : List Nat :=
  let l := s.evc.unitFaults
  ((l.map (·.1)).eraseDups).filter fun u =>
    decide (2 ≤ (((l.filter fun e => e.1 = u && e.2.2.1 = key).map fun e => e.2.2.2).eraseDups).length)
      || (decide (3 ≤ (((l.filter fun e => e.1 = u).map fun e => e.2.1).eraseDups).length) && k % 2 = 1)

/-- Core group `k` is held by no partition and none of its cores is lent. -/
def groupFree (s : State) (k : Nat) : Bool :=
  (rangeFrom 0 64).all fun p => (partOf s p).state = .none
    || (!(partOf s p).cores.getLsbD k && !((partOf s p).lent.any fun e => e.2 / 4 = k))

/-- The lowest-numbered core that Sumac can lend: of a group that no partition holds. -/
def freeCore (s : State) : Option Nat :=
  findFrom (fun n => (coreOf s n).state != .deconfigured && (rangeFrom 0 64).all fun p =>
    (partOf s p).state = .none || (!(partOf s p).cores.getLsbD (n / 4) && !((partOf s p).lent.any fun e => e.2 = n))) 0 256

/-- The partition's cores that can serve an orphaned index. -/
def restCores (s : State) (p : Nat) : List Nat := (partCores s p).filter fun n => (coreOf s n).state != .deconfigured

/-- The remaining core that serves a further index: the first that serves no orphan, else the first. -/
def restCore (s : State) (p : Nat) : Option Nat :=
  match (restCores s p).find? fun n => !((partOf s p).orphans.any fun e => e.2 = n) with
  | some n => some n
  | none => (restCores s p).head?

/-- A partition core index without its own core: a lent core serves it, or it shares one of the remaining cores. -/
def serveIndex (p i : Nat) (s : State) : State :=
  let s := modPart p (fun q => { q with
    lent := q.lent.filter (fun e => e.1 != i)
    orphans := q.orphans.filter (fun e => e.1 != i)
    swapped := q.swapped.filter fun e => e.1 != i }) s
  match freeCore s with
  | some n => setEvRoute (256 + n) (routeOf s (576 + p)) (modPart p (fun q => { q with lent := q.lent ++ [(i, n)] }) s)
  | none =>
    match restCore s p with
    | none => s
    | some n => modPart p (fun q => { q with
        orphans := q.orphans ++ [(i, n)]
        swapped := q.swapped ++ [(i, { core := { pidx := i } })] }) s

/-- The partition core indices that core `n` serves. -/
def indicesOn (s : State) (p n : Nat) : List Nat := (coreIndices s p).filter fun i => physCore s p i = some n

def coreDown (n : Nat) (s : State) : State :=
  modSpad n (fun _ => {}) (modCore n (fun x => { coreVacate x with state := .deconfigured }) s)

/-- The recovery of a job's group is due, whether it runs or not (R372, R461). -/
def startJobRecovery (j : Nat × Nat) (s : State) : State :=
  let p := homeOf s j.1
  if 64 ≤ p then s else raise (576 + p) (modJob j (fun q => { q with recover := true, faulted := true }) s)

/-- The jobs with a command that runs on core `n`. -/
def coreJobs (s : State) (n : Nat) : List (Nat × Nat) :=
  ((cmdsWhere s fun x => x.phase = .running).filter fun c => (coresOf s c).contains n).map fun c => ((cmdOf s c).fn, (cmdOf s c).ring)

/-- A Saffron core deconfigured: its indices go to other cores of the partition that holds it; a group that runs on it is recovered too. -/
def deconfigureCore (n : Nat) (s : State) : State :=
  let js := coreJobs s n
  let s := match coreHolder s n with
    | none => coreDown n s
    | some p => foldState (indicesOn s p n) (serveIndex p) (coreDown n s)
  foldState js startJobRecovery s

/-- A Clove deconfigured: OFF; the lists and weight slices of its bank move to other banks; the groups of other jobs whose programs it held
are affected too. -/
def deconfigureClove (g : Nat) (s : State) : State :=
  let js := cloveJobs s g
  let s := serveDeferred g (modClove g (fun x => { x with
    state := .off, deconfigured := true, progs := [], waiting := [], forcedPending := false }) s)
  foldState js startJobRecovery (moveBank g s)

/-- The sources that a partition's runtime receives, routed to application core `a` (R447). -/
def routePart (p a : Nat) (s : State) : State :=
  let s := foldState [64 + p, 128 + p, 192 + p, 576 + p] (fun k s => setEvRoute k a s) s
  foldState (partCores s p) (fun n s => setEvRoute (256 + n) a s) s

/-- The application core that Sumac assigns: the lowest-numbered that is in service, one that hosts no runtime first. -/
def freeAc (s : State) : Option Nat :=
  match findFrom (fun a => !(s.sec.acDown.contains a) && acParts s a = []) 0 32 with
  | some a => some a
  | none => findFrom (fun a => !(s.sec.acDown.contains a)) 0 32

/-- A runtime instance of partition `p` moved off application core `a` (R29, R466). -/
def moveRuntime (a p : Nat) (s : State) : State :=
  let rest := (partOf s p).acs.filter fun b => b != a
  let rest := if rest = [] then (freeAc s).toList else rest
  let s := modPart p (fun q => { q with acs := rest }) s
  match rest with
  | [] => s
  | b :: _ => routePart p b s

def deconfigureAc (a : Nat) (s : State) : State :=
  let s := { s with sec := { s.sec with acDown := s.sec.acDown ++ [a] } }
  foldState (acParts s a) (moveRuntime a) s

def deconfigureUnit (u : Nat) (s : State) : State :=
  let n := u % 2 ^ 16
  match u / 2 ^ 16 with
  | 0 => if (coreOf s n).state = .deconfigured then s else deconfigureCore n s
  | 1 => modMover n (fun x => { x with state := .deconfigured }) s
  | 2 => if (cloveOf s n).deconfigured then s else deconfigureClove n s
  | _ => if s.sec.acDown.contains n then s else deconfigureAc n s

/-! ### Stopping and restarting a group (R464) -/

/-- A core that a recovery stops: no completion, so the status of its last RUN stays. -/
def coreHalt (x : Core) : Core := { coreStop 0 x with lastStatus := x.lastStatus }

/-- A Clove without the programs of a command, discarded without a status. -/
def cloveHalt (c : Nat) (x : Clove) : Clove := { cloveDrop .ok c x with lastStatus := x.lastStatus }

/-- Step 1 of R464 for one command: its cores and Clove programs stop, its waits are abandoned; fabric transfers keep their
position (R411). -/
def haltCmd (c : Nat) (s : State) : State :=
  let ns := coresOf s c
  let s := leaveKept c (foldState ns (fun n s => modCore n coreHalt (dropAsk (2 * n + 1) s)) (dropAsk (2 * c) s))
  let s := setWaiters (s.sem.waiters.filter fun w => waitCmd w.who != c) s
  let gs := (s.clv.clove.filter fun e => e.2.progs.any (·.cmd = c) || e.2.waiting.any (·.cmd = c)).map (·.1)
  foldState gs (fun g s => switchIn g (serveDeferred g (modClove g (cloveHalt c) s))) s

/-- A fabric command that has ended with a failure keeps it: its peers have been told (R412). A message that met poison goes on in the
replay (R410). -/
def keepsEnd (x : Cmd) : Bool :=
  phaseDone x.phase && !statusOk x.status
    && ((x.status != .poisonConsumed && (cmdClass x = 0x30 || cmdClass x = 0x31)) || cmdClass x = 0x32)

/-- A command of the group goes back to its start; one whose record is written reports no more (R464). -/
def rewind (x : Cmd) : Cmd :=
  if x.overLong || keepsEnd x then x
  else { x with phase := .fetched, status := .ok, cause := 0, index := 0, replayed := true, waiting := false
                flags := if x.applied then x.flags else 0
                waitFor := [], cores := [], faults := [], poisoned := false, fetched := none, noRecord := x.noRecord || x.phase = .reported }

/-- Steps 1 to 3 and 5 of R464: the group's commands stop and go back to their start, its image is discarded, the scratchpads and
staging regions it holds are emptied, and it may run again. -/
def restartGroup (p : Nat) (j : Nat × Nat) (s : State) : State :=
  let cs := groupCmds s j.1 j.2 (jobRing s j).curGroup
  let on := (partOf s p).running = some j
  let s := dropImage j.1 j.2 (foldState cs haltCmd s)
  let s := setWaiters (s.sem.waiters.filter fun w => waiterJob w != j) s
  let s := if on then drainEngines p s else s
  let failed := cs.any fun c => let x := cmdOf s c; (x.overLong || keepsEnd x) && phaseDone x.phase && !statusOk x.status
  let s := foldState cs (fun c s => modCmd c rewind s) s
  let s := modPart p (fun q => { q with
    heldRecords := q.heldRecords.filter (fun e => !(cs.contains e.2))
    pendingStop := if on then 0 else q.pendingStop
    pendingHold := if on then false else q.pendingHold
    pendingWait := if on then false else q.pendingWait
    woken := if on then false else q.woken }) s
  modJob j (fun q => { q with
    failed := failed, drained := false, runs := q.runs + 1, recover := false, faulted := false, lost := []
    job := if on then .running else .ready }) s

/-! ### The verdict (R463, R465) -/

/-- What became of the words a group consumed: some cannot be restored, and which commands consumed such a word in a retiring unit or of a KV
frame; some were restored. -/
structure Verdict where
  s : State
  dead : Bool := false
  retiring : List Nat := []
  kv : List Nat := []
  restored : Bool := false

/-- The group of job `j` wrote every byte of a lost word, or of a lost far sector (R463). -/
def wroteWord (s : State) (p : Nat) (j : Nat × Nat) (g off : Nat) : Bool :=
  let wrote := fun (kind b : Nat) => (jobRing s j).wrote.any fun e => e.1 = kind && decide (e.2.1 ≤ b ∧ b < e.2.1 + e.2.2)
  if 4096 ≤ g then (rangeFrom off 64).all (wrote 1)
  else
    let place := (wordPlace s p g off).map fun e => e.1 * 2 ^ 21 + e.2.1
    (rangeFrom 0 8).all fun i => wrote 2 (dramKey g off + i) || (place.map fun x => wrote 0 (x + i)).getD false

/-- One lost word (R463): restored; or the group's own work, which a replay brings back; or lost. -/
def judge (p : Nat) (j : Nat × Nat) (v : Verdict) (e : Nat × Nat × Bool × Nat) : Verdict :=
  match restoreWord p j e.1 e.2.1 v.s with
  | some s => { v with s := s, restored := v.restored || e.2.2.1 }
  | none =>
    if ¬e.2.2.1 then v
    else if wroteWord v.s p j e.1 e.2.1 then v
    else { v with
      dead := true
      retiring := if wordRetiring v.s e.1 e.2.1 then e.2.2.2 :: v.retiring else v.retiring
      kv := if wordOfKv v.s p e.1 e.2.1 then e.2.2.2 :: v.kv else v.kv }

/-- R465: command `c`, which consumed poison, ends with UNRECOVERED where the word it consumed lies in a unit that is being retired, and a STEP
that lost a frame whose journal cannot be read does. -/
def lostStatus (v : Verdict) (c : Nat) (x : Cmd) : Cmd :=
  if x.phase = .done ∧ x.status = .poisonConsumed ∧ (v.retiring.contains c ∨ (v.kv.contains c ∧ cmdClass x = 0x04)) then
    { x with status := .unrecovered }
  else x

/-- A MODEL_SWAP that had filled its slot and now ends with a failure leaves it EMPTY (R290). -/
def undoLoad (c : Nat) (s : State) : State :=
  let x := cmdOf s c
  if x.phase = .done ∧ statusOk x.status ∧ cmdClass x = 0x1A then setModel (homeOf s x.fn) (swapSlot x) {} s else s

/-- A group that has run four times (R466): every unreported command ends; the cause of one that had none is a free value. -/
def endUnreported (poison : Bool) (cs : List Nat) (s : State) : State :=
  let st : Status := if poison then .poisonConsumed else .unrecovered
  foldState (cs.filter fun c => (cmdOf s c).phase != .reported) (fun c s =>
    let x := cmdOf s c
    let (k, s) := draw s
    let cause := if x.status = st ∧ x.phase = .done then x.cause else k % 4096
    markDone c st cause 0 0 0 (stopCmd st c (undoLoad c s))) s

/-- Some command of the group has reported a failure: the group is over and nothing is run again. -/
def groupLost (s : State) (cs : List Nat) : Bool :=
  cs.any fun c => (cmdOf s c).phase = .reported && !statusOk (cmdOf s c).status

/-- No group left to recover. -/
def clearDue (j : Nat × Nat) (s : State) : State :=
  modJob j (fun q => { q with recover := false, faulted := false, lost := [] }) s

def noteOutcome (j : Nat × Nat) (o : Nat) (s : State) : State :=
  modJob j (fun q => { q with recOutcome := Nat.max q.recOutcome o }) s

/-- The group of job `j` is recovered (R464 to R466). -/
def recoverJob (p : Nat) (j : Nat × Nat) (s : State) : State :=
  let q := jobRing s j
  let cs := groupCmds s j.1 j.2 q.curGroup
  let v := q.lost.foldl (judge p j) { s := s }
  let poison := q.lost.any fun e => e.2.2.1
  let (k, s1) := draw v.s
  let us := dueUnits k s1 (groupKey s1 j)
  if groupLost s1 cs then clearDue j s1
  else if ¬q.faulted ∧ ¬poison then endRecovery j outNoEffect s1
  else if v.dead then clearDue j (foldState cs (fun c s => modCmd c (lostStatus v c) s) s1)
  else if 4 ≤ q.runs then clearDue j (endUnreported (!q.faulted) cs s1)
  else
    let s2 := foldState us deconfigureUnit (restartGroup p j s1)
    let o := if us ≠ [] then outDeconfigured else if v.restored then outRestored else outReplayed
    schedule p (noteOutcome j o s2)

end Sys2Proof.Machine
end

