-- ==== Sys2Proof/Machine/MgmtOps.lean ====
section
/-!
DEFINITION. Management requests (R482 to R487): who may send which, how a request is answered, stored and queued; and the
resources that Sumac gives to a partition and takes back (R173, R189, R211, R237, R256, R358 to R361).
-/
namespace Sys2Proof.Machine

/-! ### Sessions and authority (R480, R482, R484, R491) -/

/-- An established session on the DOE of a function. -/
def sessionOf (s : State) (f n : Nat) : Option Session := s.sec.sessions.find? fun x => x.fn = f && x.num = n && x.finished

/-- A PF session, and the owner session. -/
def pfSession (s : State) (n : Nat) : Bool := (sessionOf s 0 n).isSome
def ownerSession (s : State) (n : Nat) : Bool := match sessionOf s 0 n with | some x => x.owner | none => false

/-- Whether the session and the life-cycle state allow a request (R476, R484, R491). In PROVISIONED there is no owner, so a firmware
request is taken there in recovery only. -/
def allowed (s : State) (op : Nat) (n : Nat) : Bool :=
  let deployed := ownerSession s n && s.sec.lc = 2 && !s.sec.recovery
  match op with
  | 0x09 => s.sec.lc != 3 && s.sec.lc != 0 && (ownerSession s n || (s.sec.recovery && pfSession s n))
  | 0x0A => s.sec.lc != 3 && s.sec.lc != 0 && (ownerSession s n || (s.sec.recovery && pfSession s n))
  | 0x0B => deployed || (s.sec.lc = 1 && pfSession s n && !s.sec.recovery)
  | 0x0D => s.sec.lc = 1 && pfSession s n && !s.sec.recovery
  | _ => deployed

/-! ### Answers (R483, R486) -/

/-- STATUS codes of R486. -/
def mgmtCode : MgmtStatus → Nat
  | .done => 0 | .denied => 1 | .invalid => 2 | .noResource => 3 | .busy => 4

/-- A response sent; the owner's last one is stored. -/
def respond (r : Response) (store : Bool) (s : State) : State :=
  setReply (.mgmt r) { s with sec := { s.sec with
    sent := s.sec.sent ++ [r]
    stored := if store then some r else s.sec.stored } }

/-- A request completed. -/
def answer (op : Nat) (q : Req) (st : MgmtStatus) (result : Nat) (s : State) : State :=
  respond { op := op, seq := q.seq, status := st, result := BitVec.ofNat 64 result } (ownerSession s q.sess) s

/-- A request that is answered when its partition has come up or gone stays open until then (R483, R484). -/
def openRequest (op : Nat) (q : Req) (p : Nat) (s : State) : State :=
  { s with sec := { s.sec with openReq := some { op := op, seq := q.seq, part := p } } }

/-- A request executed (R482 to R484, R486): the stored response where its SEQ is that of the owner's last; DENIED where it is not allowed;
INVALID where its header is malformed; otherwise its own effect. -/
def perform (op : Nat) (q : Req) (run : State → State) (s : State) : State :=
  let again : Option Response := if ownerSession s q.sess then s.sec.stored.filter fun r => r.seq = q.seq else none
  match again with
  | some r => respond r true s
  | none =>
    if ¬allowed s op q.sess then answer op q .denied 0 s
    else if q.malformed then answer op q .invalid 0 s
    else run s

/-- A request arrives (R483): executed at once, queued behind one in progress, or answered BUSY. -/
def arrive (i : Instr) (f op : Nat) (q : Req) (go : State → State) (s : State) : State :=
  if ¬hostUp s f then notTaken s
  else if s.sec.openReq.isNone then go s
  else if s.sec.queue.length < 16 then { s with sec := { s.sec with queue := s.sec.queue ++ [i] } }
  else respond { op := op, seq := q.seq, status := .busy, result := 0 } false s

/-- The request in progress is answered, at the end of PART_CREATE or PART_TEARDOWN (R484). -/
def closeReq (p : Nat) (s : State) : State :=
  match s.sec.openReq with
  | none => s
  | some o =>
    if o.part = p then
      respond { op := o.op, seq := o.seq, status := .done, result := BitVec.ofNat 64 (if o.op = 1 then p else 0) } true
        { s with sec := { s.sec with openReq := none } }
    else s

/-! ### Ranges -/

def liveParts (s : State) : List Nat := (rangeFrom 0 64).filter fun p => (partOf s p).state != .none

/-- A range of `n` from `lo` that meets none of a list of ranges. -/
def gapAt (used : List (Nat × Nat)) (lo n : Nat) : Bool := used.all fun e => decide (lo + n ≤ e.1 ∨ e.1 + e.2 ≤ lo)

/-- The lowest place for a range of `n` below a limit. -/
def lowestGap (used : List (Nat × Nat)) (n limit : Nat) : Option Nat :=
  let ok := (0 :: used.map fun e => e.1 + e.2).filter fun lo => decide (lo + n ≤ limit) && gapAt used lo n
  match ok with | [] => none | a :: l => some (l.foldl Nat.min a)

def semRanges (s : State) : List (Nat × Nat) := (liveParts s).map fun p => ((partOf s p).semBase, (partOf s p).semCount)
def ctRanges (s : State) (but : Nat) : List (Nat × Nat) :=
  ((liveParts s).filter fun p => p != but).map fun p => ((partOf s p).ctBase, (partOf s p).ctCount)
def farRanges (s : State) : List (Nat × Nat) := (liveParts s).map fun p => ((partOf s p).farBase, (partOf s p).farSize)

/-- GiB of the far address space (R211). -/
def farTotal (s : State) : Nat := (farPortOf s 0).capacity + (farPortOf s 1).capacity

def sumParts (s : State) (f : Part → Nat) : Nat := (liveParts s).foldl (fun n p => n + f (partOf s p)) 0

/-! ### Chunks (R189, R200, R256) -/

/-- A physical chunk that Sumac can give. -/
def freeChunk (s : State) (k : Nat) : Bool :=
  decide (k < 262144) && (mapOf s k).isNone && !(isRetired s (.chunk k)) && !(s.mem.moves.any fun m => m.target = k || m.chunk = k)
    && !(s.mem.localRetire.contains k) && !(withheld s k)

/-- A BANK_LOCAL chunk of planes 0 to 31 with a retired frame. -/
def holdsRetired (s : State) (k : Nat) : Bool :=
  planeLocal s k && decide (k / 4096 < 32)
    && (rangeFrom (k % 4096 * 4096 + k / 4096 * 128) 128).any fun n => (frameOf s n).retired

/-- A choice of `n` chunks and of `pool` INTERLEAVED ones that the rules allow. -/
def choiceOk (s : State) (l : List (Nat × Bool)) (n pool : Nat) : Bool :=
  l.length = n + pool && noDup (l.map (·.1)) && l.all (fun e => freeChunk s e.1)
    && l.all (fun e => if e.2 then planeLocal s e.1 && decide (e.1 / 4096 < 32) else !(holdsRetired s e.1))
    && (l.drop n).all fun e => !(planeLocal s e.1) && !e.2

/-- Too few chunks are free. -/
def chunksLack (s : State) (n pool : Nat) : Bool :=
  let l := (rangeFrom 0 262144).filter (freeChunk s)
  decide (l.length < n + pool) || decide ((l.filter fun k => !(planeLocal s k)).length < pool)

/-- Map entries written from entry `n` on. -/
def putEntries (s : State) (n : Nat) : List (Nat × Bool) → State
  | [] => s
  | e :: l => putEntries (setCt n { valid := true, bankLocal := planeLocal s e.1, kv := e.2, pchunk := e.1 } s) (n + 1) l

/-- A partition's map range moved to another base. -/
def moveRange (p base : Nat) (s : State) : State :=
  let q := partOf s p
  if base = q.ctBase then s
  else
    let es := (rangeFrom 0 q.ctCount).map fun c => (c, ctOf s (q.ctBase + c))
    let s := foldState es (fun e s => setCt (q.ctBase + e.1) {} s) s
    let s := foldState es (fun e s => setCt (base + e.1) e.2 s) s
    let s := { s with mem := { s.mem with moves := s.mem.moves.map fun m =>
      if q.ctBase ≤ m.entry ∧ m.entry < q.ctBase + q.ctCount then { m with entry := m.entry - q.ctBase + base } else m } }
    modPart p (fun q => { q with ctBase := base }) s

/-! ### Stack modes (R237, R485) -/

/-- Another partition holds a chunk on the stack: an INTERLEAVED chunk lies in every stack. -/
def othersOn (s : State) (st : Nat) : Bool :=
  s.mem.ct.any fun e => e.2.valid && (entryOwner s e.1).isSome && (!e.2.bankLocal || e.2.pchunk % 4096 / 512 = st)

def modesDiffer (s : State) (m : BitVec 8) : Bool :=
  (rangeFrom 0 8).any fun st => othersOn s st && s.clv.stackMode.getLsbD st != m.getLsbD st

/-! ### Creation (R360, R485) -/

/-- The functions that PART_CREATE assigns. -/
def createFns (a : PartParams) : List Nat := (if a.flags % 2 = 1 then [0] else []) ++ rangeFrom a.firstVf a.nvf

/-- Parameters outside their ranges (INVALID). -/
def createBad (a : PartParams) : Bool :=
  !a.fieldsOk || !a.reservedZero || a.sems % 64 != 0
    || decide (a.saveSlots < 1 ∨ 16 < a.saveSlots ∨ a.ibudget < 1 ∨ 200 < a.ibudget ∨ 1024 < a.share ∨ 16777216 < a.kvq
      ∨ 4096 < a.slotq ∨ a.far < a.journal ∨ 1024 < a.nvf)
    || (a.cap && a.share = 0) || (a.nvf != 0 && decide (a.firstVf < 1 ∨ 1024 < a.firstVf + a.nvf - 1))

/-- The first staging region asked for that has an owner (R516). -/
def stagingHeld (s : State) (m : W64) : Option Nat :=
  findFrom (fun i => m.getLsbD i && (claimOf s (0x80 + i)).owner != 0) 0 64

/-- RESULT of a request that meets a held staging region (R516). -/
def heldResult (s : State) (i : Nat) : Nat := 0x31 + (0x80 + i) * 2 ^ 8 + (claimOf s (0x80 + i)).owner * 2 ^ 16

/-- A resource other than staging and chunks is lacking. -/
def createLacks (s : State) (a : PartParams) : Bool :=
  (findFrom (fun p => (partOf s p).state = .none) 0 64).isNone || (freeAc s).isNone
    || (rangeFrom 0 64).any (fun k => a.cores.getLsbD k && !(groupFree s k))
    || (lowestGap (farRanges s) a.far (farTotal s)).isNone || (lowestGap (semRanges s) a.sems 65536).isNone
    || (lowestGap (ctRanges s 64) (a.chunks + a.pool) 262144).isNone
    || decide (1024 < sumParts s (·.share) + a.share) || decide (4096 < sumParts s (·.slotQuota) + a.slotq)
    || decide (65536 < sumParts s (·.dircap) + a.dircap)
    || (a.domain != 0 && (liveParts s).any fun p => (partOf s p).domain = a.domain)
    || (createFns a).any fun f => (fnOf s f).assigned || (fnOf s f).state != .disabled || !(fnExists s f)

/-- The new partition (R360). DESIGN CHOICE (assumption 123): of the application cores that R29 lets Sumac assign at creation, one or
several, it is given exactly one. -/
def newPart (s : State) (p ac : Nat) (a : PartParams) : Part :=
  let old := partOf s p
  { state := .creating, cores := a.cores, coreList := coresOfMask a.cores
    ctBase := (lowestGap (ctRanges s 64) (a.chunks + a.pool) 262144).getD 0, ctCount := a.chunks + a.pool
    poolBase := a.chunks, poolChunks := a.pool
    farBase := (lowestGap (farRanges s) a.far (farTotal s)).getD 0, farSize := a.far, farKey := s.mem.farKeys + 1, journal := a.journal
    semBase := (lowestGap (semRanges s) a.sems 65536).getD 0, semCount := a.sems, semQuota := a.sems
    kvQuota := a.kvq, slotQuota := a.slotq, dircap := a.dircap, share := a.share, cap := a.cap
    saveSlots := a.saveSlots, ibudget := a.ibudget, staging := a.staging, domain := a.domain
    pfAttached := a.flags % 2 = 1, fnFirst := a.firstVf, fnCount := a.nvf, acs := [ac]
    hinted := old.hinted, full := old.full }

/-- Semaphores of a range set to 0 (R177). -/
def clearSems (base n : Nat) (s : State) : State :=
  let mine := fun k => decide (base ≤ k ∧ k < base + n)
  { s with sem := { s.sem with
    values := tabDrop s.sem.values mine
    waiters := s.sem.waiters.filter fun w => !(mine w.sem)
    holders := s.sem.holders.filter fun h => !(mine h.sem) } }

/-- A new partition's far range: its sectors stay as they are, unreadable under its key (R212); no mark of an old one stands in
them (R213). -/
def clearFar (base n : Nat) (s : State) : State :=
  { s with mem := { s.mem with
    farKeys := s.mem.farKeys + 1
    farPoison := tabDrop s.mem.farPoison fun k => decide (base * 2 ^ 30 ≤ k * 64 ∧ k * 64 < (base + n) * 2 ^ 30) } }

/-- Indices whose core is out of service are served by others (R358, R466). -/
def serveDown (p : Nat) (s : State) : State :=
  foldState ((coreIndices s p).filter fun i => match physCore s p i with
    | some n => (coreOf s n).state = .deconfigured
    | none => false) (serveIndex p) s

/-- Everything that a creation takes (R360). -/
def createPart (p ac : Nat) (a : PartParams) (s : State) : State :=
  let x := newPart s p ac a
  let s := putEntries s x.ctBase a.choice
  let s := { s with clv := { s.clv with stackMode := a.stackMode } }
  let s := clearFar x.farBase x.farSize (clearSems x.semBase x.semCount s)
  let s := foldState ((rangeFrom 0 64).filter fun i => a.staging.getLsbD i)
    (fun i s => setClaim (0x80 + i) { func := 0, owner := 4, part := p } s) s
  let s := modPart p (fun _ => x) s
  routePart p ac (serveDown p s)

/-! ### Teardown (R361) -/

/-- Fabric transfers and waiting packets of a partition that is torn down. -/
def dropFabric (p : Nat) (s : State) : State :=
  let d := (partOf s p).domain
  { s with stw := { s.stw with
    sends := s.stw.sends.filter fun x => x.part != p
    recvs := s.stw.recvs.filter fun x => x.part != p
    colls := s.stw.colls.filter fun x => x.part != p
    waiting := if d = 0 then s.stw.waiting else s.stw.waiting.filter fun k => k.domain != d } }

/-- Step 1 of R361 for one function: it enters DISABLING, and ASSIGNED is cleared. -/
def detachFn (f : Nat) (s : State) : State :=
  let s := if (fnOf s f).state = .enabled then beginShutdown f false s else s
  modFn f (fun x => { x with assigned := false, part := 0 }) s

/-- Steps 1 and 2 of R361. -/
def beginTeardown (p : Nat) (s : State) : State :=
  let fs := fnsOf s p
  let s := foldState fs detachFn s
  let s := dropFabric p s
  modPart p (fun q => { q with
    state := .teardown, leaving := fs, running := none, next := none, images := [], heldRecords := []
    pendingStop := 0, pendingHold := false, pendingWait := false, woken := false }) s

/-- A partition's chunks wiped and unmapped (R250, R361). -/
def releaseChunks (p : Nat) (s : State) : State :=
  let q := partOf s p
  let s := { s with mem := { s.mem with moves := s.mem.moves.filter fun m =>
    !(decide (q.ctBase ≤ m.entry ∧ m.entry < q.ctBase + q.ctCount)) } }
  foldState (rangeFrom q.ctBase q.ctCount) (fun n s =>
    let e := ctOf s n
    setCt n {} (if e.valid then wipeChunk e.bankLocal e.pchunk s else s)) s

/-- Accesses of a partition that wait in the stacks. -/
def dropHeld (p : Nat) (s : State) : State :=
  { s with mem := { s.mem with
    bwHeld := tabMap [] s.mem.bwHeld fun _ l => l.filter fun h => h.2.part != p
    deferred := tabMap [] s.mem.deferred fun _ l => l.filter fun d => d.part != p } }

/-- The test windows of a partition closed (R199). -/
def closeWindows (p : Nat) (s : State) : State :=
  foldState (rangeFrom 0 8) (fun st s =>
    if (eccOf s st).en ∧ (eccOf s st).part = p then modEcc st (fun e => { e with en := false, busy := false }) s else s) s

/-- Steps 3 and 4 of R361. -/
def endTeardown (p : Nat) (s : State) : State :=
  let q := partOf s p
  let s := releaseFrames (fun x => x.owner = p) (drainEngines p s)
  let s := dropHeld p (closeWindows p (releaseChunks p s))
  let s := clearSems q.semBase q.semCount s
  let s := { s with rst := { s.rst with claims := tabMap {} s.rst.claims fun _ c => if c.owner = 4 ∧ c.part = p then {} else c } }
  let s := routePart p 32 s
  modPart p (fun _ => { hinted := q.hinted, full := q.full, energy := q.energy }) s

end Sys2Proof.Machine
end

