-- ==== Sys2Proof/Machine/Mgmt.lean ====
section
/-!
DEFINITION. Management requests (R484 to R492, R359 to R361, R188, R197, R477, R479, R488), the readiness of a runtime and the end of
a teardown.
-/
namespace Sys2Proof.Machine

/-! ### Partitions -/

def runPartCreate (q : Req) (a : PartParams) (s : State) : State :=
  if createBad a then answer 1 q .invalid 0 s
  else match stagingHeld s a.staging with
    | some i => answer 1 q .noResource (heldResult s i) s
    | none =>
      if modesDiffer s a.stackMode then answer 1 q .denied 0 s
      else if createLacks s a then answer 1 q .noResource 0 s
      else if choiceOk s a.choice a.chunks a.pool then
        let p := (findFrom (fun p => (partOf s p).state = .none) 0 64).getD 0
        openRequest 1 q p (createPart p ((freeAc s).getD 0) a s)
      else if chunksLack s a.chunks a.pool then answer 1 q .noResource 0 s
      else notTaken s

def partCreateEffect (q : Req) (a : PartParams) (s : State) : State :=
  arrive (.partCreate q a) 0 1 q (perform 1 q (runPartCreate q a)) s

/-- PART_CREATE (R359, R360, R485): a partition is CREATING until its runtime reports ready; a choice of chunks that the rules bar
is not taken. -/
def execPartCreate (q : Req) (a : PartParams) (s : State) : Host.Outcome State Fault Refusal :=
  take (.partCreate q a) s (partCreateEffect q a)

def runPartTeardown (q : Req) (p : Nat) (s : State) : State :=
  if 64 ≤ p then answer 2 q .invalid 0 s
  else if (partOf s p).state ≠ .active then answer 2 q .denied 0 s
  else openRequest 2 q p (beginTeardown p s)

def partTeardownEffect (q : Req) (p : Nat) (s : State) : State :=
  arrive (.partTeardown q p) 0 2 q (perform 2 q (runPartTeardown q p)) s

/-- PART_TEARDOWN (R359, R361): an ACTIVE partition enters TEARDOWN, its functions DISABLING. -/
def execPartTeardown (q : Req) (p : Nat) (s : State) : Host.Outcome State Fault Refusal :=
  take (.partTeardown q p) s (partTeardownEffect q p)

/-- Groups, chunks and save slots added (R360): new cores take the next partition core indices. -/
def growPart (p : Nat) (cores : W64) (slots : Nat) (choice : List (Nat × Bool)) (s : State) : State :=
  let x := partOf s p
  let n := x.ctCount
  let used := ctRanges s p
  let base := if gapAt used x.ctBase (n + choice.length) ∧ x.ctBase + n + choice.length ≤ 262144 then some x.ctBase
    else lowestGap used (n + choice.length) 262144
  let s := moveRange p (base.getD x.ctBase) s
  let s := putEntries s ((partOf s p).ctBase + n) choice
  let s := modPart p (fun x => { x with
    ctCount := n + choice.length, cores := x.cores ||| cores, coreList := x.coreList ++ coresOfMask cores
    saveSlots := x.saveSlots + slots }) s
  let s := foldState (coresOfMask cores) (fun k s => setEvRoute (256 + k) (routeOf s (576 + p)) s) s
  serveDown p s

def runPartGrow (q : Req) (p : Nat) (cores : W64) (chunks slots : Nat) (choice : List (Nat × Bool)) (s : State) : State :=
  let x := partOf s p
  if 64 ≤ p ∨ 2 ^ 32 ≤ chunks then answer 3 q .invalid 0 s
  else if x.state ≠ .active then answer 3 q .denied 0 s
  else if 16 < x.saveSlots + slots then answer 3 q .invalid 0 s
  else if (rangeFrom 0 64).any (fun k => cores.getLsbD k && !(groupFree s k))
      || (lowestGap (ctRanges s p) (x.ctCount + chunks) 262144).isNone then answer 3 q .noResource 0 s
  else if choiceOk s choice chunks 0 then
    answer 3 q .done 0 (growPart p cores slots choice s)
  else if chunksLack s chunks 0 then answer 3 q .noResource 0 s
  else notTaken s

def partGrowEffect (q : Req) (p : Nat) (cores : W64) (chunks slots : Nat) (choice : List (Nat × Bool)) (s : State) : State :=
  arrive (.partGrow q p cores chunks slots choice) 0 3 q (perform 3 q (runPartGrow q p cores chunks slots choice)) s

/-- PART_GROW (R360): core groups, chunks or save slots added to an ACTIVE partition. -/
def execPartGrow (q : Req) (p : Nat) (cores : W64) (chunks saveSlots : Nat) (choice : List (Nat × Bool)) (s : State) :
    Host.Outcome State Fault Refusal :=
  take (.partGrow q p cores chunks saveSlots choice) s (partGrowEffect q p cores chunks saveSlots choice)

/-- Entries keyed by partition core index, after cores have left the list. -/
def reindex {α : Type} (old new : List Nat) (l : List (Nat × α)) : List (Nat × α) :=
  l.filterMap fun e => match old[e.1]? with
    | none => none
    | some n => (new.idxOf? n).map fun i => (i, e.2)

/-- Core groups removed (R360): the remaining cores keep their order. -/
def shrinkPart (p : Nat) (cores : W64) (s : State) : State :=
  let out := coresOfMask cores
  let old := (partOf s p).coreList
  let new := old.filter fun n => !(out.contains n)
  let s := foldState out (fun n s => setEvRoute (256 + n) 32 (modSpad n (fun _ => {}) s)) s
  let s := modPart p (fun x => { x with
    cores := x.cores &&& ~~~cores, coreList := new
    lent := reindex old new x.lent
    orphans := reindex old new x.orphans
    swapped := reindex old new x.swapped }) s
  foldState ((partOf s p).orphans.filter fun e => out.contains e.2) (fun e s => serveIndex p e.1 s) s

def runPartShrink (q : Req) (p : Nat) (cores : W64) (s : State) : State :=
  let x := partOf s p
  let busy := x.images != []
  if 64 ≤ p then answer 4 q .invalid 0 s
  else if x.state ≠ .active ∨ busy = true then answer 4 q .denied 0 s
  else if cores ||| x.cores ≠ x.cores then answer 4 q .invalid 0 s
  else answer 4 q .done 0 (shrinkPart p cores s)

def partShrinkEffect (q : Req) (p : Nat) (cores : W64) (s : State) : State :=
  arrive (.partShrink q p cores) 0 4 q (perform 4 q (runPartShrink q p cores)) s

/-- PART_SHRINK (R360): core groups removed while no job of the partition is SUSPENDED with an image. -/
def execPartShrink (q : Req) (p : Nat) (cores : W64) (s : State) : Host.Outcome State Fault Refusal :=
  take (.partShrink q p cores) s (partShrinkEffect q p cores)

/-- The functions that FN_ASSIGN names. -/
def assignFns (firstVf nvf : Nat) (pf pfb : Bool) : List Nat :=
  (if pf then [0] else []) ++ rangeFrom firstVf nvf ++ (if pfb then [1025] else [])

def runFnAssign (q : Req) (p firstVf nvf : Nat) (pf pfb remove : Bool) (s : State) : State :=
  let fs := assignFns firstVf nvf pf pfb
  if 64 ≤ p ∨ 1024 < nvf ∨ (nvf ≠ 0 ∧ (firstVf < 1 ∨ 1024 < firstVf + nvf - 1)) ∨ ¬(fs.all (fnExists s)) then answer 5 q .invalid 0 s
  else if (partOf s p).state ≠ .active ∨ fs.any (fun f => (fnOf s f).state != .disabled) then answer 5 q .denied 0 s
  else if remove then
    if fs.all fun f => (fnOf s f).assigned && (fnOf s f).part = p then
      answer 5 q .done 0 (foldState fs (fun f s => modFn f (fun x => { x with assigned := false, part := 0 }) s) s)
    else answer 5 q .invalid 0 s
  else if fs.any fun f => (fnOf s f).assigned then answer 5 q .noResource 0 s
  else answer 5 q .done 0 (foldState fs (fun f s => modFn f (fun x => { x with assigned := true, part := p }) s) s)

def fnAssignEffect (q : Req) (p firstVf nvf : Nat) (pf pfb remove : Bool) (s : State) : State :=
  arrive (.fnAssign q p firstVf nvf pf pfb remove) 0 5 q (perform 5 q (runFnAssign q p firstVf nvf pf pfb remove)) s

/-- FN_ASSIGN (R484): functions given to a partition or taken from it, none of them enabled. -/
def execFnAssign (q : Req) (p firstVf nvf : Nat) (pf pfb remove : Bool) (s : State) : Host.Outcome State Fault Refusal :=
  take (.fnAssign q p firstVf nvf pf pfb remove) s (fnAssignEffect q p firstVf nvf pf pfb remove)

/-! ### Configuration -/

def runPlaneMode (q : Req) (v : W64) (s : State) : State :=
  if noPartition s then answer 6 q .done 0 { s with mem := { s.mem with planeMode := v } } else answer 6 q .denied 0 s

def planeModeEffect (q : Req) (v : W64) (s : State) : State := arrive (.planeMode q v) 0 6 q (perform 6 q (runPlaneMode q v)) s

/-- PLANE_MODE (R183, R188): MEM_PLANE_MODE written while no partition exists. -/
def execPlaneMode (q : Req) (v : W64) (s : State) : Host.Outcome State Fault Refusal := take (.planeMode q v) s (planeModeEffect q v)

/-- EN of a port written (R388). -/
def setPortEn (pt : Nat) (en : Bool) (s : State) : State :=
  if en then portEnable pt s
  else if (portOf s pt).state = .down then modPort pt (fun x => { x with en := false }) s
  else portDown pt s

def runFabricCfg (q : Req) (a : FabricCfg) (s : State) : State :=
  if ¬a.fieldsOk then answer 7 q .invalid 0 s
  else match a with
  | .device id =>
    if id = 0xFFFF then answer 7 q .invalid 0 s else answer 7 q .done 0 { s with stw := { s.stw with devId := BitVec.ofNat 16 id, devValid := true } }
  | .route id v p av alt =>
    answer 7 q .done 0 { s with stw := { s.stw with
      routes := tabSet {} s.stw.routes id { valid := v, port := p, altValid := av, alt := alt } } }
  | .domain p d =>
    if (partOf s p).state = .none then answer 7 q .denied 0 s
    else if d ≠ 0 ∧ (liveParts s).any (fun r => r != p && (partOf s r).domain = d) then answer 7 q .noResource 0 s
    else answer 7 q .done 0 (modPart p (fun x => { x with domain := d }) s)
  | .port pt en dim dl =>
    answer 7 q .done 0 (settleIdle (setPortEn pt en (modPort pt (fun x => { x with dim := dim, dateline := dl }) s)))

def fabricCfgEffect (q : Req) (a : FabricCfg) (s : State) : State := arrive (.fabricCfg q a) 0 7 q (perform 7 q (runFabricCfg q a)) s

/-- FABRIC_CFG (R484): the device ID, never 0xFFFF (R400), a route, a partition's domain (R404), or a port's EN, DIM and DATELINE. -/
def execFabricCfg (q : Req) (a : FabricCfg) (s : State) : Host.Outcome State Fault Refusal :=
  take (.fabricCfg q a) s (fabricCfgEffect q a)

/-- A chunk that may be a stack's test window for a partition (R197). -/
def eccWindowOk (s : State) (p st chunk : Nat) : Bool :=
  let x := partOf s p
  planeLocal s chunk && chunk % 4096 / 512 = st && !(eccOf s st).en
    && match mapOf s chunk with
      | none => false
      | some (n, e) => e.bankLocal && !e.kv && decide (x.ctBase ≤ n ∧ n < x.ctBase + x.ctCount) && x.state = .active

def runEccTest (q : Req) (p st chunk : Nat) (opening : Bool) (s : State) : State :=
  if 64 ≤ p ∨ 8 ≤ st ∨ 262144 ≤ chunk then answer 8 q .invalid 0 s
  else if opening then
    if eccWindowOk s p st chunk then
      answer 8 q .done 0 (modEcc st (fun e => { e with en := true, ce := 0, due := 0, pchunk := chunk, part := p }) s)
    else answer 8 q .denied 0 s
  else if (eccOf s st).en then
    answer 8 q .done 0 (modEcc st (fun e => { e with en := false, busy := false }) (wipeChunk true (eccOf s st).pchunk s))
  else answer 8 q .denied 0 s

def eccTestEffect (q : Req) (p st chunk : Nat) (opening : Bool) (s : State) : State :=
  arrive (.eccTest q p st chunk opening) 0 8 q (perform 8 q (runEccTest q p st chunk opening)) s

/-- ECC_TEST (R197, R199): a stack's test window opened for a partition, or wiped and closed. -/
def execEccTest (q : Req) (p st chunk : Nat) (opening : Bool) (s : State) : Host.Outcome State Fault Refusal :=
  take (.eccTest q p st chunk opening) s (eccTestEffect q p st chunk opening)

/-! ### Firmware (R474, R477) -/

/-- A complete set, every image of which is valid, that the slot's 24 MiB hold (R471, R477). -/
def setOk (s : State) (l : List Image) : Bool :=
  l.length = 8 && decide ((l.map fun im => im.bytes.length).sum ≤ 24 * 2 ^ 20) && (rangeFrom 0 8).all fun t => l.any fun im => imgType im = t && imageError s t im = 0

def runFwUpdate (q : Req) (l : List Image) (s : State) : State :=
  let ok := setOk s l
  let sl : FwSlot := { images := l, valid := ok }
  let s := { s with sec := if s.sec.bootSlotB then { s.sec with slotA := sl } else { s.sec with slotB := sl } }
  answer 9 q (if ok then .done else .invalid) 0 s

def fwUpdateEffect (q : Req) (l : List Image) (s : State) : State := arrive (.fwUpdate q l) 0 9 q (perform 9 q (runFwUpdate q l)) s

/-- FW_UPDATE (R477): a set of images into the slot not booted; one that fails leaves the slot invalid. -/
def execFwUpdate (q : Req) (images : List Image) (s : State) : Host.Outcome State Fault Refusal :=
  take (.fwUpdate q images) s (fwUpdateEffect q images)

/-- The valid images of both slots: those of a slot never written are the factory set. -/
def validKeys (s : State) : List Nat :=
  let keys := fun (sl : FwSlot) =>
    if ¬sl.valid then []
    else ((rangeFrom 0 8).filter fun t => slotImageError s sl t = 0).map fun t => imgKey (slotImage sl t)
  keys s.sec.slotA ++ keys s.sec.slotB

/-- The minimum SVNs raised to those of a slot's images. -/
def commitSvns (sl : FwSlot) (s : State) : State :=
  foldState (rangeFrom 0 8) (fun t s => { s with sec := { s.sec with
    minSvn := tabSet 0 s.sec.minSvn t (BitVec.ofNat 6 (Nat.max (minSvn s t) (Nat.min 63 (imgSvn (slotImage sl t))))) } }) s

def runFwActivate (q : Req) (slotB commit : Bool) (revoke : Option Nat) (s : State) : State :=
  let sl := if slotB then s.sec.slotB else s.sec.slotA
  let refused : Bool := match revoke with | none => false | some k => (validKeys s).all fun j => j = k
  if (match revoke with | none => false | some k => decide (4 ≤ k)) = true then answer 10 q .invalid 0 s
  else if refused = true ∨ (slotError s sl).isSome = true then answer 10 q .denied 0 s
  else
    let s := { s with sec := { s.sec with bootB := slotB } }
    let s := if commit then commitSvns sl s else s
    let s := match revoke with
      | none => s
      | some k => { s with sec := { s.sec with revoked := s.sec.revoked ||| BitVec.ofNat 4 (2 ^ k) } }
    answer 10 q .done 0 s

def fwActivateEffect (q : Req) (slotB commit : Bool) (revoke : Option Nat) (s : State) : State :=
  arrive (.fwActivate q slotB commit revoke) 0 10 q (perform 10 q (runFwActivate q slotB commit revoke)) s

/-- FW_ACTIVATE (R477): the slot of the next boot; with COMMIT the minimum SVNs rise; a signing key revoked. -/
def execFwActivate (q : Req) (slotB commit : Bool) (revoke : Option Nat) (s : State) : Host.Outcome State Fault Refusal :=
  take (.fwActivate q slotB commit revoke) s (fwActivateEffect q slotB commit revoke)

/-! ### Life cycle (R491 to R493) -/

/-- The new state in the fuses, and the cold reset that wipes the device (R492). -/
def changeState (lc : BitVec 2) (s : State) : State := beginReset 3 { s with sec := { s.sec with lc := lc } }

def runLifecycle (q : Req) (target : Nat) (s : State) : State :=
  if 3 < target then answer 11 q .invalid 0 s
  else if s.sec.lc = 2 ∧ target = 1 ∧ s.sec.releases ≠ 0 then
    changeState 1 (answer 11 q .done 0 { s with sec := { s.sec with
      ownerKey := none, cert1 := [], releases := s.sec.releases - 1 } })
  else if target = 3 ∧ (s.sec.lc = 1 ∨ s.sec.lc = 2) then changeState 3 (answer 11 q .done 0 { s with sec := { s.sec with identity := none } })
  else answer 11 q .denied 0 s

def lifecycleEffect (q : Req) (target : Nat) (s : State) : State :=
  arrive (.lifecycle q target) 0 11 q (perform 11 q (runLifecycle q target)) s

/-- LIFECYCLE (R491 to R493): to PROVISIONED while releases are left, or to RETURNED; the device goes through a cold reset. -/
def execLifecycle (q : Req) (target : Nat) (s : State) : Host.Outcome State Fault Refusal :=
  take (.lifecycle q target) s (lifecycleEffect q target)

def runReset (q : Req) (s : State) : State := beginReset 2 (answer 12 q .done 0 s)

def resetEffect (q : Req) (s : State) : State := arrive (.reset q) 0 12 q (perform 12 q (runReset q)) s

/-- RESET (R484, R498): a cold reset. -/
def execReset (q : Req) (s : State) : Host.Outcome State Fault Refusal := take (.reset q) s (resetEffect q)

def runOwnerInstall (q : Req) (key : List Byte) (s : State) : State :=
  if key = [] then answer 13 q .invalid 0 s
  else if s.sec.lc ≠ 1 then answer 13 q .denied 0 s
  else changeState 2 (answer 13 q .done 0 { s with sec := { s.sec with ownerKey := some key } })

def ownerInstallEffect (q : Req) (key : List Byte) (s : State) : State :=
  arrive (.ownerInstall q key) 0 13 q (perform 13 q (runOwnerInstall q key)) s

/-- OWNER_INSTALL (R484, R491): the owner's key recorded, the device DEPLOYED. -/
def execOwnerInstall (q : Req) (key : List Byte) (s : State) : Host.Outcome State Fault Refusal :=
  take (.ownerInstall q key) s (ownerInstallEffect q key)

def runCertInstall (q : Req) (chain : List Byte) (ok : Bool) (s : State) : State :=
  if chain = [] ∨ ¬ok then answer 14 q .invalid 0 s
  else answer 14 q .done 0 { s with sec := { s.sec with cert1 := chain } }

def certInstallEffect (q : Req) (chain : List Byte) (ok : Bool) (s : State) : State :=
  arrive (.certInstall q chain ok) 0 14 q (perform 14 q (runCertInstall q chain ok)) s

/-- CERT_INSTALL (R479): certificate slot 1 filled with a chain that ends in a certificate for the identity key. -/
def execCertInstall (q : Req) (chain : List Byte) (keyMatches : Bool) (s : State) : Host.Outcome State Fault Refusal :=
  take (.certInstall q chain keyMatches) s (certInstallEffect q chain keyMatches)

/-! ### BIND_FUNCTION (R488) -/

/-- What refuses a binding: ENC 1, a ring not OFF, or a VALID registration. -/
def bindRefused (s : State) (f : Nat) : Bool :=
  (fnOf s f).enc || (fnOf s f).rings.any (fun e => e.2.state != .off) || (fnOf s f).bufs.any fun e => e.2.valid

/-- The info string of HKDF-Expand for a function's key: "GF9 h2d" or "GF9 d2h" and the function number as two bytes. -/
def keyInfo (toDevice : Bool) (f : Nat) : List Byte :=
  [0x47, 0x46, 0x39, 0x20] ++ (if toDevice then [0x68, 0x32, 0x64] else [0x64, 0x32, 0x68]) ++ natLe 2 f

def runBindFunction (q : Req) (f : Nat) (s : State) : State :=
  let own := decide (f = 0) && ownerSession s q.sess
  let say := fun (st : MgmtStatus) (s : State) => respond { op := 16, seq := q.seq, status := st, result := 0 } own s
  let again : Option Response := if own then s.sec.stored.filter fun r => r.seq = q.seq else none
  match again with
  | some r => respond r true s
  | none =>
    match sessionOf s f q.sess with
    | none => say .denied s
    | some x =>
      if s.sec.lc ≠ 2 ∨ s.sec.recovery = true then say .denied s
      else if q.malformed then say .invalid s
      else if bindRefused s f then say .denied s
      else
        let s := modFn f (fun y => { y with
          enc := true, keyH2d := Config.derive x.secret (keyInfo true f), keyD2h := Config.derive x.secret (keyInfo false f), devCtr := 0 }) s
        let s := { s with sec := { s.sec with sessions := s.sec.sessions.map fun y => if y = x then { y with bound := true } else y } }
        say .done s

def bindFunctionEffect (q : Req) (f : Nat) (s : State) : State := arrive (.bindFunction q f) f 16 q (runBindFunction q f) s

/-- BIND_FUNCTION (R483, R488): a function's keys derived from its session, HIF_DEV_CTR 0, ENC set; in the owner session a repeated SEQ has the
stored response. -/
def execBindFunction (q : Req) (f : Nat) (s : State) : Host.Outcome State Fault Refusal :=
  take (.bindFunction q f) s (bindFunctionEffect q f)

/-! ### Waiting requests and the ends of creation and teardown -/

/-- A request taken from the queue (R483). -/
def runRequest (i : Instr) (s : State) : State :=
  match i with
  | .partCreate q a => perform 1 q (runPartCreate q a) s
  | .partTeardown q p => perform 2 q (runPartTeardown q p) s
  | .partGrow q p c n k ch => perform 3 q (runPartGrow q p c n k ch) s
  | .partShrink q p c => perform 4 q (runPartShrink q p c) s
  | .fnAssign q p a b c d e => perform 5 q (runFnAssign q p a b c d e) s
  | .planeMode q v => perform 6 q (runPlaneMode q v) s
  | .fabricCfg q a => perform 7 q (runFabricCfg q a) s
  | .eccTest q p st c o => perform 8 q (runEccTest q p st c o) s
  | .fwUpdate q l => perform 9 q (runFwUpdate q l) s
  | .fwActivate q b c k => perform 10 q (runFwActivate q b c k) s
  | .lifecycle q t => perform 11 q (runLifecycle q t) s
  | .reset q => perform 12 q (runReset q) s
  | .ownerInstall q k => perform 13 q (runOwnerInstall q k) s
  | .certInstall q c k => perform 14 q (runCertInstall q c k) s
  | .bindFunction q f => runBindFunction q f s
  | _ => s

/-- Waiting requests executed in order, until one stays in progress (R483). -/
def drainQueue : Nat → State → State
  | 0, s => s
  | k + 1, s =>
    if s.sec.openReq.isSome then s
    else match s.sec.queue with
      | [] => s
      | i :: t => drainQueue k (runRequest i { s with sec := { s.sec with queue := t } })

/-- The request in progress answered, and those that wait taken up. -/
def closeAndDrain (p : Nat) (s : State) : State := let s := closeReq p s; drainQueue s.sec.queue.length s

def runtimeReadyEffect (p : Nat) (s : State) : State :=
  let x := partOf s p
  if ¬(running s ∧ x.state = .creating) then notTaken s
  else
    let fs := (if x.pfAttached then [0] else []) ++ rangeFrom x.fnFirst x.fnCount
    let s := foldState fs (fun f s => modFn f (fun y => { y with assigned := true, part := p }) s) s
    let s := { s with sec := { s.sec with epoch := s.sec.epoch + 1 } }
    let e := s.sec.epoch
    closeAndDrain p (modPart p (fun x => { x with state := .active, epoch := e }) s)

/-- The runtime instance reports ready (R359, R497): the partition is ACTIVE, its functions ASSIGNED, SEC_EPOCH one higher. -/
def execRuntimeReady (p : Nat) (s : State) : Host.Outcome State Fault Refusal := take (.runtimeReady p) s (runtimeReadyEffect p)

def teardownCompleteEffect (p : Nat) (s : State) : State :=
  let x := partOf s p
  if ¬(running s ∧ x.state = .teardown ∧ x.leaving.all (fun f => (fnOf s f).state != .disabling)) then notTaken s
  else closeAndDrain p (endTeardown p s)

/-- The wipe and release of a partition are complete (R359, R361): its number may be used again. -/
def execTeardownComplete (p : Nat) (s : State) : Host.Outcome State Fault Refusal :=
  take (.teardownComplete p) s (teardownCompleteEffect p)

end Sys2Proof.Machine
end

