-- ==== Sys2Proof/Machine/Power.lean ====
section
/-!
DEFINITION. Power and energy (R421 to R430), sensors and thresholds (R431 to R434), throttling (R435, R436) and the stops of
R437.
-/
namespace Sys2Proof.Machine

/-! ### Measurement (R421 to R423, R430) -/

/-- The average of some samples in whole watts, as PWR_POWER's fields hold it. -/
def average (l : List Nat) : BitVec 11 :=
  let a := if l = [] then 0 else l.foldl (· + ·) 0 / l.length
  BitVec.ofNat 11 (Nat.min a 2047)

/-- CAP_OVER (R430): source 55 at its first setting in an episode. -/
def updateCapOver (s : State) : State :=
  let above := s.pwr.fixed && decide (s.pwr.cap.toNat < s.pwr.avg10.toNat)
  let s' := { s with pwr := { s.pwr with capOver := above } }
  if above && !s.pwr.capOver then raise 55 s' else s'

def powerSampleEffect (watts : Nat) (s : State) : State :=
  if ¬controllerRuns s then notTaken s
  else
    let l := (watts :: s.pwr.samples).take 100
    updateCapOver { s with pwr := { s.pwr with samples := l, avg1 := average (l.take 10), avg10 := average l } }

/-- A measurement of input power, every 100 µs (R421): the averages over the last 1 ms and 10 ms follow. -/
def execPowerSample (watts : Nat) (s : State) : Host.Outcome State Fault Refusal :=
  take (.powerSample watts) s (powerSampleEffect watts)

def sumOf (l : List Nat) : Nat := l.foldl (· + ·) 0

/-- A job was RUNNING or SUSPENDING at some time of the interval (R423). -/
def ranJob (s : State) (f r : Nat) : Bool :=
  (partOf s (homeOf s f)).ran.contains (f, r) || (ringOf s f r).job = .running || (ringOf s f r).job = .suspending

/-- An apportioning that R422 and R423 allow: partitions that exist, no more than the total; nothing while the whole interval was spent
idle, which IDLE2 and IDLE3 show; rings whose jobs ran in it, no more than their partition's share. -/
def energyOk (s : State) (total : Nat) (parts : List (Nat × Nat)) (rings : List (Nat × Nat × Nat)) : Bool :=
  noDup (parts.map (·.1)) && parts.all (fun e => (partOf s e.1).state != .none)
    && decide (sumOf (parts.map (·.2)) ≤ total)
    && (decide (idleCode s.pwr.idle < 2) || parts.all fun e => e.2 = 0)
    && rings.all (fun e => (fnOf s e.1).assigned && (e.2.2 = 0 || ranJob s e.1 e.2.1))
    && (rings.map (fun e => (fnOf s e.1).part)).eraseDups.all (fun p =>
      decide (sumOf ((rings.filter fun e => (fnOf s e.1).part = p).map (·.2.2)) ≤ sumOf ((parts.filter fun e => e.1 = p).map (·.2))))

/-- Whole µJ that an interval adds: the energy measured, in nJ, with the fraction of a µJ carried from the interval before (R422). -/
def wholeEnergy (s : State) (measured : Nat) : Nat := (s.pwr.energyRest + measured) / 1000

/-- A new interval: only the jobs that run now have run in it. -/
def newInterval (s : State) : State :=
  { s with parts := tabMap {} s.parts fun _ q => { q with
    ran := q.ran.filter fun j => (jobRing s j).job = .running || (jobRing s j).job = .suspending } }

def energyIntervalEffect (measured : Nat) (parts : List (Nat × Nat)) (rings : List (Nat × Nat × Nat)) (s : State) : State :=
  let total := wholeEnergy s measured
  if ¬(controllerRuns s ∧ energyOk s total parts rings) then notTaken s
  else
    let rest := total - sumOf (parts.map (·.2))
    let s := { s with pwr := { s.pwr with
      devEnergy := satAdd 64 s.pwr.devEnergy total, unattrib := satAdd 64 s.pwr.unattrib rest
      energyRest := (s.pwr.energyRest + measured) % 1000 } }
    let s := newInterval (foldState parts (fun e s => modPart e.1 (fun q => { q with energy := satAdd 64 q.energy e.2 }) s) s)
    foldState rings (fun e s => modRing e.1 e.2.1 (fun q => { q with energy := satAdd 64 q.energy e.2.2 }) s) s

/-- The end of a 1 ms interval (R422, R423): its energy is counted for the device, divided among partitions and rings, and the
remainder is unattributed. The measured values are the command's: the input's in nJ, the shares in whole µJ. -/
def execEnergyInterval (total : Nat) (parts : List (Nat × Nat)) (rings : List (Nat × Nat × Nat)) (s : State) :
    Host.Outcome State Fault Refusal :=
  take (.energyInterval total parts rings) s (energyIntervalEffect total parts rings)

/-! ### The control step (R424 to R429) -/

def pwrCtrlWriteEffect (v : W32) (s : State) : State :=
  let cap := bits v.toNat 0 11
  let fixed := v.getLsbD 16
  if ¬hostUp s 0 then notTaken s
  else if cap < 600 ∨ 1600 < cap ∨ (fixed ∧ cap < 1500) ∨ bits v.toNat 11 5 ≠ 0 ∨ bits v.toNat 17 15 ≠ 0 then badAccess 0 s
  else { s with pwr := { s.pwr with capNext := some (BitVec.ofNat 11 cap, fixed) } }

/-- A write of PWR_CTRL (R425): valid, it takes effect at the next control step; otherwise it is discarded and counted. -/
def execPwrCtrlWrite (v : W32) (s : State) : Host.Outcome State Fault Refusal :=
  take (.pwrCtrlWrite v) s (pwrCtrlWriteEffect v)

/-- `n` steps of 24 MHz down, to 120 MHz at least (R426). -/
def clockDown (f n : Nat) : Nat := Nat.max 120 (f - 24 * n)

/-- Both clocks lowered (R426): which die's rails drew more power, and by how many steps each clock goes down, the state does not
show; both are free values, at least one step in all where a clock can fall. -/
def lowerClocks (k : Nat) (x : Power) : Power :=
  let first := k % 2
  let n := 1 + k / 2 % 25
  let m := k / 64 % 26
  let a := if first = 0 ∧ x.freq0 ≠ 120 ∨ x.freq1 = 120 then n else m
  let b := if first = 0 ∧ x.freq0 ≠ 120 ∨ x.freq1 = 120 then m else n
  { x with freq0 := clockDown x.freq0 a, freq1 := clockDown x.freq1 b }

/-- Clocks raised by at most one step each, to `top` at most; whether one is raised is a free value (R426: only when). -/
def raiseClocks (top k : Nat) (x : Power) : Power :=
  let up := fun (f : Nat) (b : Bool) => if b then Nat.max f (Nat.min top (f + 24)) else f
  { x with freq0 := up x.freq0 (bit k 0), freq1 := up x.freq1 (bit k 1) }

/-- The clocks and the gating against a limit (R426, R428). -/
def controlAgainst (limit top k : Nat) (x : Power) : Power :=
  let avg := x.avg1.toNat
  let x := { x with freq0 := Nat.min x.freq0 top, freq1 := Nat.min x.freq1 top }
  if limit < avg then
    if x.freq0 = 120 ∧ x.freq1 = 120 then { x with gating := Nat.min 3 (x.gating + 1) } else lowerClocks k x
  else if 100 * avg ≤ 95 * limit then raiseClocks top k { x with gating := x.gating - 1 }
  else x

def powerControlStepEffect (s : State) : State :=
  if ¬controllerRuns s then notTaken s
  else
    let x := match s.pwr.capNext with
      | none => s.pwr
      | some (c, f) => { s.pwr with cap := c, fixed := f, capNext := none }
    let (k, s) := draw { s with pwr := x }
    let x :=
      if x.fixed then
        match x.tl with
        | none => { x with freq0 := 600, freq1 := 600, gating := 0 }
        | some t => if t < x.avg1.toNat then controlAgainst t 600 k x else { x with freq0 := 600, freq1 := 600, gating := 0 }
      else controlAgainst (effLimit s) (if boostBarred s then 600 else 720) k x
    updateCapOver { s with pwr := x }

/-- The 1 ms control step (R425, R426, R428, R429): PWR_CTRL takes effect, clocks and gating follow the effective limit, and
fixed-frequency mode holds 600 MHz but for thermal protection. -/
def execPowerControlStep (s : State) : Host.Outcome State Fault Refusal := take .powerControlStep s powerControlStepEffect

/-! ### Throttling (R435, R436) -/

/-- Some sensor reads at or above its throttle threshold. -/
def readsHot (s : State) : Bool :=
  sensorNums.any fun n => (sensorOf s n).valid && match margin s n with | none => false | some m => decide (m ≤ 0)

/-- Every sensor reads below its throttle threshold minus 5 °C. -/
def readsClear (s : State) : Bool :=
  sensorNums.all fun n => !(sensorOf s n).valid || match margin s n with | none => true | some m => decide (80 < m)

/-- TL lowered by 75 W, never below 600 W. -/
def lowerTl (t : Nat) : Nat := if t ≤ 600 then t else Nat.max 600 (t - 75)

def throttleStepEffect (s : State) : State :=
  if ¬controllerRuns s then notTaken s
  else if ¬readsHot s then s
  else match s.pwr.tl with
    | some t => { s with pwr := { s.pwr with tl := some (lowerTl t) } }
    | none =>
      let t := Nat.min s.pwr.cap.toNat s.pwr.avg10.toNat
      raise 54 { s with pwr := { s.pwr with tl := some (lowerTl t), throttleEvents := satAdd 32 s.pwr.throttleEvents 1 } }

/-- The 10 ms thermal step (R435): with a reading at or above its throttle threshold TL starts or falls by 75 W. -/
def execThrottleStep (s : State) : Host.Outcome State Fault Refusal := take .throttleStep s throttleStepEffect

def throttleRecoveryEffect (s : State) : State :=
  match s.pwr.tl with
  | none => notTaken s
  | some t =>
    if ¬(controllerRuns s ∧ readsClear s) then notTaken s
    else if s.pwr.cap.toNat ≤ t + 75 then raise 54 { s with pwr := { s.pwr with tl := none } }
    else { s with pwr := { s.pwr with tl := some (t + 75) } }

/-- 100 ms with every sensor clear (R436): TL rises by 75 W, or is removed where it would reach CAP. -/
def execThrottleRecovery (s : State) : Host.Outcome State Fault Refusal := take .throttleRecovery s throttleRecoveryEffect

/-! ### Sensors (R431 to R434, R204) -/

/-- The module's sensors can stop it in every phase but when it is stopped or without power (R437, R440, R502). -/
def sensing (s : State) : Bool := s.rst.phase != .off && s.rst.phase != .stopped

/-- The state that a new reading starts from: a sensor that fails its self-check stays broken, one that read out of range or gave no sample
starts afresh (R433). -/
def sensorOld (x : Sensor) : SensorState := if x.checkFailed then .broken else if x.state = .broken then .normal else x.state

/-- Source 53 when a sensor enters WARNING, and when the last one leaves it (R434). -/
def warnEvent (before : Bool) (old new : SensorState) (s : State) : State :=
  if (old = .normal ∧ new ≠ .normal) ∨ (before ∧ ¬anyWarn s) then raise 53 s else s

/-- The refresh band of a DRAM sensor's stack (R204). -/
def updateBand (n : Nat) (s : State) : State :=
  if sensorClass n ≠ 2 then s
  else
    let st := (n - 36) / 18
    { s with mem := { s.mem with band := tabMod 0 s.mem.band st fun b => bandNext b (hottestDram s st) } }

def sensorSampleEffect (n : Nat) (t : BitVec 16) (s : State) : State :=
  if ¬sensing s then notTaken s
  else
    let x := sensorOf s n
    let new := sensorNext n (sensorOld x) t.toInt
    let before := anyWarn s
    let s := modSensor n (fun x => { x with valid := true, state := new, temp := t, missed := 0 }) s
    let s := updateBand n (if controllerRuns s ∧ sensorClass n ≠ 5 then warnEvent before x.state new s else s)
    if sensorClass n = 5 then s
    else if readingStops n t.toInt ∧ ¬readingBroken t.toInt then moduleStop 1 n s
    else if new = .broken then moduleStop 2 n s
    else s

/-- A sample of sensor n (R431 to R433, R437): its state follows with hysteresis, its stack's refresh band too (R204); at or
above shutdown, or broken, the module stops. -/
def execSensorSample (n : Nat) (t : BitVec 16) (s : State) : Host.Outcome State Fault Refusal :=
  take (.sensorSample n t) s (sensorSampleEffect n t)

/-- A sensor is broken (R433): the module stops, unless it is a coolant sensor. -/
def sensorBroken (n : Nat) (s : State) : State :=
  let s := modSensor n (fun x => { x with state := .broken }) s
  if sensorClass n = 5 then s else moduleStop 2 n s

def sensorSelfCheckEffect (n : Nat) (ok : Bool) (s : State) : State :=
  if s.rst.phase = .off then notTaken s
  else
    let s := modSensor n (fun x => { x with checkFailed := !ok }) s
    if ok then s
    else if sensing s then sensorBroken n s
    else modSensor n (fun x => { x with state := .broken }) s

/-- A sensor's self-check, every 10 ms, while the module is stopped too (R433, R438). -/
def execSensorSelfCheck (n : Nat) (ok : Bool) (s : State) : Host.Outcome State Fault Refusal :=
  take (.sensorSelfCheck n ok) s (sensorSelfCheckEffect n ok)

def sensorStaleTimeoutEffect (n : Nat) (s : State) : State := when (sensing s) s (sensorBroken n s)

/-- A sensor that delivers no sample for 1 ms is broken (R433). -/
def execSensorStaleTimeout (n : Nat) (s : State) : Host.Outcome State Fault Refusal :=
  take (.sensorStaleTimeout n) s (sensorStaleTimeoutEffect n)

/-! ### While stopped (R438, R439) -/

/-- One reading of R438: out of range, or unanswered twice running, the sensor is broken. -/
def pollSensor (e : Nat × Option (BitVec 16)) (s : State) : State :=
  modSensor e.1 (fun x =>
    match e.2 with
    | some t => { x with valid := true, temp := t, state := sensorNext e.1 (sensorOld x) t.toInt, missed := 0 }
    | none => if x.missed = 0 then { x with missed := 1 } else { x with missed := 2, state := .broken }) s

def stoppedSensorPollEffect (l : List (Nat × Option (BitVec 16))) (s : State) : State :=
  when (s.rst.phase = .stopped) s (foldState l pollSensor s)

/-- Nutmeg's reading of the sensors while the module is stopped, every 100 ms (R438). -/
def execStoppedSensorPoll (readings : List (Nat × Option (BitVec 16))) (s : State) :
    Host.Outcome State Fault Refusal :=
  take (.stoppedSensorPoll readings) s (stoppedSensorPollEffect readings)

/-- Every sensor with thresholds reads below 80 °C and is not broken. -/
def coolEnough (s : State) : Bool :=
  sensorNums.all fun n => sensorClass n = 5
    || ((sensorOf s n).valid && (sensorOf s n).state != .broken && decide (tempOf s n < 80 * 16))

def thermalRestartEffect (s : State) : State :=
  if ¬(s.rst.phase = .stopped ∧ coolEnough s ∧ s.thm.coolantOk ∧ s.thm.sdCause ≠ 4) then notTaken s
  else
    let (k, s) := draw s
    if 3 ≤ s.thm.restarts ∧ k % 2 = 1 then { s with thm := { s.thm with sdCause := 4, sdSensor := 0 } }
    else
      let s := powerUp s
      { s with
        thm := { s.thm with restarts := s.thm.restarts + 1, coolQualified := false }
        rst := { s.rst with nextCause := 4 } }

/-- 10 s of cool, unbroken sensors and COOLANT_OK (R438): the module restarts with a cold boot, unless it would be the fourth
within 60 minutes (R439); whether three earlier ones lie within them is a free value (log 20). -/
def execThermalRestart (s : State) : Host.Outcome State Fault Refusal := take .thermalRestart s thermalRestartEffect

/-! ### COOLANT_OK (R437, R500) -/

def coolantOkDeassertEffect (s : State) : State :=
  let s := { s with thm := { s.thm with coolantOk := false, coolQualified := false } }
  if s.rst.poweringUp ∧ (s.rst.phase = .rails ∨ s.rst.phase = .inReset) then
    { s with rst := { s.rst with phase := .waitCoolant, railsGood := false } }
  else s

/-- COOLANT_OK is withdrawn: during steps 3 to 5 of a power-up the sequence returns to step 3 (R500). -/
def execCoolantOkDeassert (s : State) : Host.Outcome State Fault Refusal := take .coolantOkDeassert s coolantOkDeassertEffect

def coolantOkTimeoutEffect (s : State) : State := when (!s.thm.coolantOk && sensing s && !s.rst.poweringUp) s (moduleStop 3 0 s)

/-- COOLANT_OK deasserted for 10 µs: the module stops (R437), unless the power-up waits for it (R500). -/
def execCoolantOkTimeout (s : State) : Host.Outcome State Fault Refusal := take .coolantOkTimeout s coolantOkTimeoutEffect

def coolantOkAssertEffect (s : State) : State := { s with thm := { s.thm with coolantOk := true } }

/-- COOLANT_OK is asserted; its 10 ms begin (R500). -/
def execCoolantOkAssert (s : State) : Host.Outcome State Fault Refusal := take .coolantOkAssert s coolantOkAssertEffect

def coolantOkQualifiedEffect (s : State) : State :=
  when (s.rst.phase = .waitCoolant && s.thm.coolantOk) s
    (setPhase .rails { s with thm := { s.thm with coolQualified := true } })

/-- COOLANT_OK has stood for 10 ms: the regulators bring the rails up (R500). -/
def execCoolantOkQualified (s : State) : Host.Outcome State Fault Refusal := take .coolantOkQualified s coolantOkQualifiedEffect

end Sys2Proof.Machine
end

