-- ==== Sys2Proof/Machine/Recovery.lean ====
section
/-!
DEFINITION. Faults, watchdogs and recovery (R457 to R470): faults that a check detects, hangs, missed heartbeats, the recovery
of a partition's groups, the restart of Sumac, and the alternation of indices that share a core.
-/
namespace Sys2Proof.Machine

/-! ### Detected faults (R457, R460) -/

/-- A word of a stack lost to several wrong bits: what it holds then is a free value, and its syndrome one that R192 takes for an
uncorrectable error. -/
def upsetWord (g off : Nat) (s : State) : State :=
  let (k, s) := draw s
  let x := k % 2 ^ 64
  putRaw g off x (eccCheck x ^^^ 3) s

/-- A hard fault (R196, R200): the word poisoned, its unit retired, recorded. -/
def hardFault (g off : Nat) (s : State) : State :=
  let st := g / 512
  let ps := holdersAt s g off
  let d := hardDetail s g off
  let s := putPoison g off (rawWord s g off).1 s
  let s := { s with mem := { s.mem with
    errLast := tabSet 0 s.mem.errLast st (BitVec.ofNat 64 (3 * 2 ^ 40 + g * 2 ^ 28 + off)) } }
  faultAffects 0x02 (8 + st) g d ps (foldState ps (fun p => loseWord p g off false) (retireAt g off s))

/-- The partition whose far range holds a far address. -/
def farHolder (s : State) (a : Nat) : List Nat :=
  (rangeFrom 0 64).filter fun p =>
    (partOf s p).state != .none && decide ((partOf s p).farBase * 2 ^ 30 ≤ a ∧ a < ((partOf s p).farBase + (partOf s p).farSize) * 2 ^ 30)

/-- A far read that the device reports as failing (R214): its sector is poisoned, the read counted. -/
def farFault (q a : Nat) (s : State) : State :=
  let k := a / 64
  let ps := farHolder s a
  let s := { s with mem := { s.mem with farPoison := tabSet false s.mem.farPoison k true } }
  let s := modFarPort q (fun x => { x with poisonReads := satAdd 16 x.poisonReads 1 }) s
  faultAffects 0x32 (29 + q) q (BitVec.ofNat 64 a) ps (foldState ps (fun p => loseWord p 4096 (k * 64) true) s)

/-- The die of core `n` (R358). -/
def coreDie (n : Nat) : Nat := n / 128

def faultDetectedEffect (i : FaultInfo) (s : State) : State :=
  let u := i.unit
  let d := i.detail
  let die12 := if u < 32 then 26 + u / 16 else 16 + u % 8
  if ¬running s then notTaken s
  else match i.kind with
    | 0x01 => noteWord ((holdersAt s u d.toNat).headD 64) u d.toNat (upsetWord u d.toNat s)
    | 0x02 => hardFault u d.toNat s
    | 0x10 => unitFault (unitCode 0 u) 0x10 (24 + coreDie u) u d (coreParts s u) s
    | 0x11 => unitFault (unitCode 0 u) 0x11 (24 + coreDie u) u d (coreParts s u) s
    | 0x12 =>
      if i.masked then faultSettled 0x12 die12 u d outMasked s
      else if u < 32 then unitFault (unitCode 1 u) 0x12 die12 u d (moverParts s u) s
      else faultAffects 0x12 die12 u d (anyParts s) s
    | 0x13 => unitFault (unitCode 2 u) 0x13 (16 + u / 512) u d (cloveParts s u) s
    | 0x14 =>
      if i.masked then faultSettled 0x14 (16 + u / 512) u d outMasked s
      else
        let t := rebuildEntry d.toNat s
        faultAffects 0x14 (16 + u / 512) u d (if (frameOf t d.toNat).state = .free then [] else [(frameOf t d.toNat).owner]) t
    | 0x15 => faultSettled 0x15 (26 + u) u d outMasked s
    | 0x22 => unitFault (unitCode 3 u) 0x22 51 u d (acParts s u) s
    | 0x32 => farFault u d.toNat s
    | _ => notTaken s

/-- A check detects a fault (R457): its record is written, its source raised, and the groups it affects are to be recovered
(R461). A kind that another command gives rise to is not taken here. -/
def execFaultDetected (i : FaultInfo) (s : State) : Host.Outcome State Fault Refusal :=
  take (.faultDetected i) s (faultDetectedEffect i)

/-! ### Watchdogs (R458) -/

/-- The UNIT of a watchdog's record: kind and number. -/
def hangUnit (kind n : Nat) : Nat := kind * 2 ^ 12 + n

def saffronWatchdogEffect (n : Nat) (s : State) : State :=
  when (running s && coreLive (coreOf s n)) s (unitFault (unitCode 0 n) 0x20 31 (hangUnit 0 n) 0 (coreParts s n) s)

/-- A step of a core overruns its nominal length by 4,096 cycles. -/
def execSaffronWatchdog (n : Nat) (s : State) : Host.Outcome State Fault Refusal :=
  take (.saffronWatchdog n) s (saffronWatchdogEffect n)

def moverWatchdogEffect (m : Nat) (s : State) : State :=
  when (running s && (moverOf s m).state != .deconfigured && moverParts s m != []) s
    (unitFault (unitCode 1 m) 0x20 31 (hangUnit 1 m) 0 (moverParts s m) s)

/-- A mover's request stays unanswered for 50 µs. -/
def execMoverWatchdog (m : Nat) (s : State) : Host.Outcome State Fault Refusal := take (.moverWatchdog m) s (moverWatchdogEffect m)

def stackControllerWatchdogEffect (st : Nat) (s : State) : State :=
  when (running s) s (faultAffects 0x20 31 (hangUnit 3 st) 0 (anyParts s) s)

/-- A stack's read is not returned within 20 µs. -/
def execStackControllerWatchdog (st : Nat) (s : State) : Host.Outcome State Fault Refusal :=
  take (.stackControllerWatchdog st) s (stackControllerWatchdogEffect st)

def cloveHangWatchdogEffect (g : Nat) (s : State) : State :=
  when (running s && (cloveOf s g).forcedPending) s
    (unitFault (unitCode 2 g) 0x20 31 (hangUnit 2 g) 0 (cloveParts s g) s)

/-- A Clove reaches no yield point within 2,400 cycles of a forced yield. -/
def execCloveHangWatchdog (g : Nat) (s : State) : Host.Outcome State Fault Refusal :=
  take (.cloveHangWatchdog g) s (cloveHangWatchdogEffect g)

def heartbeatTimeoutEffect (ac p : Nat) (s : State) : State :=
  when (running s && (partOf s p).state = .active && (partOf s p).acs.contains ac) s
    (unitFault (unitCode 3 ac) 0x21 50 ac (BitVec.ofNat 64 p) (acParts s ac) s)

/-- The heartbeat of a runtime instance is not seen for 500 µs. -/
def execHeartbeatTimeout (ac p : Nat) (s : State) : Host.Outcome State Fault Refusal :=
  take (.heartbeatTimeout ac p) s (heartbeatTimeoutEffect ac p)

/-! ### Recovery (R464, R469) -/

def groupRecoveryEffect (p : Nat) (s : State) : State :=
  let js := (jobsOf s p).filter fun j => (jobRing s j).recover
  when (running s && js != []) s (settleWaits p s (foldState js (recoverJob p) (replaceRetired p s)))

/-- A partition's runtime recovers its affected groups (R464): stopped, restored, run again; or ended where R465 or R466 says. -/
def execGroupRecovery (p : Nat) (s : State) : Host.Outcome State Fault Refusal := take (.groupRecovery p) s (groupRecoveryEffect p)

def sumacLockstepRestartEffect (s : State) : State :=
  when (running s) s
    (faultSettled 0x23 28 0 0 outMasked { s with sec := { s.sec with restarts := satAdd 16 s.sec.restarts 1 } })

/-- Sumac restarts after a lockstep mismatch (R469, R487): everything else goes on, requests that it has not answered stay. -/
def execSumacLockstepRestart (s : State) : Host.Outcome State Fault Refusal :=
  take .sumacLockstepRestart s sumacLockstepRestartEffect

/-! ### Indices that share a core (R466) -/

/-- A core that is put aside: SUSPENDED while its RUN goes on. -/
def asideCore (x : Core) : Core := { x with state := if x.state = .running then .suspended else x.state, held := false }

/-- The running index of core `n` and the first aside one that can run exchange places, with a full save: every sector
of it counts as written when it comes back (R181). -/
def swapCore (p n : Nat) (e : Nat × CoreImage) (s : State) : State :=
  let s0 := s
  let i := ((indicesOn s p n).find? fun i => !(isAside s p i)).getD (coreOf s n).pidx
  let s := stopWait n false s
  let img : CoreImage := { core := { asideCore (coreOf s n) with pidx := i, part := p }, spad := spadOf s n }
  let img := { img with spad := restoredSpad img }
  let s := modSpad n (fun _ => e.2.spad) (modCore n (coreTake e.2.core) (dropAsk (2 * n + 1) s))
  let s := modPart p (fun q => { q with swapped := q.swapped.filter (fun d => d.1 != e.1) ++ [(i, img)] }) s
  settleWaits p s0 (raise (256 + n) (noteStop p false s))

/-- A core with an index aside that can run: nothing stops the core for its job. -/
def swappable (s : State) (p : Nat) (e : Nat × CoreImage) : Option Nat :=
  match physCore s p e.1 with
  | none => none
  | some n =>
    if e.2.core.run ≠ 0 ∧ ¬e.2.core.done ∧ ¬(coreOf s n).suspendReq ∧ (coreOf s n).state ≠ .suspended then some n else none

def coreAlternationTimeoutEffect (p : Nat) (s : State) : State :=
  match (partOf s p).swapped.find? fun e => (swappable s p e).isSome with
  | none => notTaken s
  | some e =>
    match swappable s p e with
    | none => notTaken s
    | some n => when (running s) s (swapCore p n e s)

/-- An orphaned index and the index whose core it shares change places (R466): after 1 ms, or at an unsatisfied WAIT. -/
def execCoreAlternationTimeout (p : Nat) (s : State) : Host.Outcome State Fault Refusal :=
  take (.coreAlternationTimeout p) s (coreAlternationTimeoutEffect p)

end Sys2Proof.Machine
end

