-- ==== Sys2Proof/Machine/RegAccess.lean ====
section
/-!
DEFINITION. Register accesses (R3 to R7): writes of registers without a row of their own, accesses in halves, accesses of a
wrong size, and the two counters that a read clears.
-/
namespace Sys2Proof.Machine

/-- What a write does: its state, or `none` where the register's write is a row of its own. -/
abbrev Written := Option State

/-- The ring registers that may be written only while the ring is OFF (R328). -/
def ringOffWrite (f r : Nat) (g : Ring → Ring) (s : State) : State :=
  if (ringOf s f r).state = .off then modRing f r g s else s

/-- The buffer registers that may be written only while VALID is 0 (R344). -/
def bufFreeWrite (f b : Nat) (g : Buffer → Buffer) (s : State) : State :=
  if (bufOf s f b).valid then s else modBuf f b g s

/-- A write of MSI-X Vector Control: the mask bit set; clearing it is MSIX_UNMASK (R350, R353). -/
def writeVecCtrl (f v x : Nat) (s : State) : Written :=
  if bit x 0 then some (modVec f v (fun q => { q with masked := true }) s) else none

/-- A 32-bit write in the function registers (R327, R384). -/
def fnWrite32 (f off x : Nat) (s : State) : Written :=
  if off = 0x0 then none
  else match blockIx off 0x1000 0x80 16 with
    | some (_, 0x20) => none
    | some (r, 0x24) =>
      some (modRing f r (fun q => { q with time := BitVec.ofNat 10 (bits x 16 10), count := BitVec.ofNat 8 x }) s)
    | some (_, 0x40) => none
    | some _ => some s
    | none =>
      match blockIx off 0x2000 0x20 256 with
      | some (_, 0x18) => none
      | some _ => some s
      | none =>
        match blockIx off 0x4000 0x10 17 with
        | some (v, 8) => some (modVec f v (fun q => { q with data := BitVec.ofNat 32 x }) s)
        | some (v, 12) => writeVecCtrl f v x s
        | _ => some s

/-- Raw-access registers of a stack may be written while its window is open and no raw access runs (R198). -/
def eccWrite (st : Nat) (g : EccTest → EccTest) (s : State) : State :=
  if (eccOf s st).en ∧ ¬(eccOf s st).busy then modEcc st g s else s

/-- A 32-bit write in the device blocks of PF BAR0 (R209, R287, R443, R496, R517); the event controller shows its
registers there read-only (R455). -/
def pfWrite32 (off x : Nat) (s : State) : Written :=
  if off = 0x02500000 ∨ off = 0x02500040 ∨ off = 0x02A10000 ∨ off = 0x02A10004 then none
  else if off = 0x01600008 then some { s with kvt := { s.kvt with sel := BitVec.ofNat 24 x } }
  else if off = 0x02900008 then some { s with rst := { s.rst with sscPending := BitVec.ofNat 6 (bits x 16 6) } }
  else if off = 0x02A10010 then some { s with rst := { s.rst with gpioOut := BitVec.ofNat 8 x } }
  else if off = 0x02A10018 then some { s with rst := { s.rst with gpioOe := BitVec.ofNat 8 x } }
  else match blockIx off 0x01430000 0x40 8 with
    | some (st, 0x08) => some (eccWrite st (fun e => { e with addr := BitVec.ofNat 18 x }) s)
    | some (st, 0x18) => some (eccWrite st (fun e => { e with check := BitVec.ofNat 8 x }) s)
    | some (_, 0x1C) => if x % 4 = 0 then some s else none
    | _ => some s

def write32 (f off x : Nat) (s : State) : Written :=
  if f = 0 ∧ 0x10000 ≤ off then pfWrite32 off x s else fnWrite32 f off x s

/-- A 64-bit write (R327, R344, R209); read-only registers ignore it. -/
def write64 (f off x : Nat) (s : State) : State :=
  let page := BitVec.ofNat 64 (x / 4096 * 4096)
  if f = 0 ∧ 0x10000 ≤ off then
    match blockIx off 0x01430000 0x40 8 with
    | some (st, 0x10) => eccWrite st (fun e => { e with data := BitVec.ofNat 64 x }) s
    | _ => s
  else match blockIx off 0x1000 0x80 16 with
    | some (r, 0x00) => ringOffWrite f r (fun q => { q with sqBase := page }) s
    | some (r, 0x08) => ringOffWrite f r (fun q => { q with cqBase := page }) s
    | some (r, 0x10) => ringOffWrite f r (fun q => { q with sqTag := page }) s
    | some (r, 0x18) => ringOffWrite f r (fun q => { q with cqTag := page }) s
    | some _ => s
    | none =>
      match blockIx off 0x2000 0x20 256 with
      | some (b, 0x00) => bufFreeWrite f b (fun q => { q with addr := page }) s
      | some (b, 0x08) => bufFreeWrite f b (fun q => { q with len := BitVec.ofNat 64 x }) s
      | some (b, 0x10) => bufFreeWrite f b (fun q => { q with sealAt := BitVec.ofNat 64 (x / 64 * 64) }) s
      | some _ => s
      | none =>
        match blockIx off 0x4000 0x10 17 with
        | some (v, 0) => modVec f v (fun q => { q with addr := BitVec.ofNat 64 (x / 4 * 4) }) s
        | _ => s

/-- The key of a 64-bit register's latch and write buffer (R4). -/
def halfKey (f off : Nat) : Nat := f * 2 ^ 32 + off

def setWbuf (f off : Nat) (v : Option W32) (s : State) : State :=
  { s with hif := { s.hif with wbuf := tabSet none s.hif.wbuf (halfKey f off) v } }
def setLatch (f off : Nat) (v : Option W32) (s : State) : State :=
  { s with hif := { s.hif with latch := tabSet none s.hif.latch (halfKey f off) v } }

/-- The hold-off timer of group `k` in the claim table (R511, R514, R516): the first HOLD that Sumac writes other than 0 claims it, for itself
or for the partition whose runtime asked, and a 0 releases it (log 165). -/
def holdTimer (k x : Nat) (s : State) : State :=
  let c := claimOf s (0x40 + k)
  if c.owner = 0 ∧ x % 2 ^ 10 ≠ 0 then setClaim (0x40 + k) { func := 0, owner := 2 } s
  else if c.owner = 2 ∧ x % 2 ^ 10 = 0 then setClaim (0x40 + k) {} s
  else s

/-- Sumac's writes of the event controller's other registers (R447, R449, R453, R455): at offsets of that block. -/
def sumacWrite32 (off x : Nat) (s : State) : Written :=
  match arrayIx off 0x400 4 64, arrayIx off 0x500 4 64, arrayIx off 0x1000 4 2048 with
  | some k, _, _ => some (modGroup k (fun g => { g with wake := BitVec.ofNat 32 x }) s)
  | _, some k, _ => some (if k < 2 then s else holdTimer k x (modGroup k (fun g => { g with hold := BitVec.ofNat 10 x }) s))
  | _, _, some k => some (if x % 64 ≤ 32 then setEvRoute k (x % 64) s else s)
  | _, _, _ => if off < 0x400 ∨ blockIx off 0x4000 0x20 33 ≠ none then none else some s

/-- The sender of a register write that is Sumac, beside the functions (R455). -/
def sumacSender : Nat := 1026

def registerWriteEffect (f off width : Nat) (v : W64) (s : State) : State :=
  if f = sumacSender then
    (if width = 32 ∧ running s then (sumacWrite32 off v.toNat s).getD (notTaken s) else notTaken s)
  else if ¬hostUp s f then notTaken s
  else if width = 64 then
    match reg64 s f off with
    | some _ => setWbuf f off none (write64 f off v.toNat s)
    | none => if (reg32 s f off).isSome then badAccess f s else s
  else match reg32 s f off with
    | some _ => (write32 f off (v.toNat % 2 ^ 32) s).getD (notTaken s)
    | none => if (reg64 s f (off - off % 8)).isSome then notTaken s else s

/-- A write to a register without a row of its own (R5, R7): RW fields take the value, reserved bits and offsets
ignore it, a 64-bit access to a 32-bit register is counted (R3). -/
def execRegisterWrite (f off width : Nat) (v : W64) (s : State) : Host.Outcome State Fault Refusal :=
  take (.registerWrite f off width v) s (registerWriteEffect f off width v)

/-- An access of another size or alignment than its register's (R3); at a reserved offset an aligned 32-bit or 64-bit
access is none (R7). -/
def badSize (s : State) (f bar off size : Nat) : Bool :=
  if (size = 4 ∨ size = 8) ∧ off % size = 0 then
    size = 8 && (if bar = 0 then (reg64 s f off).isNone && (reg32 s f off).isSome else off % 0x1000 ≤ 8 && off < 0x10000)
  else true

def badSizeEffect (f bar off size : Nat) (s : State) : State :=
  when (hostUp s f && badSize s f bar off size) s (setReply (.data 0) (badAccess f s))

/-- An access of the wrong size or alignment (R3): a read returns 0, a write is ignored, and it is counted. -/
def execBadSizeAccess (f bar off size : Nat) (s : State) : Host.Outcome State Fault Refusal :=
  take (.badSizeAccess f bar off size) s (badSizeEffect f bar off size)

/-- PWR_IDLE_RES of the idle state that the device is in counts while it stands (R443): its time is noted before it is read. -/
def noteResidency (f off : Nat) (s : State) : State :=
  if f = 0 ∧ off = 0x02500048 + 8 * (idleCode s.pwr.idle - 1) then noteIdle s else s

def halfReadLowEffect (f : Nat) (off : ReadAt) (s : State) : State :=
  if ¬hostUp s f then notTaken s
  else
    let s := noteResidency f off.at_ s
    match reg64 s f off.at_ with
    | some v =>
      if off.whole then setReply (.data v) (setLatch f off.at_ none s)
      else setReply (.data (v % 2 ^ 32)) (setLatch f off.at_ (some (BitVec.ofNat 32 (v / 2 ^ 32))) s)
    | none => if (reg32 s f off.at_).isSome then notTaken s else setReply (.data 0) s

/-- A read at the 64-bit register at `off` (R4): 32 bits of its low half, or all 64 bits, which makes the latch invalid. -/
def execHalfReadLow (f : Nat) (off : ReadAt) (s : State) : Host.Outcome State Fault Refusal :=
  take (.halfReadLow f off) s (halfReadLowEffect f off)

def halfReadHighEffect (f off : Nat) (s : State) : State :=
  if ¬hostUp s f then notTaken s
  else match reg64 s f off with
    | some v =>
      match tabGet none s.hif.latch (halfKey f off) with
      | some h => setReply (.data h.toNat) (setLatch f off none s)
      | none => setReply (.data (v / 2 ^ 32 % 2 ^ 32)) s
    | none => if (reg32 s f (off + 4)).isSome then notTaken s else setReply (.data 0) s

/-- A 32-bit read of the high half of the 64-bit register at `off` (R4). -/
def execHalfReadHigh (f off : Nat) (s : State) : Host.Outcome State Fault Refusal :=
  take (.halfReadHigh f off) s (halfReadHighEffect f off)

def halfWriteLowEffect (f off : Nat) (v : W32) (s : State) : State :=
  if ¬hostUp s f then notTaken s
  else match reg64 s f off with
    | some _ => setWbuf f off (some v) s
    | none => if (reg32 s f off).isSome then notTaken s else s

/-- A 32-bit write of the low half: held, with no other effect (R4). -/
def execHalfWriteLow (f off : Nat) (v : W32) (s : State) : Host.Outcome State Fault Refusal :=
  take (.halfWriteLow f off v) s (halfWriteLowEffect f off v)

def halfWriteHighEffect (f off : Nat) (v : W32) (s : State) : State :=
  if ¬hostUp s f then notTaken s
  else match reg64 s f off with
    | some x =>
      let lo := match tabGet none s.hif.wbuf (halfKey f off) with | some w => w.toNat | none => x % 2 ^ 32
      setWbuf f off none (write64 f off (v.toNat * 2 ^ 32 + lo) s)
    | none => if (reg32 s f (off + 4)).isSome then notTaken s else s

/-- A 32-bit write of the high half: one 64-bit write with the buffered or present low half (R4). -/
def execHalfWriteHigh (f off : Nat) (v : W32) (s : State) : Host.Outcome State Fault Refusal :=
  take (.halfWriteHigh f off v) s (halfWriteHighEffect f off v)

def readDroppedDbEffect (f : Nat) (s : State) : State :=
  when (hostUp s f) s (setReply (.data (fnOf s f).droppedDb.toNat) (modFn f (fun x => { x with droppedDb := 0 }) s))

/-- A read of HIF_VF_DROPPED_DB returns the count and clears it (R5, R6). -/
def execReadDroppedDb (f : Nat) (s : State) : Host.Outcome State Fault Refusal :=
  take (.readDroppedDb f) s (readDroppedDbEffect f)

def readBadAccessEffect (f : Nat) (s : State) : State :=
  when (hostUp s f) s (setReply (.data (fnOf s f).badAccess.toNat) (modFn f (fun x => { x with badAccess := 0 }) s))

/-- A read of HIF_BAD_ACCESS returns the count and clears it (R5, R6). -/
def execReadBadAccess (f : Nat) (s : State) : Host.Outcome State Fault Refusal :=
  take (.readBadAccess f) s (readBadAccessEffect f)

end Sys2Proof.Machine
end

