-- ==== Sys2Proof/Machine/Reset.lean ====
section
/-!
DEFINITION. Power-up, reset and boot (R475, R498 to R502, R523), reference clocks (R505), the host port before the PF is ready
(R501), and the idle states (R440 to R442, R453, R508).
-/
namespace Sys2Proof.Machine

/-! ### Power-up (R500, R523) -/

/-- A sensor read at power-up (R500): at or above shutdown, or broken, it stops the module. -/
def powerUpBad (e : Nat × Option (BitVec 16)) : Option (Nat × Nat) :=
  if sensorClass e.1 = 5 then none
  else match e.2 with
    | none => some (2, e.1)
    | some t => if readingBroken t.toInt then some (2, e.1) else if readingStops e.1 t.toInt then some (1, e.1) else none

/-- Nutmeg's reading of one sensor at power-up. -/
def readAtPowerUp (e : Nat × Option (BitVec 16)) (s : State) : State :=
  modSensor e.1 (fun x => match e.2 with
    | some t => { x with valid := true, temp := t, state := sensorNext e.1 .normal t.toInt }
    | none => { x with state := .broken }) s

def powerOnEffect (straps : BitVec 5) (l : List (Nat × Option (BitVec 16))) (s : State) : State :=
  if s.rst.phase ≠ .off then notTaken s
  else
    let s := coldState s
    let s := { s with
      thm := { s.thm with sensors := [], coolQualified := false }
      rst := { s.rst with phase := .waitCoolant, nextCause := 0, straps := straps, inputLost := false, railsGood := false
                          poweringUp := true } }
    let s := foldState l readAtPowerUp s
    if s.thm.sdCause = 4 then { s with rst := { s.rst with phase := .stopped, poweringUp := false } }
    else match l.findSome? powerUpBad with
    | some (cause, n) => moduleStop cause n s
    | none => s

/-- The 48 V input reaches 40 V (R500, R523): Nutmeg samples the straps, reads the sensors and waits for COOLANT_OK. A module that has used
up its restarts stays stopped until the input has been absent for 1 s (R439). -/
def execPowerOn (straps : BitVec 5) (readings : List (Nat × Option (BitVec 16))) (s : State) :
    Host.Outcome State Fault Refusal :=
  take (.powerOn straps readings) s (powerOnEffect straps readings)

def undervoltageStopEffect (s : State) : State :=
  if s.rst.phase = .off then notTaken s
  else
    let s := coldState s
    { s with
      sec := { s.sec with hubKey := none }
      rst := { s.rst with phase := .off, inputLost := true, railsGood := false, poweringUp := false } }

/-- The input stays below 38 V for 50 µs (R523): the regulators go off; THM_SHUTDOWN does not record it. -/
def execUndervoltageStop (s : State) : Host.Outcome State Fault Refusal := take .undervoltageStop s undervoltageStopEffect

def powerLossClearEffect (s : State) : State :=
  when (s.rst.phase = .off) s
    { s with
      thm := { s.thm with sensors := [], sdCause := 0, sdSensor := 0, sdCount := 0, restarts := 0 }
      rst := { s.rst with cause := 0, count := 0, nextCause := 0, sscPending := 0x3F, sscActive := 0x3F } }

/-- The input has been absent for 1 s: the Nutmeg registers and the restart count are cleared (R439, R499). -/
def execPowerLossClear (s : State) : Host.Outcome State Fault Refusal := take .powerLossClear s powerLossClearEffect

def railsGoodEffect (s : State) : State :=
  when (s.rst.phase = .rails) s { s with rst := { s.rst with phase := .inReset, railsGood := true } }

/-- Every rail is within tolerance and every PLL locked (R500): reset may be released. -/
def execRailsGood (s : State) : Host.Outcome State Fault Refusal := take .railsGood s railsGoodEffect

/-! ### Reset and boot (R475, R498, R499, R501, R515) -/

def perstAssertEffect (second : Bool) (s : State) : State :=
  if second then { s with rst := { s.rst with perst1 := true } }
  else beginReset 1 { s with rst := { s.rst with perst := true } }

/-- PERST# is asserted: a cold reset begins (R498). PERST1# resets the second host link alone: its functions take no traffic while it is
asserted (R324, R501, log 91). -/
def execPerstAssert (second : Bool) (s : State) : Host.Outcome State Fault Refusal :=
  take (.perstAssert second) s (perstAssertEffect second)

def perstDeassertEffect (second : Bool) (s : State) : State :=
  { s with rst := if second then { s.rst with perst1 := false } else { s.rst with perst := false } }

/-- PERST# is deasserted; reset release may follow (R501). -/
def execPerstDeassert (second : Bool) (s : State) : Host.Outcome State Fault Refusal :=
  take (.perstDeassert second) s (perstDeassertEffect second)

def resetReleaseEffect (straps : BitVec 5) (s : State) : State :=
  if ¬(s.rst.phase = .inReset ∧ s.rst.railsGood ∧ ¬s.rst.perst) then notTaken s
  else
    let s := coldState s
    let c := s.rst.nextCause
    { s with
      thm := { s.thm with sensors := [] }
      rst := { phase := .booting, cause := c, count := if c = 0 then s.rst.count else satAdd 8 s.rst.count 1
               straps := straps, sscPending := s.rst.sscPending, sscActive := s.rst.sscPending
               perst := s.rst.perst, perst1 := s.rst.perst1, railsGood := true, claims := strapClaims straps
               pinIn := s.rst.pinIn } }

/-- Reset is released (R499 to R503, R506, R513, R515): every register at its reset value, the straps sampled, strap claims and
Sumac's permanent timers in the claim table; boot begins. -/
def execResetRelease (straps : BitVec 5) (s : State) : Host.Outcome State Fault Refusal :=
  take (.resetRelease straps) s (resetReleaseEffect straps)

/-- A far port enumerated (R210, R217): what device it holds, its capacity and width, the state does not show; they are free
values. -/
def enumerateFar (q : Nat) (s : State) : State :=
  if q = 1 ∧ far1Host s then s
  else
    let (a, s) := draw s
    let (b, s) := draw s
    if a % 2 = 0 ∨ (s.thm.refMissing.contains (q + 1)) then s
    else modFarPort q (fun x => { x with link := true, present := true, capacity := 1 + b % 4096, width := 1 + a / 2 % 2 }) s

/-- The interleave choice (R211): two devices of equal capacity. -/
def chooseInterleave (s : State) : State :=
  let x := farPortOf s 0
  let y := farPortOf s 1
  { s with mem := { s.mem with interleave := x.present && y.present && x.capacity = y.capacity } }

/-- The retirement record applied (R203, R475). -/
def applyRetired (s : State) : State :=
  foldState s.mem.retired (fun u s =>
    match u with
    | .frame n => modFrame n (fun y => { y with retired := true }) s
    | .chunk k => if planeLocal s k then retireFrames k s else s) s

/-- Sumac claims the modes of the far ports (R210, R511, R515). -/
def claimFarModes (s : State) : State :=
  let s := setClaim 0xC0 ⟨0, 2, 0⟩ s
  if far1Host s then s else setClaim 0xC1 ⟨0, 2, 0⟩ s

def pfReadyEffect (s : State) : State :=
  if s.rst.phase ≠ .booting then notTaken s
  else
    let s := applyRetired (claimFarModes (bootImages s))
    let s := chooseInterleave (enumerateFar 1 (enumerateFar 0 s))
    { s with
      kvt := { s.kvt with ready := !s.sec.recovery }
      sec := { s.sec with pfReady := true, wipeDone := true, wipePercent := 100, hubKey := some Config.hubKey }
      rst := { s.rst with phase := .running }
      reply := if hostLink s 0 then .deviceReady else s.reply }

/-- Boot ends (R475, R476, R494, R501): images checked, the wipe done, the retirement record applied, far ports enumerated; the PF takes
traffic and its port sends a Device Readiness Status message. -/
def execPfReady (s : State) : Host.Outcome State Fault Refusal := take .pfReady s pfReadyEffect

/-- The port answers before the PF is ready (R501): from the deassertion of its reset, where release waits for the rails too. -/
def answersRetry (s : State) (f : Nat) : Bool :=
  hostLink s f && match s.rst.phase with
    | .waitCoolant => true | .rails => true | .inReset => true | .booting => true | _ => false

def configurationRequestEffect (f : Nat) (d3hot : Option Bool) (s : State) : State :=
  if answersRetry s f then setReply .retryStatus s
  else if ¬hostUp s f then notTaken s
  else match d3hot with
    | some b => if f = 0 then { s with pwr := { s.pwr with d3hot := b } } else s
    | none => s

/-- A configuration request at the host port (R501): Request Retry Status until the PF is ready, then served; a write of the PF's
power state is the one the device's idle states depend on (R440). -/
def execConfigurationRequest (f : Nat) (d3hot : Option Bool) (s : State) : Host.Outcome State Fault Refusal :=
  take (.configurationRequest f d3hot) s (configurationRequestEffect f d3hot)

/-! ### Reference clocks (R505, R525) -/

/-- A far port without its reference stays down (R505); a link that was up goes down with it, as its record and source 29 + q
say (R215, R446). -/
def stopFar (q : Nat) (s : State) : State :=
  let s := if farUp s q && !(farPortOf s q).retraining then
      faultSettled 0x32 (29 + q) q 0 outNoEffect (modFarPort q (fun x => { x with record := some s.evc.flogCount }) s)
    else settleFarRecord q outNoEffect s
  modFarPort q (fun x => { x with retraining := false, dead := true, link := false, width := 0 }) s

/-- The Stawa ports without their reference: each that is up loses its lanes and fails (R388, R505). -/
def stopPorts (s : State) : State :=
  foldState ((rangeFrom 0 8).filter fun pt => (portOf s pt).state != .down && (portOf s pt).state != .failed) portFailed s

def referenceClockLossEffect (input : Nat) (s : State) : State :=
  let s := { s with thm := { s.thm with refMissing := input :: s.thm.refMissing.filter fun k => k != input } }
  match input with
  | 0 => s
  | 1 => if (farPortOf s 0).present then stopFar 0 s else s
  | 2 => if (farPortOf s 1).present ∧ ¬far1Host s then stopFar 1 s else s
  | _ => stopPorts s

/-- A reference clock goes missing (R505): input 0 PCIe, 1 and 2 the far ports, 3 the fabric; the port it serves is stopped and
the rest runs. -/
def execReferenceClockLoss (input : Nat) (s : State) : Host.Outcome State Fault Refusal :=
  take (.referenceClockLoss input) s (referenceClockLossEffect input)

/-! ### Idle states (R440 to R442) -/

def idleStateEntryEffect (s : State) : State :=
  let n := idleCode s.pwr.idle + 1
  if ¬(running s ∧ deviceIdle s ∧ n ≤ permitted s) then notTaken s
  else if n = 4 then
    let s := setPhase .hibernate (coldState s)
    { s with sec := { s.sec with hubKey := none }, rst := { s.rst with nextCause := 5, railsGood := false } }
  else if n = 1 then { s with pwr := { s.pwr with idle := .idle1 } }
  else leaveIdle (idleOf n) s

/-- An idle device enters the next idle state that is permitted (R440, R441); in HIBERNATE only Nutmeg is powered. -/
def execIdleStateEntry (s : State) : Host.Outcome State Fault Refusal := take .idleStateEntry s idleStateEntryEffect

/-- The wake subset holds source k, pending and unmasked (R453). -/
def wakes (s : State) (k : Nat) : Bool :=
  let g := groupOf s (k / 32)
  g.wake.getLsbD (k % 32) && g.pend.getLsbD (k % 32) && !g.mask.getLsbD (k % 32)

/-- Host link activity while idle raises source 62 (R446). -/
def hostWake (w : WakeCause) (s : State) : State :=
  match w with
  | .doorbell => raise 62 s
  | .barWrite => raise 62 s
  | _ => s

def wakeAllowed (s : State) : WakeCause → Bool
  | .flit => s.pwr.idle = .idle1 || s.pwr.idle = .idle2
  | .source k => wakes s k
  | _ => true

/-- Out of HIBERNATE (R442, R453): by the host link or by sources 62 and 63. -/
def hibernateWake (s : State) : WakeCause → Bool
  | .flit => false
  | .source k => (k = 62 || k = 63) && (groupOf s 1).pend.getLsbD (k % 32)
  | _ => true

def idleWakeEffect (w : WakeCause) (s : State) : State :=
  if s.rst.phase = .hibernate then
    when (hibernateWake s w) s (beginReset 5 s)
  else when (running s && s.pwr.idle != .active && wakeAllowed s w) s (hostWake w (leaveIdle .active s))

/-- An idle state ends (R442, R453); leaving HIBERNATE is a cold boot. -/
def execIdleWake (w : WakeCause) (s : State) : Host.Outcome State Fault Refusal := take (.idleWake w) s (idleWakeEffect w)

def pwrIdleCtrlWriteEffect (v : W32) (s : State) : State :=
  if ¬hostUp s 0 then notTaken s
  else
    settleIdle { s with pwr := { s.pwr with latency := v } }

/-- A write of PWR_IDLE_CTRL (R441): a state now too deep is left for the permitted one at once. -/
def execPwrIdleCtrlWrite (v : W32) (s : State) : Host.Outcome State Fault Refusal :=
  take (.pwrIdleCtrlWrite v) s (pwrIdleCtrlWriteEffect v)

def wakeInAssertEffect (s : State) : State :=
  let c := claimOf s 2
  when ((controllerRuns s || s.rst.phase = .hibernate) && c.owner != 0 && c.func = 3) s (raise 63 s)

/-- WAKE_IN held low for 1 µs (R508): source 63. -/
def execWakeInAssert (s : State) : Host.Outcome State Fault Refusal := take .wakeInAssert s wakeInAssertEffect

end Sys2Proof.Machine
end

