-- ==== Sys2Proof/Machine/Spdm.lean ====
section
/-!
DEFINITION. SPDM requests on the DOE of a function (R479 to R481, R489): negotiation, certificates, measurements and sessions. The
bytes of an answer that R480 and R481 do not define are uninterpreted (log 15); the byte order of a block is the model's (log 27).
-/
namespace Sys2Proof.Machine

def doeOf (s : State) (f : Nat) : Doe := tabGet {} s.sec.does f
def setDoe (f : Nat) (d : Doe) (s : State) : State := { s with sec := { s.sec with does := tabSet {} s.sec.does f d } }

/-- An answer, or the SPDM error of a request that comes out of order or asks for what is absent. -/
def spdmAnswer (b : List Byte) (s : State) : State := setReply (.spdm b) s
def spdmError (s : State) : State := setReply .spdmError s

/-- A request on a DOE that must have reached a stage of negotiation. -/
def onDoe (f : Nat) (stage : Doe → Bool) (go : State → State) (s : State) : State :=
  if ¬hostUp s f then notTaken s else if stage (doeOf s f) then go s else spdmError s

/-! ### Negotiation (R480) -/

def getVersionEffect (f : Nat) (s : State) : State :=
  onDoe f (fun _ => true) (fun s => spdmAnswer (Config.spdmBytes 0 []) (setDoe f { version := true } s)) s

/-- GET_VERSION (R480): SPDM 1.3; negotiation begins again. -/
def execGetVersion (f : Nat) (s : State) : Host.Outcome State Fault Refusal := take (.getVersion f) s (getVersionEffect f)

def getCapabilitiesEffect (f : Nat) (s : State) : State :=
  onDoe f (·.version) (fun s => spdmAnswer (Config.spdmBytes 1 []) (setDoe f { version := true, caps := true } s)) s

/-- GET_CAPABILITIES (R480), after GET_VERSION. -/
def execGetCapabilities (f : Nat) (s : State) : Host.Outcome State Fault Refusal :=
  take (.getCapabilities f) s (getCapabilitiesEffect f)

def negotiateAlgorithmsEffect (f : Nat) (offered : List Byte) (s : State) : State :=
  onDoe f (fun d => d.caps && Config.offersAlgorithms offered) (fun s =>
    spdmAnswer (Config.spdmBytes 2 offered) (setDoe f { version := true, caps := true, algs := true } s)) s

/-- NEGOTIATE_ALGORITHMS (R480), after GET_CAPABILITIES, with a requester that offers the algorithms of R480. -/
def execNegotiateAlgorithms (f : Nat) (offered : List Byte) (s : State) : Host.Outcome State Fault Refusal :=
  take (.negotiateAlgorithms f offered) s (negotiateAlgorithmsEffect f offered)

/-! ### Certificates (R479, R491) -/

/-- The chain of a certificate slot: slot 0, which binds the identity key to SEC_SERIAL, in PROVISIONED and DEPLOYED, slot 1 in DEPLOYED once installed. -/
def certChain (s : State) (slot : Nat) : Option (List Byte) :=
  if slot = 0 ∧ (s.sec.lc = 1 ∨ s.sec.lc = 2) then s.sec.identity.map fun k => Config.spdmBytes 3 (natLe 8 s.sec.serial.toNat ++ natLe 8 k)
  else if slot = 1 ∧ s.sec.lc = 2 ∧ s.sec.cert1 ≠ [] then some s.sec.cert1
  else none

/-- SHA-512 as 64 bytes. -/
def digest (b : List Byte) : List Byte := natLe 64 (Config.sha512 b)

def getDigestsEffect (f : Nat) (s : State) : State :=
  onDoe f (·.algs) (fun s => match certChain s 0 with
    | none => spdmError s
    | some c => spdmAnswer (digest c ++ match certChain s 1 with | none => [] | some d => digest d) s) s

/-- GET_DIGESTS (R479): the digests of the slots that hold a chain. -/
def execGetDigests (f : Nat) (s : State) : Host.Outcome State Fault Refusal := take (.getDigests f) s (getDigestsEffect f)

def getCertificateEffect (f slot off len : Nat) (s : State) : State :=
  onDoe f (·.algs) (fun s => match certChain s slot with
    | none => spdmError s
    | some c => spdmAnswer ((c.drop off).take len) s) s

/-- GET_CERTIFICATE (R479): part of the chain of a slot. -/
def execGetCertificate (f slot off len : Nat) (s : State) : Host.Outcome State Fault Refusal :=
  take (.getCertificate f slot off len) s (getCertificateEffect f slot off len)

/-! ### Measurements (R481, R491) -/

/-- The partition that block 16 describes: that of the function that asks. -/
def measuredPart (s : State) (f : Nat) : Option Nat := if (fnOf s f).assigned then some (fnOf s f).part else none

/-- Block 16. -/
def partBlock (s : State) (p : Nat) : List Byte :=
  let q := partOf s p
  let fs := fnsOf s p
  natLe 1 p ++ natLe 8 q.epoch.toNat ++ natLe 8 q.cores.toNat ++ natLe 4 q.ctCount ++ natLe 4 q.farSize ++ natLe 2 q.domain
    ++ natLe 2 fs.length ++ fs.flatMap (natLe 2) ++ natLe 4 q.semQuota ++ natLe 4 q.kvQuota ++ natLe 4 q.slotQuota
    ++ natLe 2 q.share ++ natLe 1 s.clv.stackMode.toNat

/-- STW_DEVICE as block 11 reports it. -/
def stwDevice (s : State) : Nat := b01 s.stw.devValid * 2 ^ 16 + s.stw.devId.toNat

/-- A measurement block; none where it is absent or the life-cycle state does not report it. -/
def measureBlock (s : State) (f i : Nat) : Option (List Byte) :=
  if s.sec.lc = 0 ∨ (s.sec.lc = 3 ∧ i ≠ 9) then none
  else if 1 ≤ i ∧ i ≤ 8 then
    some (if s.sec.recovery then Config.spdmBytes 4 (natLe 1 i) else digest (slotImage (bootedSlot s) (i - 1)).bytes)
  else match i with
  | 9 => some (natLe 1 s.sec.lc.toNat ++ (rangeFrom 0 8).flatMap (fun t => natLe 1 (minSvn s t)) ++ natLe 1 s.sec.revoked.toNat
      ++ natLe 8 s.sec.serial.toNat)
  | 10 => some (match s.sec.ownerKey with | none => natLe 64 0 | some k => digest k)
  | 11 => some (natLe 1 s.rst.straps.toNat ++ natLe 8 s.mem.planeMode.toNat ++ natLe 1 s.clv.stackMode.toNat ++ natLe 4 (stwDevice s))
  | 12 => some (natLe 1 (b01 s.sec.bootSlotB) ++ natLe 1 (b01 s.sec.fallback))
  | 16 => if s.sec.lc = 2 then (measuredPart s f).map (partBlock s) else none
  | _ => none

/-- The indices that have a block. -/
def measureIxs (s : State) (f : Nat) : List Nat :=
  (rangeFrom 1 12 ++ [16]).filter fun i => (measureBlock s f i).isSome

/-- What a GET_MEASUREMENTS answers before its signature: 0 asks how many blocks there are, 0xFF for all of them. -/
def measured (s : State) (f i : Nat) : Option (List Byte) :=
  if i = 0 then some (natLe 1 (measureIxs s f).length)
  else if i = 0xFF then some ((measureIxs s f).flatMap fun i => (measureBlock s f i).getD [])
  else measureBlock s f i

def getMeasurementsEffect (f i : Nat) (nonce : List Byte) (s : State) : State :=
  onDoe f (·.algs) (fun s => match measured s f i with
    | none => spdmError s
    | some b => spdmAnswer (b ++ Config.spdmBytes 5 (b ++ nonce)) s) s

/-- GET_MEASUREMENTS (R481): the blocks of R481, signed. -/
def execGetMeasurements (f index : Nat) (nonce : List Byte) (s : State) : Host.Outcome State Fault Refusal :=
  take (.getMeasurements f index nonce) s (getMeasurementsEffect f index nonce)

/-! ### Sessions (R480, R482, R489) -/

def setSessions (l : List Session) (s : State) : State := { s with sec := { s.sec with sessions := l } }

/-- The DOE has no free session of that kind: a VF has one, the PF one owner session and one other. -/
def doeFull (s : State) (f : Nat) (owner : Bool) : Bool :=
  s.sec.sessions.any fun x => x.fn = f && (f != 0 || x.owner = owner)

def keyExchangeEffect (f : Nat) (owner : Bool) (exchange : List Byte) (s : State) : State :=
  onDoe f (fun d => d.algs && (s.sec.lc = 1 || s.sec.lc = 2)) (fun s =>
    let own := owner && f = 0 && s.sec.ownerKey.isSome
    if doeFull s f own then setReply .spdmBusy s
    else
      let (k, s) := draw s
      let (b, s) := draw s
      let n := s.sec.nextSess + 1
      spdmAnswer (Config.spdmBytes 6 (natLe 1 (b % 61) ++ exchange)) { s with sec := { s.sec with
        nextSess := n
        sessions := s.sec.sessions ++ [{ fn := f, num := n, owner := own, period := b % 61, secret := k }] } }) s

/-- KEY_EXCHANGE (R480): a session begins, an owner session where the requester's chain roots in the owner key (R482); Busy where
the DOE has none free. Its heartbeat period of 0 to 60 s is Sumac's, a free value (log 167). -/
def execKeyExchange (f : Nat) (owner : Bool) (exchange : List Byte) (s : State) : Host.Outcome State Fault Refusal :=
  take (.keyExchange f owner exchange) s (keyExchangeEffect f owner exchange)

/-- A session by number, finished or in handshake. -/
def anySession (s : State) (f n : Nat) : Option Session := s.sec.sessions.find? fun x => x.fn = f && x.num = n

def finishEffect (f n : Nat) (ok : Bool) (s : State) : State :=
  if ¬hostUp s f then notTaken s
  else match anySession s f n with
    | none => spdmError s
    | some x =>
      if x.finished then spdmError s
      else if ok then
        spdmAnswer (Config.spdmBytes 7 []) (setSessions (s.sec.sessions.map fun y => if y = x then { y with finished := true } else y) s)
      else spdmError (setSessions (s.sec.sessions.filter fun y => y != x) s)

/-- FINISH (R480): the handshake completes; a requester that does not authenticate loses the session. -/
def execFinish (f sess : Nat) (requesterOk : Bool) (s : State) : Host.Outcome State Fault Refusal :=
  take (.finish f sess requesterOk) s (finishEffect f sess requesterOk)

def heartbeatEffect (f n : Nat) (s : State) : State :=
  if ¬hostUp s f then notTaken s
  else if (sessionOf s f n).isSome then spdmAnswer (Config.spdmBytes 8 []) s else spdmError s

/-- HEARTBEAT (R480): the session stays. -/
def execHeartbeat (f sess : Nat) (s : State) : Host.Outcome State Fault Refusal := take (.heartbeat f sess) s (heartbeatEffect f sess)

/-- A session ends (R489): a bound function enters DISABLING without records, as for an FLR. -/
def endSession (x : Session) (s : State) : State :=
  let s := setSessions (s.sec.sessions.filter fun y => y != x) s
  if x.bound ∧ (fnOf s x.fn).enc then
    match (fnOf s x.fn).state with
    | .enabled => beginShutdown x.fn false s
    | .disabled => clearFn x.fn s
    | .disabling => modFn x.fn (fun y => { y with enableHeld := false }) s
  else s

def spdmHeartbeatTimeoutEffect (f n : Nat) (s : State) : State :=
  match sessionOf s f n with
  | none => notTaken s
  | some x => if running s ∧ x.period ≠ 0 then endSession x s else notTaken s

/-- A missed heartbeat ends the session (R489); one with period 0 has no heartbeat (R480). -/
def execSpdmHeartbeatTimeout (f sess : Nat) (s : State) : Host.Outcome State Fault Refusal :=
  take (.spdmHeartbeatTimeout f sess) s (spdmHeartbeatTimeoutEffect f sess)

def keyUpdateEffect (f n : Nat) (s : State) : State :=
  if ¬hostUp s f then notTaken s
  else match sessionOf s f n with
    | none => spdmError s
    | some x => spdmAnswer (Config.spdmBytes 9 [])
      (setSessions (s.sec.sessions.map fun y => if y = x then { y with keyGen := y.keyGen + 1 } else y) s)

/-- KEY_UPDATE (R489): the session keys renewed, the function keys unchanged. -/
def execKeyUpdate (f sess : Nat) (s : State) : Host.Outcome State Fault Refusal := take (.keyUpdate f sess) s (keyUpdateEffect f sess)

def endSessionEffect (f n : Nat) (s : State) : State :=
  if ¬hostUp s f then notTaken s
  else match sessionOf s f n with
    | none => spdmError s
    | some x => spdmAnswer (Config.spdmBytes 10 []) (endSession x s)

/-- END_SESSION (R489). -/
def execEndSession (f sess : Nat) (s : State) : Host.Outcome State Fault Refusal := take (.endSession f sess) s (endSessionEffect f sess)

end Sys2Proof.Machine
end

