-- ==== Sys2Proof/Machine/Dispatch.lean ====
section
/-!
DEFINITION. The meaning of each command: one arm per constructor of Instr.
-/
namespace Sys2Proof.Machine

/-- The command's effect on everything but the queue. -/
def exec (i : Instr) (s : State) : Host.Outcome State Fault Refusal :=
  match i with
  | .registerWrite f off width v => Sys2Proof.Machine.execRegisterWrite f off width v s
  | .badSizeAccess f bar off size => Sys2Proof.Machine.execBadSizeAccess f bar off size s
  | .halfReadLow f off => Sys2Proof.Machine.execHalfReadLow f off s
  | .halfReadHigh f off => Sys2Proof.Machine.execHalfReadHigh f off s
  | .halfWriteLow f off v => Sys2Proof.Machine.execHalfWriteLow f off v s
  | .halfWriteHigh f off v => Sys2Proof.Machine.execHalfWriteHigh f off v s
  | .readDroppedDb f => Sys2Proof.Machine.execReadDroppedDb f s
  | .readBadAccess f => Sys2Proof.Machine.execReadBadAccess f s
  | .fnEnable f => Sys2Proof.Machine.execFnEnable f s
  | .fnDisable f => Sys2Proof.Machine.execFnDisable f s
  | .flr f => Sys2Proof.Machine.execFlr f s
  | .fnShutdownComplete f => Sys2Proof.Machine.execFnShutdownComplete f s
  | .ringEnable f r v => Sys2Proof.Machine.execRingEnable f r v s
  | .ringDisable f r v => Sys2Proof.Machine.execRingDisable f r v s
  | .ringStopComplete f r => Sys2Proof.Machine.execRingStopComplete f r s
  | .sqTailDoorbell f r v => Sys2Proof.Machine.execSqTailDoorbell f r v s
  | .cqHeadDoorbell f r v => Sys2Proof.Machine.execCqHeadDoorbell f r v s
  | .hostAccessFailed f r write => Sys2Proof.Machine.execHostAccessFailed f r write s
  | .bbRegister f b v => Sys2Proof.Machine.execBbRegister f b v s
  | .bbDeregister f b v => Sys2Proof.Machine.execBbDeregister f b v s
  | .ringSchedWrite f r v => Sys2Proof.Machine.execRingSchedWrite f r v s
  | .msixUnmask f v => Sys2Proof.Machine.execMsixUnmask f v s
  | .msixCoalesceTimeout f r => Sys2Proof.Machine.execMsixCoalesceTimeout f r s
  | .descriptorFetch f r => Sys2Proof.Machine.execDescriptorFetch f r s
  | .commandStart c => Sys2Proof.Machine.execCommandStart c s
  | .commandComplete c => Sys2Proof.Machine.execCommandComplete c s
  | .groupEnd f r => Sys2Proof.Machine.execGroupEnd f r s
  | .copy c => Sys2Proof.Machine.execCopy c s
  | .run c => Sys2Proof.Machine.execRun c s
  | .bankRun c => Sys2Proof.Machine.execBankRun c s
  | .step c => Sys2Proof.Machine.execStep c s
  | .kvAlloc c => Sys2Proof.Machine.execKvAlloc c s
  | .kvFork c => Sys2Proof.Machine.execKvFork c s
  | .kvCommit c => Sys2Proof.Machine.execKvCommit c s
  | .kvFree c => Sys2Proof.Machine.execKvFree c s
  | .adapterLoad c => Sys2Proof.Machine.execAdapterLoad c s
  | .adapterEvict c => Sys2Proof.Machine.execAdapterEvict c s
  | .modelSwap c => Sys2Proof.Machine.execModelSwap c s
  | .semSignal c => Sys2Proof.Machine.execSemSignal c s
  | .semWait c => Sys2Proof.Machine.execSemWait c s
  | .fence c => Sys2Proof.Machine.execFence c s
  | .fabricSend c => Sys2Proof.Machine.execFabricSend c s
  | .fabricRecv c => Sys2Proof.Machine.execFabricRecv c s
  | .fabricCollective c => Sys2Proof.Machine.execFabricCollective c s
  | .quotaSet c => Sys2Proof.Machine.execQuotaSet c s
  | .evict c => Sys2Proof.Machine.execEvict c s
  | .nop n => Sys2Proof.Machine.execNop n s
  | .agSet n => Sys2Proof.Machine.execAgSet n s
  | .anchorLoad n => Sys2Proof.Machine.execAnchorLoad n s
  | .tileMac n => Sys2Proof.Machine.execTileMac n s
  | .tileDrain n => Sys2Proof.Machine.execTileDrain n s
  | .tileLoad n => Sys2Proof.Machine.execTileLoad n s
  | .vec n => Sys2Proof.Machine.execVec n s
  | .signal n => Sys2Proof.Machine.execSignal n s
  | .wait n => Sys2Proof.Machine.execWait n s
  | .acquire n => Sys2Proof.Machine.execAcquire n s
  | .yieldPoint n => Sys2Proof.Machine.execYieldPoint n s
  | .jump n => Sys2Proof.Machine.execJump n s
  | .endWord n => Sys2Proof.Machine.execEndWord n s
  | .streamFetch n => Sys2Proof.Machine.execStreamFetch n s
  | .yieldGraceExpired n => Sys2Proof.Machine.execYieldGraceExpired n s
  | .coreSaveComplete n => Sys2Proof.Machine.execCoreSaveComplete n s
  | .cloveScalarInstruction g => Sys2Proof.Machine.execCloveScalarInstruction g s
  | .cloveCsrWrite g => Sys2Proof.Machine.execCloveCsrWrite g s
  | .bvLd g => Sys2Proof.Machine.execBvLd g s
  | .bvSt g => Sys2Proof.Machine.execBvSt g s
  | .bvLdm g => Sys2Proof.Machine.execBvLdm g s
  | .bvStm g => Sys2Proof.Machine.execBvStm g s
  | .bvPf g => Sys2Proof.Machine.execBvPf g s
  | .bvAcq g => Sys2Proof.Machine.execBvAcq g s
  | .bankLoadArrives g => Sys2Proof.Machine.execBankLoadArrives g s
  | .bvAdd g => Sys2Proof.Machine.execBvAdd g s
  | .bvSub g => Sys2Proof.Machine.execBvSub g s
  | .bvMul g => Sys2Proof.Machine.execBvMul g s
  | .bvMax g => Sys2Proof.Machine.execBvMax g s
  | .bvMin g => Sys2Proof.Machine.execBvMin g s
  | .bvExp2 g => Sys2Proof.Machine.execBvExp2 g s
  | .bvExp2sub g => Sys2Proof.Machine.execBvExp2sub g s
  | .bvRcp g => Sys2Proof.Machine.execBvRcp g s
  | .bvMix2 g => Sys2Proof.Machine.execBvMix2 g s
  | .bvCvt g => Sys2Proof.Machine.execBvCvt g s
  | .bvLimit g => Sys2Proof.Machine.execBvLimit g s
  | .bvMaskb g => Sys2Proof.Machine.execBvMaskb g s
  | .bvBcast g => Sys2Proof.Machine.execBvBcast g s
  | .bvExt g => Sys2Proof.Machine.execBvExt g s
  | .bvIns g => Sys2Proof.Machine.execBvIns g s
  | .bvRmax g => Sys2Proof.Machine.execBvRmax g s
  | .bvEmax g => Sys2Proof.Machine.execBvEmax g s
  | .bvEmaxl g => Sys2Proof.Machine.execBvEmaxl g s
  | .bvMv g => Sys2Proof.Machine.execBvMv g s
  | .bvDoth g => Sys2Proof.Machine.execBvDoth g s
  | .bvMacl g => Sys2Proof.Machine.execBvMacl g s
  | .bvSumh g => Sys2Proof.Machine.execBvSumh g s
  | .bvAncset g => Sys2Proof.Machine.execBvAncset g s
  | .bvAccrd g => Sys2Proof.Machine.execBvAccrd g s
  | .bvAccrdk g => Sys2Proof.Machine.execBvAccrdk g s
  | .bvAccrda g => Sys2Proof.Machine.execBvAccrda g s
  | .bvAccclr g => Sys2Proof.Machine.execBvAccclr g s
  | .bvYield g => Sys2Proof.Machine.execBvYield g s
  | .bvEnd g => Sys2Proof.Machine.execBvEnd g s
  | .cloveForcedYield g => Sys2Proof.Machine.execCloveForcedYield g s
  | .cloveProgramAdmit g => Sys2Proof.Machine.execCloveProgramAdmit g s
  | .cloveImageLoaded c st => Sys2Proof.Machine.execCloveImageLoaded c st s
  | .stackOrdinaryAccess p g off write => Sys2Proof.Machine.execStackOrdinaryAccess p g off write s
  | .refreshOperation g => Sys2Proof.Machine.execRefreshOperation g s
  | .scrubRead g off => Sys2Proof.Machine.execScrubRead g off s
  | .eccReadback g off data check => Sys2Proof.Machine.execEccReadback g off data check s
  | .retireMoveComplete chunk => Sys2Proof.Machine.execRetireMoveComplete chunk s
  | .bankLocalRetire chunk => Sys2Proof.Machine.execBankLocalRetire chunk s
  | .bwWindowRollover st => Sys2Proof.Machine.execBwWindowRollover st s
  | .eccTestRawWrite st v => Sys2Proof.Machine.execEccTestRawWrite st v s
  | .eccTestRawRead st => Sys2Proof.Machine.execEccTestRawRead st s
  | .farLinkDown q => Sys2Proof.Machine.execFarLinkDown q s
  | .farLinkRestored q wide => Sys2Proof.Machine.execFarLinkRestored q wide s
  | .farRetrainTimeout q => Sys2Proof.Machine.execFarRetrainTimeout q s
  | .sliceExpired p => Sys2Proof.Machine.execSliceExpired p s
  | .waitHoldTimeout c => Sys2Proof.Machine.execWaitHoldTimeout c s
  | .jobStopComplete f r => Sys2Proof.Machine.execJobStopComplete f r s
  | .pendingStopTaken p => Sys2Proof.Machine.execPendingStopTaken p s
  | .jobResume f r => Sys2Proof.Machine.execJobResume f r s
  | .inheritBudgetExpired w => Sys2Proof.Machine.execInheritBudgetExpired w s
  | .grantWaitTimeout c => Sys2Proof.Machine.execGrantWaitTimeout c s
  | .portTrained pt rx tx => Sys2Proof.Machine.execPortTrained pt rx tx s
  | .trainingAttemptTimeout pt => Sys2Proof.Machine.execTrainingAttemptTimeout pt s
  | .linkSessionEstablished pt chainOk peerState peerBlock10 => Sys2Proof.Machine.execLinkSessionEstablished pt chainOk peerState peerBlock10 s
  | .laneFailure pt lane => Sys2Proof.Machine.execLaneFailure pt lane s
  | .retrainComplete pt txFail => Sys2Proof.Machine.execRetrainComplete pt txFail s
  | .flitSend pt => Sys2Proof.Machine.execFlitSend pt s
  | .flitRxSequenced pt x => Sys2Proof.Machine.execFlitRxSequenced pt x s
  | .flitRxIdle pt x => Sys2Proof.Machine.execFlitRxIdle pt x s
  | .flitRxNak pt x => Sys2Proof.Machine.execFlitRxNak pt x s
  | .flitRxMgmt pt x => Sys2Proof.Machine.execFlitRxMgmt pt x s
  | .replayTimeout pt => Sys2Proof.Machine.execReplayTimeout pt s
  | .linkKeyUpdate pt => Sys2Proof.Machine.execLinkKeyUpdate pt s
  | .packetDataRx => Sys2Proof.Machine.execPacketDataRx s
  | .packetReqRx => Sys2Proof.Machine.execPacketReqRx s
  | .packetAckRx => Sys2Proof.Machine.execPacketAckRx s
  | .packetRejectRx => Sys2Proof.Machine.execPacketRejectRx s
  | .packetCollRx => Sys2Proof.Machine.execPacketCollRx s
  | .packetBarrierRx => Sys2Proof.Machine.execPacketBarrierRx s
  | .packetAbortRx => Sys2Proof.Machine.execPacketAbortRx s
  | .packetAckTimeout c off => Sys2Proof.Machine.execPacketAckTimeout c off s
  | .powerSample watts => Sys2Proof.Machine.execPowerSample watts s
  | .energyInterval total parts rings => Sys2Proof.Machine.execEnergyInterval total parts rings s
  | .powerControlStep => Sys2Proof.Machine.execPowerControlStep s
  | .pwrCtrlWrite v => Sys2Proof.Machine.execPwrCtrlWrite v s
  | .throttleStep => Sys2Proof.Machine.execThrottleStep s
  | .throttleRecovery => Sys2Proof.Machine.execThrottleRecovery s
  | .sensorSample n t => Sys2Proof.Machine.execSensorSample n t s
  | .sensorSelfCheck n ok => Sys2Proof.Machine.execSensorSelfCheck n ok s
  | .sensorStaleTimeout n => Sys2Proof.Machine.execSensorStaleTimeout n s
  | .coolantOkDeassert => Sys2Proof.Machine.execCoolantOkDeassert s
  | .coolantOkTimeout => Sys2Proof.Machine.execCoolantOkTimeout s
  | .coolantOkAssert => Sys2Proof.Machine.execCoolantOkAssert s
  | .stoppedSensorPoll readings => Sys2Proof.Machine.execStoppedSensorPoll readings s
  | .thermalRestart => Sys2Proof.Machine.execThermalRestart s
  | .powerOn straps readings => Sys2Proof.Machine.execPowerOn straps readings s
  | .undervoltageStop => Sys2Proof.Machine.execUndervoltageStop s
  | .powerLossClear => Sys2Proof.Machine.execPowerLossClear s
  | .railsGood => Sys2Proof.Machine.execRailsGood s
  | .resetRelease straps => Sys2Proof.Machine.execResetRelease straps s
  | .perstAssert second => Sys2Proof.Machine.execPerstAssert second s
  | .perstDeassert second => Sys2Proof.Machine.execPerstDeassert second s
  | .idleStateEntry => Sys2Proof.Machine.execIdleStateEntry s
  | .idleWake w => Sys2Proof.Machine.execIdleWake w s
  | .pwrIdleCtrlWrite v => Sys2Proof.Machine.execPwrIdleCtrlWrite v s
  | .wakeInAssert => Sys2Proof.Machine.execWakeInAssert s
  | .evcPendSet t k v => Sys2Proof.Machine.execEvcPendSet t k v s
  | .evcPendClr t k v => Sys2Proof.Machine.execEvcPendClr t k v s
  | .evcMaskSet t k v => Sys2Proof.Machine.execEvcMaskSet t k v s
  | .evcMaskClr t k v => Sys2Proof.Machine.execEvcMaskClr t k v s
  | .evcClaim t => Sys2Proof.Machine.execEvcClaim t s
  | .evcComplete t v => Sys2Proof.Machine.execEvcComplete t v s
  | .evcSeqCountRead t => Sys2Proof.Machine.execEvcSeqCountRead t s
  | .eventHoldoffExpired k => Sys2Proof.Machine.execEventHoldoffExpired k s
  | .evcStateMismatch k mask2 target => Sys2Proof.Machine.execEvcStateMismatch k mask2 target s
  | .faultDetected fi => Sys2Proof.Machine.execFaultDetected fi s
  | .saffronWatchdog n => Sys2Proof.Machine.execSaffronWatchdog n s
  | .moverWatchdog m => Sys2Proof.Machine.execMoverWatchdog m s
  | .stackControllerWatchdog st => Sys2Proof.Machine.execStackControllerWatchdog st s
  | .cloveHangWatchdog g => Sys2Proof.Machine.execCloveHangWatchdog g s
  | .heartbeatTimeout ac p => Sys2Proof.Machine.execHeartbeatTimeout ac p s
  | .groupRecovery p => Sys2Proof.Machine.execGroupRecovery p s
  | .sumacLockstepRestart => Sys2Proof.Machine.execSumacLockstepRestart s
  | .runtimeReady p => Sys2Proof.Machine.execRuntimeReady p s
  | .partCreate q a => Sys2Proof.Machine.execPartCreate q a s
  | .partTeardown q p => Sys2Proof.Machine.execPartTeardown q p s
  | .partGrow q p cores chunks saveSlots choice => Sys2Proof.Machine.execPartGrow q p cores chunks saveSlots choice s
  | .partShrink q p cores => Sys2Proof.Machine.execPartShrink q p cores s
  | .fnAssign q p firstVf nvf pf pfb remove => Sys2Proof.Machine.execFnAssign q p firstVf nvf pf pfb remove s
  | .planeMode q v => Sys2Proof.Machine.execPlaneMode q v s
  | .fabricCfg q a => Sys2Proof.Machine.execFabricCfg q a s
  | .eccTest q p st chunk opening => Sys2Proof.Machine.execEccTest q p st chunk opening s
  | .fwUpdate q images => Sys2Proof.Machine.execFwUpdate q images s
  | .fwActivate q slotB commit revoke => Sys2Proof.Machine.execFwActivate q slotB commit revoke s
  | .lifecycle q target => Sys2Proof.Machine.execLifecycle q target s
  | .reset q => Sys2Proof.Machine.execReset q s
  | .ownerInstall q key => Sys2Proof.Machine.execOwnerInstall q key s
  | .certInstall q chain keyMatches => Sys2Proof.Machine.execCertInstall q chain keyMatches s
  | .bindFunction q f => Sys2Proof.Machine.execBindFunction q f s
  | .getVersion f => Sys2Proof.Machine.execGetVersion f s
  | .getCapabilities f => Sys2Proof.Machine.execGetCapabilities f s
  | .negotiateAlgorithms f offered => Sys2Proof.Machine.execNegotiateAlgorithms f offered s
  | .getDigests f => Sys2Proof.Machine.execGetDigests f s
  | .getCertificate f slot off len => Sys2Proof.Machine.execGetCertificate f slot off len s
  | .getMeasurements f index nonce => Sys2Proof.Machine.execGetMeasurements f index nonce s
  | .keyExchange f owner exchange => Sys2Proof.Machine.execKeyExchange f owner exchange s
  | .finish f sess requesterOk => Sys2Proof.Machine.execFinish f sess requesterOk s
  | .heartbeat f sess => Sys2Proof.Machine.execHeartbeat f sess s
  | .spdmHeartbeatTimeout f sess => Sys2Proof.Machine.execSpdmHeartbeatTimeout f sess s
  | .keyUpdate f sess => Sys2Proof.Machine.execKeyUpdate f sess s
  | .endSession f sess => Sys2Proof.Machine.execEndSession f sess s
  | .clmClaim v => Sys2Proof.Machine.execClmClaim v s
  | .clmRelease v => Sys2Proof.Machine.execClmRelease v s
  | .smbusReadByte code => Sys2Proof.Machine.execSmbusReadByte code s
  | .smbusReadWord code => Sys2Proof.Machine.execSmbusReadWord code s
  | .smbusBlockRead code => Sys2Proof.Machine.execSmbusBlockRead code s
  | .reservedControlWord n => Sys2Proof.Machine.execReservedControlWord n s
  | .pfReady => Sys2Proof.Machine.execPfReady s
  | .teardownComplete p => Sys2Proof.Machine.execTeardownComplete p s
  | .coolantOkQualified => Sys2Proof.Machine.execCoolantOkQualified s
  | .referenceClockLoss input => Sys2Proof.Machine.execReferenceClockLoss input s
  | .idleFlitSend pt => Sys2Proof.Machine.execIdleFlitSend pt s
  | .configurationRequest f d3hot => Sys2Proof.Machine.execConfigurationRequest f d3hot s
  | .coreAlternationTimeout p => Sys2Proof.Machine.execCoreAlternationTimeout p s

end Sys2Proof.Machine
end

