-- ==== Sys2Proof/Machine/Ring.lean ====
section
/-!
DEFINITION. Attention by position over a ring of devices (R283, R284, R418): the hops that the runtime expands into fabric commands,
the block a device holds at each hop, and the merging of finished nodes as their siblings come.
-/
namespace Sys2Proof.Machine

/-- The devices after and before position `r` of a ring table (R413). -/
def ringNext (ids : List Nat) (r : Nat) : Nat := ids.getD ((r + 1) % ids.length) 0
def ringPrev (ids : List Nat) (r : Nat) : Nat := ids.getD ((r + ids.length - 1) % ids.length) 0

/-- The descriptor of a FABRIC_SEND or FABRIC_RECV: class, tensor descriptor, peer and channel (R405). -/
def fabricDesc (cls desc peer channel : Nat) : BitVec 512 :=
  BitVec.ofNat 512 (cls + desc * 2 ^ 64 + peer * 2 ^ 128 + channel * 2 ^ 144)

/-- A hop of device position `r` (R418): one FABRIC_SEND of the held block to next, one FABRIC_RECV of the following block from
previous, on the channel reserved for the sequence. -/
def ringHop (ids : List Nat) (r channel held next : Nat) : BitVec 512 × BitVec 512 :=
  (fabricDesc 0x30 held (ringNext ids r) channel, fabricDesc 0x31 next (ringPrev ids r) channel)

/-- A command of a hop, as the runtime starts it in the group of command `x`; it has no completion record of its own. -/
def hopCmd (x : Cmd) (desc : BitVec 512) : Cmd :=
  { phase := .running, fn := x.fn, ring := x.ring, group := x.group, desc := desc, noRecord := true }

/-- The two commands of a hop started under numbers `c` and `c + 1` (R418). -/
def startHop (c : Nat) (x : Cmd) (h : BitVec 512 × BitVec 512) (s : State) : State :=
  { s with hif := { s.hif with cmds := tabPut (tabPut s.hif.cmds c (hopCmd x h.1)) (c + 1) (hopCmd x h.2) } }

/-- The position whose K and V block device position `r` of `n` holds at hop `k` (R418). -/
def blockAt (n r k : Nat) : Nat := (r + n - k % n) % n

/-- The first leaf of a position's block of 2^h leaves (R283). -/
def blockLeaf (h r : Nat) : Nat := 2 ^ h * r

/-! ### Finished nodes (R66, R284) -/

/-- The place of node `j` at level `l` above the blocks' nodes. -/
def nodeKey (l j : Nat) : Nat := l * 2 ^ 32 + j

def siblingOf (j : Nat) : Nat := if j % 2 = 0 then j + 1 else j - 1

/-- The sibling of node `j` at level `l` covers no block of a group of `n`. -/
def loneNode (n l j : Nat) : Bool := decide (n ≤ siblingOf j * 2 ^ l)

/-- A finished node of a group of `n` blocks arrives: held until its sibling is present, then merged with it, lower positions first,
and the merged node goes on in the same way; a node without a sibling goes up as it is (R66, R284). -/
def holdNode (n : Nat) : Nat → Nat → Nat → Node → Tab Node → Tab Node
  | 0, l, j, x, t => tabPut t (nodeKey l j) x
  | k + 1, l, j, x, t =>
    if n ≤ 2 ^ l then tabPut t (nodeKey l j) x
    else if loneNode n l j then holdNode n k (l + 1) (j / 2) x t
    else match t.find? fun e => e.1 = nodeKey l (siblingOf j) with
      | none => tabPut t (nodeKey l j) x
      | some (i, y) =>
        holdNode n k (l + 1) (j / 2) (if j % 2 = 0 then nodeMerge x y else nodeMerge y x) (tabErase t i)

/-- The nodes held when the blocks of some positions have arrived, in order of arrival: `node` gives each block's level-h node. -/
def heldNodes (n : Nat) (node : Nat → Node) (arrived : List Nat) : Tab Node :=
  arrived.foldl (fun t r => holdNode n n 0 r (node r) t) []

end Sys2Proof.Machine
end

