-- ==== Sys2Proof/Safety.lean ====
section
/-!
DEFINITION. What counts as a safe step, and the frames that statements use: which parts of the state a command may have changed.
-/
namespace Sys2Proof.Machine

/-- The outcome is a next state. -/
def isNext : Host.Outcome State Fault Refusal → Bool
  | .next _ => true
  | _ => false

/-- Every command of a queue names only what the part has. -/
def queueWf (l : List Instr) : Bool := l.all Instr.wf

/-- The state after `n` steps, if none of them stops. -/
def stepsOf : Nat → State → Option State
  | 0, s => some s
  | n + 1, s => match step s with
    | .next t => stepsOf n t
    | _ => none

/-- The command, run in `s`, answers a next state, and `P` holds of that state. -/
def after (i : Instr) (s : State) (P : State → Prop) : Prop := ∃ t, exec i s = .next t ∧ P t

/-- Nothing but the reply of the last command differs. -/
def sameButReply (s t : State) : Prop := t = { s with reply := t.reply }

/-- Nothing but the host interface's own state differs. -/
def onlyHif (s t : State) : Prop := t = { s with hif := t.hif, reply := t.reply }

/-- Nothing differs but function `f` and the messages sent. -/
def onlyFn (f : Nat) (s t : State) : Prop :=
  t = { s with hif := { s.hif with fn := t.hif.fn, msgs := t.hif.msgs }, reply := t.reply } ∧ ∀ g, g ≠ f → fnOf t g = fnOf s g

/-- Nothing of function `f` differs but ring `r` and the message vectors. -/
def onlyRing (f r : Nat) (s t : State) : Prop :=
  onlyFn f s t ∧ fnOf t f = { fnOf s f with rings := (fnOf t f).rings, msix := (fnOf t f).msix }
    ∧ ∀ q, q ≠ r → ringOf t f q = ringOf s f q

/-- Nothing of function `f` differs but bounce buffer `b`. -/
def onlyBuf (f b : Nat) (s t : State) : Prop :=
  onlyFn f s t ∧ fnOf t f = { fnOf s f with bufs := (fnOf t f).bufs } ∧ ∀ q, q ≠ b → bufOf t f q = bufOf s f q

/-- Nothing differs but what a decision of the scheduler writes (R362 to R376): the states and inherited classes of jobs, which job a
partition runs, what its cores and Cloves are asked, fabric transfers held or resumed, and pending events. -/
structure onlySched (s t : State) : Prop where
  rest : t = { s with hif := t.hif, saf := t.saf, clv := t.clv, parts := t.parts, stw := t.stw, evc := t.evc }
  hif : t.hif = { s.hif with fn := t.hif.fn }
  saf : t.saf = { s.saf with cores := t.saf.cores }
  core : ∀ n, coreOf t n = { coreOf s n with
    suspendReq := (coreOf t n).suspendReq
    grace := (coreOf t n).grace
    graceRun := (coreOf t n).graceRun
    keepWait := (coreOf t n).keepWait }
  fn : ∀ f, fnOf t f = { fnOf s f with rings := (fnOf t f).rings }
  ring : ∀ f r, ringOf t f r = { ringOf s f r with job := (ringOf t f r).job, inherited := (ringOf t f r).inherited }
  part : ∀ p, partOf t p = { partOf s p with
    running := (partOf t p).running
    next := (partOf t p).next
    pendingStop := (partOf t p).pendingStop
    pendingHold := (partOf t p).pendingHold
    pendingWait := (partOf t p).pendingWait
    woken := (partOf t p).woken
    lastRun := (partOf t p).lastRun
    ran := (partOf t p).ran }

/-- Command `c` has ended with a status, cause, RESULT and INDEX (R342). -/
def ended (t : State) (c : Nat) (st : Status) (cause result index : Nat) : Prop :=
  (cmdOf t c).phase = .done ∧ (cmdOf t c).status = st ∧ (cmdOf t c).cause = cause ∧ (cmdOf t c).result = result
    ∧ (cmdOf t c).index = index

/-- Nothing differs but what the end of command `c` writes: the command, fences that waited for it, FAILED of rings, whose the lost words of
a group are, and a decision of the scheduler (R153, R341, R342, R465). -/
structure onlyEnd (c : Nat) (s t : State) : Prop where
  rest : t = { s with hif := t.hif, saf := t.saf, clv := t.clv, parts := t.parts, stw := t.stw, evc := t.evc }
  hif : t.hif = { s.hif with fn := t.hif.fn, cmds := t.hif.cmds }
  saf : t.saf = { s.saf with cores := t.saf.cores }
  core : ∀ n, coreOf t n = { coreOf s n with
    suspendReq := (coreOf t n).suspendReq
    grace := (coreOf t n).grace
    graceRun := (coreOf t n).graceRun
    keepWait := (coreOf t n).keepWait }
  fn : ∀ f, fnOf t f = { fnOf s f with rings := (fnOf t f).rings }
  ring : ∀ f r, ringOf t f r = { ringOf s f r with
    job := (ringOf t f r).job, inherited := (ringOf t f r).inherited, failed := (ringOf t f r).failed
    lost := (ringOf t f r).lost }
  part : ∀ p, partOf t p = { partOf s p with
    running := (partOf t p).running
    next := (partOf t p).next
    pendingStop := (partOf t p).pendingStop
    pendingHold := (partOf t p).pendingHold
    pendingWait := (partOf t p).pendingWait
    woken := (partOf t p).woken
    lastRun := (partOf t p).lastRun
    ran := (partOf t p).ran }
  cmd : ∀ d, d ≠ c → ((cmdOf s d).phase ≠ .running ∨ cmdClass (cmdOf s d) ≠ 0x22) → cmdOf t d = cmdOf s d

/-- Nothing differs but core `n` and its scratchpad, and the free values drawn. -/
def onlyCore (n : Nat) (s t : State) : Prop :=
  t = { s with saf := t.saf, freeCtr := t.freeCtr, reply := t.reply }
    ∧ ∀ m, m ≠ n → coreOf t m = coreOf s m ∧ spadOf t m = spadOf s m

/-- Nothing stands in the way of accesses to ranges of a partition's device memory: no chunk of theirs is being moved, the partition is
not capped and over its budget in a stack of theirs, no program defers one, and no far port of the far ranges `far` retrains (R201, R207, R215,
R239). `key` is the command's or core's number (log 29). -/
def accessClear (s : State) (key p : Nat) (l far : List (Nat × Nat)) : Prop :=
  devMoving s p l = false ∧ devCapped s p l = false ∧ farHeldAt s p far = false ∧ tabGet none s.mem.asked key = none ∧ devDeferred s p l = []

/-- Accesses that programs of some banks defer, and nothing else holds: they are asked for (R239). -/
def accessDefers (s : State) (key p : Nat) (l far : List (Nat × Nat)) : Prop :=
  devMoving s p l = false ∧ devCapped s p l = false ∧ farHeldAt s p far = false ∧ tabGet none s.mem.asked key = none ∧ devDeferred s p l ≠ []

/-- Accesses that programs defer have been asked for at their banks, one deferral counted for each sector; nothing else differs. -/
def accessAsked (key : Nat) (banks : List Nat) (s t : State) : Prop :=
  tabGet none t.mem.asked key = some banks.eraseDups ∧ (∀ k, k ≠ key → tabGet none t.mem.asked k = tabGet none s.mem.asked k)
    ∧ (∀ g, cloveOf t g = { cloveOf s g with deferredCount := (cloveOf t g).deferredCount })
    ∧ t = { s with mem := { s.mem with asked := t.mem.asked }, clv := t.clv, reply := t.reply }

/-- The operation code and the sender's header of a management request that Sumac takes from the PF (R482, R484). -/
def mgmtOf : Instr → Option (Nat × Req)
  | .partCreate q _ => some (1, q)
  | .partTeardown q _ => some (2, q)
  | .partGrow q _ _ _ _ _ => some (3, q)
  | .partShrink q _ _ => some (4, q)
  | .fnAssign q _ _ _ _ _ _ => some (5, q)
  | .planeMode q _ => some (6, q)
  | .fabricCfg q _ => some (7, q)
  | .eccTest q _ _ _ _ => some (8, q)
  | .fwUpdate q _ => some (9, q)
  | .fwActivate q _ _ _ => some (10, q)
  | .lifecycle q _ => some (11, q)
  | .reset q => some (12, q)
  | .ownerInstall q _ => some (13, q)
  | .certInstall q _ _ => some (14, q)
  | _ => none

/-- Nothing differs but port `pt`, events, fault records and the free values drawn. -/
def onlyPort (pt : Nat) (s t : State) : Prop :=
  t = { s with stw := { s.stw with ports := t.stw.ports }, evc := t.evc, freeCtr := t.freeCtr, reply := t.reply }
    ∧ ∀ q, q ≠ pt → portOf t q = portOf s q

/-- A word `q` of operation `op` stands before `rest` at the head of the queue of a core that issues, and decodes without a fault. -/
def wordReady (s : State) (n op : Nat) (q : QWord) (rest : List QWord) : Prop :=
  (coreOf s n).queue = q :: rest ∧ coreIssues s n = true ∧ q.w.toNat % 256 = op ∧ decodeFault s (coreOf s n) q.w.toNat = none

/-- Clove `g` runs program `q`, which waits for no load and has no forced yield due; `w`, of `len` bytes, stands at its pc. -/
def cloveReady (s : State) (g : Nat) (q : CloveProg) (w len : Nat) : Prop :=
  activeProg s g = some q ∧ q.stalled = false ∧ instrAt q = .ok (w, len) ∧ (cloveOf s g).forcedPending = false

/-- Nothing differs but Clove `g`, whose program `q` has become `q'`, and the free values drawn. -/
def onlyProg (g : Nat) (q q' : CloveProg) (s t : State) : Prop :=
  t = { s with clv := t.clv, freeCtr := t.freeCtr, reply := t.reply } ∧ (∀ h, h ≠ g → cloveOf t h = cloveOf s h)
    ∧ cloveOf t g = { cloveOf s g with
        progs := (cloveOf s g).progs.map (fun p => if p.cmd = q.cmd then q' else p), poison := q'.poisonSeen }

/-- The Clove instructions that touch nothing but their own program: the row, its words, and what it makes of the program (R227). -/
def pureRows (g : Nat) : List (Instr × (Nat → Bool) × (Nat → CloveProg → Except Flt CloveProg)) :=
  [(.bvAdd g, bvRow 0x2B 0x00, bvTwo arithFmts true laneOnly fun _ => valAdd),
   (.bvSub g, bvRow 0x2B 0x01, bvTwo arithFmts true laneOnly fun _ x y => valAdd x (valNeg y)),
   (.bvMul g, bvRow 0x2B 0x02, bvTwo arithFmts true laneOnly fun _ => valMul),
   (.bvMax g, bvRow 0x2B 0x03, bvTwo arithFmts false laneOnly fun _ => valMax),
   (.bvMin g, bvRow 0x2B 0x04, bvTwo arithFmts false laneOnly fun _ => valMin),
   (.bvExp2 g, bvRow 0x2B 0x05, bvOne expFmts (fun _ => 0) valExp2),
   (.bvExp2sub g, bvRow 0x2B 0x06, bvTwo expFmts true subPre fun _ x y => valExp2 (toF32 (valAdd x (valNeg y)))),
   (.bvRcp g, bvRow 0x2B 0x07, bvOne [.f32] (fun x => f32Over (valRcp x)) fun x => toF32 (valRcp x)),
   (.bvMix2 g, bvRow 0x2B 0x08, bvTwo [.f32] true mixNan fun q x y =>
     valMix (decodeFloat .f32 q.bvc0.toNat) x (decodeFloat .f32 q.bvc1.toNat) y),
   (.bvCvt g, bvRow 0x2B 0x09, cvtExec),
   (.bvLimit g, bvRow 0x2B 0x0A, maskExec fun x k => decide (signed 32 x ≤ (k : Int))),
   (.bvMaskb g, bvRow 0x2B 0x0B, maskExec fun x k => !(bit x k)),
   (.bvBcast g, bvRow 0x2B 0x0C, bcastExec), (.bvExt g, bvRow 0x2B 0x0D, extExec), (.bvIns g, bvRow 0x2B 0x0E, insExec),
   (.bvRmax g, bvRow 0x2B 0x0F, rmaxExec), (.bvEmax g, bvRow 0x2B 0x10, emaxExec), (.bvEmaxl g, bvRow 0x2B 0x11, emaxlExec),
   (.bvMv g, bvRow 0x2B 0x12, mvExec), (.bvDoth g, bvRow 0x5B 0x00, dothExec), (.bvMacl g, bvRow 0x5B 0x01, maclExec),
   (.bvSumh g, bvRow 0x5B 0x02, sumhExec), (.bvAncset g, bvRow 0x5B 0x03, ancsetExec),
   (.bvAccrd g, bvRow 0x5B 0x04, accrdExec false), (.bvAccrdk g, bvRow 0x5B 0x05, accrdExec true),
   (.bvAccrda g, bvRow 0x5B 0x06, accrdaExec), (.bvAccclr g, bvRow 0x5B 0x07, accclrExec), (.bvLdm g, memRow 2, ldmExec),
   (.bvStm g, memRow 3, stmExec), (.bvPf g, memRow 4, pfExec), (.bvAcq g, memRow 5, acqExec),
   (.cloveCsrWrite g, isCsrWrite, csrWriteExec g)]

/-- The canonical form of stack and far memory and of the chunk map: keys strictly rising, and nothing listed that an unlisted address
reads as. -/
def Memory.wf (m : Memory) : Bool :=
  tabWf 0 m.dram && tabWf 0 m.dramCheck && tabWf 0 m.far && tabWf 0 m.farWritten && tabWf false m.farPoison && tabWf {} m.ct

/-- The fuses only ever go one way (R474, R477, R491, R493): RETURNED is for good, MANUFACTURE is never entered or left by a command, a
transition from DEPLOYED to PROVISIONED takes one of the releases left, a revoked key stays revoked, and no minimum SVN falls. -/
structure FusesForward (a b : Sumac) : Prop where
  returned : a.lc = 3 → b.lc = 3
  manufacture : b.lc = 0 ↔ a.lc = 0
  releases : b.releases.toNat ≤ a.releases.toNat
  release : a.lc = 2 → b.lc = 1 → b.releases.toNat < a.releases.toNat
  revoked : ∀ k, a.revoked.getLsbD k = true → b.revoked.getLsbD k = true
  svn : ∀ t, (tabGet 0 a.minSvn t).toNat ≤ (tabGet 0 b.minSvn t).toNat

end Sys2Proof.Machine
end

