-- ==== Sys2Proof/Certificates/Slice0/Obligations.lean ====
section
/-!
DEFINITION. The statements for the provers, one `def Obligations.<Name> : Prop` each. `after i s P` says that command `i`, run in `s`,
answers a next state and that `P` holds of it: every statement of that form says that the command completes. The docstrings cite the
rules of the spec, and the assumption log where a clause rests on the model's choice.
-/
open Sys2Proof Sys2Proof.Machine

/-- A step takes the command at the front of the queue and runs it with the queue's rest; with none waiting the block idles and nothing
changes (the queue and the idle step are the model's, log 1 and 28). -/
def Obligations.StepRunsTheFrontCommand : Prop :=
  (∀ (c : Instr) (rest : List Instr) (s : State), step { s with pending := c :: rest } = exec c { s with pending := rest })
    ∧ ∀ s : State, s.pending = [] → step s = .next s

/-- What reset leaves (R441, R425, R448, R450, R474, R475, R494, R499, R501, R515): no register of a function, ring, core, Clove,
semaphore or port written; CAP 1,500 W and clocks of 600 MHz; every source masked, routed to Sumac and not pending; memory wiped and
canonical; Sumac's timers claimed; the module booting with its PF not ready, and no command waiting.
Where it meets a choice of the model and not a rule, the choice is that of log 13 and 14. -/
def Obligations.ResetValues : Prop :=
  let s := State.reset
  s.rst.phase = .booting ∧ s.sec.pfReady = false ∧ s.pending = [] ∧ s.hif.cmds = [] ∧ s.hif.msgs = []
    ∧ (∀ f, fnOf s f = {} ∧ (∀ r, ringOf s f r = {}) ∧ (∀ b, bufOf s f b = {}) ∧ ∀ v, vecOf s f v = {})
    ∧ (∀ n, coreOf s n = {} ∧ spadOf s n = {}) ∧ (∀ g, cloveOf s g = {}) ∧ (∀ pt, portOf s pt = {}) ∧ (∀ p, partOf s p = {})
    ∧ (∀ n, frameOf s n = {}) ∧ (∀ n, semVal s n = 0) ∧ (∀ n, sensorOf s n = {})
    ∧ (∀ k, groupOf s k = { mask := 0xFFFFFFFF }) ∧ (∀ k, routeOf s k = 32) ∧ (∀ t, targetOf s t = {}) ∧ s.evc.flogCount = 0
    ∧ s.pwr.cap = 1500 ∧ s.pwr.freq0 = 600 ∧ s.pwr.freq1 = 600 ∧ s.pwr.latency = 0 ∧ s.pwr.idle = .active
    ∧ Memory.wf s.mem = true ∧ (∀ g off, rawWord s g off = (0, 0)) ∧ (∀ n, (ctOf s n).valid = false)
    ∧ (∀ id, claimOf s id = (if id = 0x40 ∨ id = 0x41 then ⟨0, 2, 0⟩ else {}))

/-- Which commands run: every command answers a next state, whatever the state; one that names a unit the part does not have is not
taken, and changes nothing but the reply (log 17). There is no fault and no refusal. -/
def Obligations.EveryCommandOfThePartRuns : Prop :=
  ∀ (c : Instr) (s : State), (∃ t, exec c s = .next t) ∧ (c.wf = false → exec c s = .next { s with reply := .notTaken })

/-- A queue of commands is worked off in order, one command a step, whatever the commands and the state: no step stops the block, and a
queue that names only what the part has goes on doing so (log 17, 28). -/
def Obligations.QueuesAreWorkedOffInOrder : Prop :=
  ∀ (n : Nat) (s : State), ∃ t, stepsOf n s = some t ∧ t.pending = s.pending.drop n
    ∧ (queueWf s.pending = true → queueWf t.pending = true)

/-- R474, R477, R491, R493: whatever a step does, RETURNED is left by no step, MANUFACTURE neither entered nor left, the releases of
life-cycle transitions only fall, by one at least with a transition from DEPLOYED to PROVISIONED, revoked keys stay revoked, and no
minimum SVN falls. -/
def Obligations.FusesOnlyGoForward : Prop :=
  ∀ s t : State, step s = .next t → FusesForward s.sec t.sec

/-- Every step keeps stack memory, its check bytes, far memory and the chunk map in their canonical form (the model's form of data). -/
def Obligations.MemoryStaysCanonical : Prop :=
  ∀ s t : State, Memory.wf s.mem = true → step s = .next t → Memory.wf t.mem = true

/-- R4, accesses of a 64-bit register, whole and in halves: the low read latches the high half; the next high read returns the latched
half and empties the latch, or the present half when nothing is latched; a 64-bit read returns the register and empties the latch; the
low write is only held; the high write acts as the 64-bit write of both halves, and empties the buffer. A read of the idle residency of
the present state counts that state up to the read (R443, a free value), and no other read changes a register.
Where it meets a choice of the model and not a rule, the choice is that of log 5. -/
def Obligations.HalvesOfARegister : Prop :=
  ∀ (s : State) (f off x : Nat), f ≤ 1025 → off % 8 = 0 → hostUp s f = true → reg64 s f off = some x →
    (∀ y, reg64 (noteResidency f off s) f off = some y →
      (after (.halfReadLow f { at_ := off }) s fun t => t.reply = .data (y % 2 ^ 32)
        ∧ tabGet none t.hif.latch (halfKey f off) = some (BitVec.ofNat 32 (y / 2 ^ 32))
        ∧ t = { noteResidency f off s with hif := { s.hif with latch := t.hif.latch }, reply := t.reply }
        ∧ ∀ k, k ≠ halfKey f off → tabGet none t.hif.latch k = tabGet none s.hif.latch k)
      ∧ (after (.halfReadLow f { at_ := off, whole := true }) s fun t => t.reply = .data y ∧ tabGet none t.hif.latch (halfKey f off) = none
        ∧ t = { noteResidency f off s with hif := { s.hif with latch := t.hif.latch }, reply := t.reply }
        ∧ ∀ k, k ≠ halfKey f off → tabGet none t.hif.latch k = tabGet none s.hif.latch k))
    ∧ (s.pwr.idle = .active ∨ f ≠ 0 ∨ off ≠ 0x02500048 + 8 * (idleCode s.pwr.idle - 1) →
      noteResidency f off s = s)
    ∧ (after (.halfReadHigh f off) s fun t =>
      t.reply = .data (match tabGet none s.hif.latch (halfKey f off) with | some h => h.toNat | none => x / 2 ^ 32 % 2 ^ 32)
      ∧ tabGet none t.hif.latch (halfKey f off) = none
      ∧ t = { s with hif := { s.hif with latch := t.hif.latch }, reply := t.reply }
      ∧ ∀ k, k ≠ halfKey f off → tabGet none t.hif.latch k = tabGet none s.hif.latch k)
    ∧ (∀ v : W32, after (.halfWriteLow f off v) s fun t => tabGet none t.hif.wbuf (halfKey f off) = some v
      ∧ t = { s with hif := { s.hif with wbuf := t.hif.wbuf }, reply := t.reply }
      ∧ ∀ k, k ≠ halfKey f off → tabGet none t.hif.wbuf k = tabGet none s.hif.wbuf k)
    ∧ (∀ v lo : W32, tabGet none s.hif.wbuf (halfKey f off) = some lo →
      after (.halfWriteHigh f off v) s fun t => tabGet none t.hif.wbuf (halfKey f off) = none
        ∧ exec (.registerWrite f off 64 (v ++ lo)) s = .next t)

/-- R3, R5, R7, R328, R449, R455: a write of a ring's base register takes effect, without its low twelve bits, while the ring is OFF and is ignored
otherwise; an access of a wrong size or alignment returns 0, changes nothing else and is counted; a read of either counter returns and
clears it; HOLD of an event group is written by Sumac alone, and its hold-off timer is Sumac's from the first HOLD other than 0 until a 0
(when that claim is made and released is the model's choice, log 165).
Where it meets a choice of the model and not a rule, the choice is that of log 5, 6 and 31. -/
def Obligations.RegisterAccesses : Prop :=
  (∀ (s : State) (f : Nat), f ≤ 1025 → hostUp s f = true →
    (∀ (r : Nat) (v : W64), r < 16 →
      after (.registerWrite f (0x1000 + 0x80 * r) 64 v) s fun t =>
        ringOf t f r = (if (ringOf s f r).state = .off then { ringOf s f r with sqBase := v &&& ~~~0xFFF#64 } else ringOf s f r)
        ∧ onlyRing f r s { t with hif := { t.hif with wbuf := s.hif.wbuf } })
    ∧ (∀ (bar off size : Nat), (bar = 0 ∨ bar = 2) → 0 < size → badSize s f bar off size = true →
      after (.badSizeAccess f bar off size) s fun t => t.reply = .data 0 ∧ onlyFn f s t
        ∧ fnOf t f = { fnOf s f with badAccess := satAdd 32 (fnOf s f).badAccess 1 })
    ∧ (after (.readDroppedDb f) s fun t => t.reply = .data (fnOf s f).droppedDb.toNat ∧ onlyFn f s t
        ∧ fnOf t f = { fnOf s f with droppedDb := 0 })
    ∧ (after (.readBadAccess f) s fun t => t.reply = .data (fnOf s f).badAccess.toNat ∧ onlyFn f s t
        ∧ fnOf t f = { fnOf s f with badAccess := 0 }))
  ∧ (∀ (s : State) (k n : Nat), running s = true → 2 ≤ k → k < 64 → n < 1024 →
    after (.registerWrite 1026 (0x500 + 4 * k) 32 (BitVec.ofNat 64 n)) s fun t =>
      groupOf t k = { groupOf s k with hold := BitVec.ofNat 10 n } ∧ (∀ j, j ≠ k → groupOf t j = groupOf s j) ∧ (∀ j, j ≠ 0x40 + k → claimOf t j = claimOf s j)
        ∧ ((claimOf s (0x40 + k)).owner = 0 → n ≠ 0 → claimOf t (0x40 + k) = { func := 0, owner := 2 })
        ∧ ((claimOf s (0x40 + k)).owner = 2 → n = 0 → claimOf t (0x40 + k) = {})
        ∧ t = { s with evc := t.evc, rst := { s.rst with claims := t.rst.claims }, reply := t.reply })

/-- R354, R355: ENABLE written as 1 makes an ASSIGNED, DISABLED function ENABLED; where the function is not ASSIGNED it stays DISABLED
and ENABLE reads 0; while the function is DISABLING the write is held and ENABLE reads 0. ENABLE written as 0 starts the shut-down of
an ENABLED function, whose commands get records; an FLR starts it without records, clears a held ENABLE of a DISABLING function and
does not restart its shut-down, and carries out step 4 of R355 on a DISABLED one, whose latched and held halves go too (R356). PART_TEARDOWN starts the shut-down of the
partition's ENABLED functions and clears ASSIGNED. The shut-down ends in DISABLED, or in ENABLED where ENABLE was held and the function
is still ASSIGNED; the keys are gone, every ring is OFF with zero counts and no buffer is registered. That a row needs the module
running is the model's condition (log 5), and that a management request with the stored SEQ answers the stored response is R483. -/
def Obligations.FunctionsEnabledAndShutDown : Prop :=
  (∀ (s : State) (f : Nat), f ≤ 1025 → hostUp s f = true →
      ((fnOf s f).state = .disabled → (fnOf s f).assigned = true →
        after (.fnEnable f) s fun t => (fnOf t f).state = .enabled ∧ onlyFn f s t)
      ∧ ((fnOf s f).state = .disabled → (fnOf s f).assigned = false →
        after (.fnEnable f) s fun t => sameButReply s t ∧ reg32 t f 0 = some 0)
      ∧ ((fnOf s f).state = .disabling →
        (after (.fnEnable f) s fun t => fnOf t f = { fnOf s f with enableHeld := true } ∧ onlyFn f s t ∧ reg32 t f 0 = some 0)
        ∧ after (.flr f) s fun t => fnOf t f = { fnOf s f with enableHeld := false } ∧ onlyFn f s t)
      ∧ ((fnOf s f).state = .enabled →
        after (.fnDisable f) s fun t => (fnOf t f).state = .disabling ∧ (fnOf t f).writeRecords = true ∧ reg32 t f 0 = some 0)
      ∧ ((fnOf s f).state = .enabled →
        after (.flr f) s fun t => (fnOf t f).state = .disabling ∧ (fnOf t f).writeRecords = false ∧ reg32 t f 0 = some 0)
      ∧ ((fnOf s f).state = .disabled →
        after (.flr f) s fun t => onlyFn f s { t with
            hif := { t.hif with cmds := s.hif.cmds, latch := s.hif.latch, wbuf := s.hif.wbuf }
            sec := { t.sec with sessions := s.sec.sessions } }
          ∧ fnOf t f = { fnOf s f with enc := false, keyH2d := 0, keyD2h := 0, rings := [], bufs := [], msix := [] }
          ∧ ∀ off, off < 0x10000 → tabGet none t.hif.latch (halfKey f off) = none ∧ tabGet none t.hif.wbuf (halfKey f off) = none))
  ∧ (∀ (s : State) (q : Req) (f : Nat), hostUp s 0 = true → s.sec.openReq = none → (∀ r, s.sec.stored = some r → r.seq ≠ q.seq) →
    ownerSession s q.sess = true → s.sec.lc = 2 → s.sec.recovery = false → q.malformed = false → (fnOf s f).assigned = true →
    (fnOf s f).part < 64 →
    (partOf s (fnOf s f).part).state = .active → (fnOf s f).state = .enabled →
    after (.partTeardown q (fnOf s f).part) s fun t => (fnOf t f).state = .disabling ∧ (fnOf t f).assigned = false)
  ∧ ∀ (s : State) (f : Nat), f ≤ 1025 → (fnOf s f).state = .disabling →
    cmdsWhere s (fun x => x.fn = f && x.phase != .reported && !x.noRecord) = [] →
    after (.fnShutdownComplete f) s fun t =>
      (fnOf t f).state = (if (fnOf s f).enableHeld && (fnOf s f).assigned then .enabled else .disabled) ∧ (fnOf t f).enableHeld = false
      ∧ (fnOf t f).enc = false ∧ (fnOf t f).keyH2d = 0 ∧ (fnOf t f).keyD2h = 0 ∧ (∀ r, ringOf t f r = {}) ∧ ∀ b, bufOf t f b = {}

/-- R328, R333, R334: a ring is enabled with a SIZE of 6 to 16; clearing EN starts its stop; the stop ends in OFF with zero counts while
ENC is 0; a failed host access puts an ACTIVE ring in ERROR, with ERR 2 for a read and 3 for a write, and sets ERR of a ring that is in
ERROR or stopping (log 135).
Where it meets a choice of the model and not a rule, the choice is that of log 5 and 117. -/
def Obligations.RingStates : Prop :=
  ∀ (s : State) (f r : Nat), f ≤ 1025 → r < 16 →
    (∀ v : W32, hostUp s f = true → v.getLsbD 0 = true → (ringOf s f r).state = .off → (fnOf s f).enc = false →
      6 ≤ bits v.toNat 8 5 → bits v.toNat 8 5 ≤ 16 →
      after (.ringEnable f r v) s fun t => onlyRing f r s t
        ∧ ringOf t f r = { ringOf s f r with size := BitVec.ofNat 5 (bits v.toNat 8 5), en := true, state := .active, err := 0 })
    ∧ (∀ v : W32, hostUp s f = true → v.getLsbD 0 = false → ((ringOf s f r).state = .active ∨ (ringOf s f r).state = .error) →
      after (.ringDisable f r v) s fun t => (ringOf t f r).state = .stopping ∧ (ringOf t f r).en = false)
    ∧ ((ringOf s f r).state = .stopping → inFlight s f r = [] →
      after (.ringStopComplete f r) s fun t => (ringOf t f r).state = .off
        ∧ ((fnOf s f).enc = false → (ringOf t f r).head = 0 ∧ (ringOf t f r).tail = 0 ∧ (ringOf t f r).cqCount = 0
          ∧ (ringOf t f r).cqHead = 0))
    ∧ (∀ w : Bool, (ringOf s f r).state ≠ .off →
      after (.hostAccessFailed f r w) s fun t => onlyRing f r s t
        ∧ ringOf t f r = { ringOf s f r with
            state := if (ringOf s f r).state = .stopping then .stopping else .error, err := if w then 3 else 2 })

/-- R330, R333, R334, R355: to an ACTIVE ring of a function that is not DISABLING, a SQ_TAIL equal to TAIL has no effect; one ahead of
HEAD by 1 to 2^n and of TAIL by less than 2^31, modulo 2^32, becomes TAIL; any other puts the ring in ERROR with ERR 1; a CQ_HEAD from
the CQ head to the records written becomes the CQ head, any other is ERR 1. Every other doorbell is dropped and counted.
Where it meets a choice of the model and not a rule, the choice is that of log 5. -/
def Obligations.Doorbells : Prop :=
  (∀ (s : State) (f r : Nat) (v : W32), f ≤ 1025 → r < 16 → hostUp s f = true → (fnOf s f).state ≠ .disabling →
      (ringOf s f r).state = .active →
      (after (.sqTailDoorbell f r v) s fun t =>
        let q := ringOf s f r
        let ahead := (v.toNat + 2 ^ 32 - q.head % 2 ^ 32) % 2 ^ 32
        let rise := (v.toNat + 2 ^ 32 - q.tail % 2 ^ 32) % 2 ^ 32
        ringOf t f r = (if rise = 0 then q
          else if 0 < ahead ∧ ahead ≤ 2 ^ q.size.toNat ∧ rise < 2 ^ 31 then { q with tail := q.tail + rise }
          else { q with state := .error, err := 1 }))
      ∧ (after (.cqHeadDoorbell f r v) s fun t =>
        let q := ringOf s f r
        let rise := (v.toNat + 2 ^ 32 - q.cqHead % 2 ^ 32) % 2 ^ 32
        ringOf t f r = (if rise ≤ q.cqCount - q.cqHead then { q with cqHead := q.cqHead + rise } else { q with state := .error, err := 1 })))
  ∧ ∀ (s : State) (f r : Nat) (v : W32), f ≤ 1025 → r < 16 → hostUp s f = true →
    ((fnOf s f).state = .disabling ∨ (ringOf s f r).state ≠ .active) →
    ∀ i, i = .sqTailDoorbell f r v ∨ i = .cqHeadDoorbell f r v →
      after i s fun t => onlyFn f s t ∧ fnOf t f = { fnOf s f with droppedDb := satAdd 32 (fnOf s f).droppedDb 1 }

/-- R344, R353, R351, R384: a buffer is registered with ACCESS when its length is a multiple of 4,096 from 4,096 to 2^36 and refused,
counted, otherwise; clearing VALID ends the registration; unmasking sends a pending message, which covers the records written so far; a
coalescing timeout sends the ring's message, by the setting its last record was written under; HIF_RING_SCHED takes CLASS and a SLICE of 1 to 200.
Where it meets a choice of the model and not a rule, the choice is that of log 5 and 117. -/
def Obligations.BuffersVectorsAndClass : Prop :=
  ∀ (s : State) (f : Nat), f ≤ 1025 →
    (∀ (b : Nat) (v : W32), b < 256 → hostUp s f = true → v.getLsbD 0 = true → (bufOf s f b).valid = false →
      after (.bbRegister f b v) s fun t => onlyFn f s t ∧
        (let n := (bufOf s f b).len.toNat
         if n % 4096 = 0 ∧ 4096 ≤ n ∧ n ≤ 2 ^ 36 then
           bufOf t f b = { bufOf s f b with valid := true, access := BitVec.ofNat 2 (bits v.toNat 1 2) }
         else bufOf t f b = bufOf s f b ∧ (fnOf t f).badAccess = satAdd 32 (fnOf s f).badAccess 1))
    ∧ (∀ (b : Nat) (v : W32), b < 256 → hostUp s f = true → v.getLsbD 0 = false →
      after (.bbDeregister f b v) s fun t => onlyBuf f b s t ∧ (bufOf t f b).valid = false)
    ∧ (∀ n : Nat, n < 17 → hostUp s f = true → after (.msixUnmask f n) s fun t => onlyFn f s t
        ∧ vecOf t f n = { vecOf s f n with masked := false, pending := false }
        ∧ t.hif.msgs = s.hif.msgs ++ (if (vecOf s f n).pending then
            [{ fn := f, vector := n, addr := (vecOf s f n).addr, data := (vecOf s f n).data }] else [])
        ∧ ∀ r, ringOf t f r = if r = n ∧ n < 16 ∧ (vecOf s f n).pending = true then { ringOf s f r with sinceMsg := 0 } else ringOf s f r)
    ∧ (∀ r : Nat, r < 16 → (ringOf s f r).countUsed ≠ 0 → (ringOf s f r).sinceMsg ≠ 0 → (vecOf s f r).masked = false →
      after (.msixCoalesceTimeout f r) s fun t => (ringOf t f r).sinceMsg = 0 ∧ onlyRing f r s t
        ∧ t.hif.msgs = s.hif.msgs ++ [{ fn := f, vector := r, addr := (vecOf s f r).addr, data := (vecOf s f r).data }])
    ∧ (∀ (r : Nat) (v : W32), r < 16 → hostUp s f = true → bits v.toNat 2 6 = 0 → bits v.toNat 19 13 = 0 →
      1 ≤ bits v.toNat 8 8 → bits v.toNat 8 8 ≤ 200 →
      after (.ringSchedWrite f r v) s fun t => onlyRing f r s t
        ∧ ringOf t f r = { ringOf s f r with cls := BitVec.ofNat 2 (bits v.toNat 0 2), slice := BitVec.ofNat 8 (bits v.toNat 8 8) })

/-- R175, R174, R377, R379: SEM_SIGNAL adds VALUE to a semaphore of its partition, saturating at 2^32 − 1, and completes; a
wait that the sum meets is satisfied, taking its value when it consumes, and another waits on; a semaphore outside the partition's range is BOUNDS_FAULT 0x743; one that the quota keeps out of use is QUOTA_EXCEEDED 0x741.
Where it meets a choice of the model and not a rule, the choice is that of log 33 and 45. -/
def Obligations.SemaphoreSignals : Prop :=
  ∀ (s : State) (c : Nat), classReady s c 0x20 = true → (cmdOf s c).applied = false →
    let x := cmdOf s c
    let p := homeOf s x.fn
    (∀ n, semNum s p (semIndex x) = some n → (semAmount x = 0 ∨ semOverQuota s p n = false) →
      s.sem.waiters.filter (fun w => w.sem = n) = [] →
      after (.semSignal c) s fun t => ended t c .ok 0 0 0 ∧ (cmdOf t c).applied = true
        ∧ semVal t n = Nat.min (semVal s n + semAmount x) (2 ^ 32 - 1) ∧ (∀ k, k ≠ n → semVal t k = semVal s k)
        ∧ t.sem.waiters = s.sem.waiters ∧ t.mem = s.mem)
    ∧ (∀ n w, semNum s p (semIndex x) = some n → (semAmount x = 0 ∨ semOverQuota s p n = false) →
      s.sem.waiters.filter (fun w => w.sem = n) = [w] →
      let v := Nat.min (semVal s n + semAmount x) (2 ^ 32 - 1)
      after (.semSignal c) s fun t => ended t c .ok 0 0 0 ∧ (∀ k, k ≠ n → semVal t k = semVal s k) ∧ t.mem = s.mem
        ∧ (v < w.value → semVal t n = v ∧ t.sem.waiters = s.sem.waiters)
        ∧ (w.value ≤ v → semVal t n = (if w.consume then v - w.value else v) ∧ t.sem.waiters = s.sem.waiters.erase w
          ∧ (w.consume = true → ∃ h ∈ t.sem.holders, h.sem = n ∧ h.fn = w.fn ∧ h.ring = w.ring)))
    ∧ (semNum s p (semIndex x) = none →
      after (.semSignal c) s fun t => ended t c .boundsFault 0x743 0 0 ∧ onlyEnd c (setReply .nothing s) t)
    ∧ (∀ n, semNum s p (semIndex x) = some n → semAmount x ≠ 0 → semOverQuota s p n = true →
      after (.semSignal c) s fun t => ended t c .quotaExceeded 0x741 0 0 ∧ onlyEnd c (setReply .nothing s) t)

/-- R176, R174, R375: a SEM_WAIT whose value is reached, with no earlier consuming wait before it when it consumes itself, completes at
once; a consuming one takes its value and makes its job a holder. Another is registered last and waits.
Where it meets a choice of the model and not a rule, the choice is that of log 33. -/
def Obligations.SemaphoreWaits : Prop :=
  ∀ (s : State) (c n : Nat), classReady s c 0x21 = true → (cmdOf s c).applied = false →
    let x := cmdOf s c
    semNum s (homeOf s x.fn) (semIndex x) = some n →
    (semAmount x ≤ semVal s n → (semConsume x = true → ∀ w ∈ s.sem.waiters, w.sem = n → w.consume = false) →
      after (.semWait c) s fun t => ended t c .ok 0 0 0 ∧ t.sem.waiters = s.sem.waiters
        ∧ semVal t n = (if semConsume x then semVal s n - semAmount x else semVal s n) ∧ (∀ k, k ≠ n → semVal t k = semVal s k)
        ∧ (semConsume x = true → ∃ h ∈ t.sem.holders, h.sem = n ∧ h.fn = x.fn ∧ h.ring = x.ring)
        ∧ onlyEnd c { setReply .nothing s with sem := t.sem } t)
    ∧ (semVal s n < semAmount x → semOverQuota s (homeOf s x.fn) n = false →
      after (.semWait c) s fun t => (cmdOf t c).waiting = true ∧ (cmdOf t c).phase = .running
        ∧ t.sem = { s.sem with waiters := s.sem.waiters ++ [{ sem := n, value := semAmount x, consume := semConsume x, who := .command c
                                                              fn := x.fn, ring := x.ring }] }
        ∧ t.mem = s.mem)
    ∧ (semVal s n < semAmount x → semOverQuota s (homeOf s x.fn) n = true →
      after (.semWait c) s fun t => ended t c .quotaExceeded 0x741 0 0 ∧ onlyEnd c (setReply .nothing s) t)

/-- R341, R206, R208, R378, R380, R382: a FENCE completes at once when every earlier command of its ring and of the rings it names has
ended, and waits for those that have not otherwise; QUOTA_SET sets the quota of its kind within the limit that R380 gives and completes,
and one beyond it is QUOTA_EXCEEDED 0x740 and sets nothing; a share comes into force at the end of each stack's window, which starts its
budgets anew, and the QUOTA_SET that set it completes when it has in all eight.
Where it meets a choice of the model and not a rule, the choice is that of log 33 and 142. -/
def Obligations.FencesQuotasAndShares : Prop :=
  (∀ (s : State) (c : Nat), classReady s c 0x22 = true →
      (fenceTargets s c = [] → after (.fence c) s fun t => ended t c .ok 0 0 0 ∧ onlyEnd c (setReply .nothing s) t)
      ∧ (fenceTargets s c ≠ [] → after (.fence c) s fun t => (cmdOf t c).waiting = true ∧ (cmdOf t c).waitFor = fenceTargets s c
          ∧ (∀ d, d ≠ c → cmdOf t d = cmdOf s d) ∧ t.mem = s.mem ∧ t.sem = s.sem))
  ∧ (∀ (s : State) (c : Nat), classReady s c 0x40 = true → quotaMalformed (quotaKind (cmdOf s c)) (quotaValue (cmdOf s c)) = false →
    quotaTarget (cmdOf s c) < 64 → (partOf s (quotaTarget (cmdOf s c))).state = .active →
    let x := cmdOf s c
    let p := quotaTarget x
    (quotaBeyond s p (quotaKind x) (quotaValue x) = true →
      after (.quotaSet c) s fun t => ended t c .quotaExceeded 0x740 0 0 ∧ onlyEnd c (setReply .nothing s) t)
    ∧ (quotaBeyond s p (quotaKind x) (quotaValue x) = false → quotaKind x ≠ 3 →
      after (.quotaSet c) s fun t => ended t c .ok 0 0 0
        ∧ (partOf t p).kvQuota = (if quotaKind x = 0 then quotaValue x else (partOf s p).kvQuota)
        ∧ (partOf t p).slotQuota = (if quotaKind x = 1 then quotaValue x else (partOf s p).slotQuota)
        ∧ (partOf t p).semQuota = (if quotaKind x = 2 then quotaValue x else (partOf s p).semQuota)
        ∧ (partOf t p).share = (partOf s p).share ∧ t.mem = s.mem ∧ t.kvt = s.kvt)
    ∧ (quotaBeyond s p 3 (quotaValue x) = false → quotaKind x = 3 →
      after (.quotaSet c) s fun t => (cmdOf t c).waiting = true ∧ (cmdOf t c).waitFor = [0, 1, 2, 3, 4, 5, 6, 7]
        ∧ (partOf t p).share = bits (quotaValue x) 0 11 ∧ (partOf t p).cap = bit (quotaValue x) 16
        ∧ t.mem = s.mem ∧ ∀ d, d ≠ c → cmdOf t d = cmdOf s d))
  ∧ ∀ (s : State) (st : Nat), st < 8 → running s = true →
    after (.bwWindowRollover st) s fun t =>
      (tabGet [] s.mem.bwHeld st = [] →
        (∀ p, p < 64 → tabGet 0 t.mem.shareNow (st * 64 + p) = shareInForce s p ∧ tabGet 0 t.mem.bwUsed (st * 64 + p) = 0)
        ∧ t.mem = { s.mem with shareNow := t.mem.shareNow, bwUsed := t.mem.bwUsed } ∧ t.sem = s.sem ∧ t.kvt = s.kvt
        ∧ ∀ c, (cmdOf s c).phase = .running → (cmdOf s c).waiting = true → cmdClass (cmdOf s c) = 0x40 →
          ((∀ k ∈ (cmdOf s c).waitFor, k = st) → ended t c .ok 0 0 0)
          ∧ ((∃ k ∈ (cmdOf s c).waitFor, k ≠ st) → (cmdOf t c).phase = .running
            ∧ (cmdOf t c).waitFor = (cmdOf s c).waitFor.filter (· ≠ st)))

/-- R268, R275, R239, R215: KV_ALLOC, KV_FORK, KV_COMMIT and KV_FREE, with no earlier command on their record and nothing that
holds their accesses, apply all their changes and complete with OK and their RESULT, or apply none and report the first fault of R278,
in the completion and in the frame table's fault registers; while programs defer their accesses they wait for the banks' yields, which
each Clove counts (log 29).
Where it meets a choice of the model and not a rule, the choice is that of log 32, 54, 55 and 56. -/
def Obligations.KvCommandsApplyAllOrNothing : Prop :=
  ∀ (s : State) (c cls : Nat) (i : Instr) (work : Cmd → Kv → Kv × Nat),
    ((i = .kvAlloc c ∧ cls = 0x10 ∧ work = kvAllocWork) ∨ (i = .kvFork c ∧ cls = 0x11 ∧ work = kvForkWork)
      ∨ (i = .kvCommit c ∧ cls = 0x12 ∧ work = kvCommitWork) ∨ (i = .kvFree c ∧ cls = 0x13 ∧ work = kvFreeWork)) →
    classReady s c cls = true → (cmdOf s c).applied = false → kvBehind s c = false →
    let x := cmdOf s c
    let p := homeOf s x.fn
    let v := setReply .nothing s
    let u := noteRecords p (field x 8 8 :: if cls = 0x11 then [field x 16 8] else []) v
    let z := kvWork work x u
    let l := kvTouches (kvWork work x v).1
    let far := kvFar (kvWork work x v).1
    (accessClear v (2 * c) p l far →
      (kvFault z.1 = none → after i s fun t => ended t c .ok 0 z.2 0 ∧ (cmdOf t c).applied = true
        ∧ onlyEnd c (kvNote z.1 z.1.s) t)
      ∧ (∀ e, kvFault z.1 = some e → after i s fun t => ended t c e.st e.cause 0 e.list
        ∧ onlyEnd c (kvRecordFault e (kvNote z.1 u)) t ∧ t.kvt.frames = s.kvt.frames))
    ∧ (accessDefers v (2 * c) p l far → after i s fun t => accessAsked (2 * c) (devDeferred v p l) s t)

/-- R258, R259, R260: a frame taken is HELD once, by the taker's partition and function, and wiped first when another function held it
last; a reference given up leaves it HELD by the others, and the last one leaves it FREE. -/
def Obligations.FramesTakenAndReleased : Prop :=
  (∀ (r : KvRec) (p fn n : Nat) (x : Frame) (s : State), let t := installFrame r p fn n x s
    (frameOf t n).state = .held ∧ (frameOf t n).refcnt = 1 ∧ (frameOf t n).owner = p ∧ (frameOf t n).vf = fn
      ∧ (frameOf t n).retired = (frameOf s n).retired ∧ (∀ m, m ≠ n → frameOf t m = frameOf s m)
      ∧ ((frameOf s n).vf = fn → t.mem = s.mem ∧ t.kvt.wipes = s.kvt.wipes)
      ∧ ((frameOf s n).vf ≠ fn → tabGet 0 t.kvt.wipes p = satAdd 32 (tabGet 0 s.kvt.wipes p) 1
        ∧ ∀ i, 8 * i + 8 ≤ r.u → rawWord t (n / 4096) (n % 4096 * 16384 + 8 * i) = (0, 0)))
  ∧ ∀ (n : Nat) (s : State), let t := frameRelease n s
    (2 ≤ (frameOf s n).refcnt → frameOf t n = { frameOf s n with refcnt := (frameOf s n).refcnt - 1 })
      ∧ ((frameOf s n).refcnt ≤ 1 → (frameOf t n).state = .free ∧ (frameOf t n).vf = (frameOf s n).vf
        ∧ (frameOf t n).retired = (frameOf s n).retired)
      ∧ ∀ m, m ≠ n → frameOf t m = frameOf s m

/-- R305, R307, R290, R381: ADAPTER_LOAD of a resident adapter answers its slot and of another, with nothing that holds its accesses, loads it,
or fails with the first fault of R320; ADAPTER_EVICT that no STEP before it holds empties the slot, or completes where the adapter is not resident; MODEL_SWAP fills its
slot from a valid image with room for its sections, or leaves it EMPTY where a section reads poisoned; EVICT of one adapter slot takes the
least recently used of those beyond the quota that no started STEP uses, when there is one.
Where it meets a choice of the model and not a rule, the choice is that of log 24, 59 and 123. -/
def Obligations.AdaptersAndModels : Prop :=
  ∀ (s : State) (c : Nat), let x := cmdOf s c
    let p := homeOf s x.fn
    let v := setReply .nothing s
    (classReady s c 0x18 = true →
      (∀ i, residentIn s p (field x 8 4) = some i → after (.adapterLoad c) s fun t => ended t c .ok 0 i 0
        ∧ adapterOf t p i = { adapterOf s p i with pin := (adapterOf s p i).pin || bit (field x 14 1) 0 } ∧ t.mem = s.mem)
      ∧ (residentIn s p (field x 8 4) = none →
        match loadAdapter x p (field x 8 4) (field x 12 2) (bit (field x 14 1) 0) (busySlots v p x) v with
        | .inr (i, u) => accessClear v (2 * c) p (slotRange u p i) (adapterFar v p (field x 8 4)) → after (.adapterLoad c) s fun t => ended t c .ok 0 i 0 ∧ onlyEnd c u t ∧ (adapterOf t p i).state = .ready
          ∧ (adapterOf t p i).dir = field x 8 4
        | .inl f => accessClear v (2 * c) p [] (adapterFar v p (field x 8 4)) →
          after (.adapterLoad c) s fun t => ended t c f.1 f.2 0 0 ∧ onlyEnd c (loadNote p (field x 8 4) f.1 v) t))
    ∧ (classReady s c 0x19 = true → (∀ d ∈ startedBefore s c 0x04, (stepUses s d).2.contains (field x 8 4) = false) →
      (∀ i, residentIn s p (field x 8 4) = some i → after (.adapterEvict c) s fun t => ended t c .ok 0 0 0 ∧ adapterOf t p i = {}
        ∧ (∀ k, k ≠ i → adapterOf t p k = adapterOf s p k) ∧ t.mem = s.mem)
      ∧ (residentIn s p (field x 8 4) = none → after (.adapterEvict c) s fun t => ended t c .ok 0 0 0
        ∧ onlyEnd c (setReply .nothing s) t))
    ∧ (classReady s c 0x1A = true → field x 24 1 < 16 → (∀ d ∈ startedBefore s c 0x04, (stepUses s d).1 ≠ field x 24 1) →
      (∀ d ∈ startedBefore s c 0x1A, swapSlot (cmdOf s d) ≠ field x 24 1) →
      let image := field x 8 8
      let r := modelRead v p image (field x 16 8)
      accessClear v (2 * c) p (swapTouches v x) [(image, field x 16 8)] →
      ∀ a b, farOk s p image (field x 16 8) = true → 256 ≤ field x 16 8 → image % 64 = 0 → r.1 = true → r.2.2.2 = false →
        placeModel s p (field x 24 1) (sectionBytes r.2.2.1 false) false = some a →
        placeModel s p (field x 24 1) (sectionBytes r.2.2.1 true) true = some b → (chosenMover s).isSome = true →
        let u := farNote p image (256 + 32 * r.2.2.1.length) v
        let bad := r.2.2.1.any fun e => (farGet u p (image + e.off) e.size).2
        after (.modelSwap c) s fun t => t = storeModel c p (field x 24 1) image r.2.1 r.2.2.1 a b u
          ∧ (bad = false → ended t c .ok 0 (sectionBytes r.2.2.1 true + sectionBytes r.2.2.1 false) 0
            ∧ tabGet {} (partOf t p).models (field x 24 1) = { r.2.1 with sections := r.2.2.1, place := a, localPlace := b })
          ∧ (bad = true → ended t c .poisonConsumed 0x550 0 0 ∧ tabGet {} (partOf t p).models (field x 24 1) = {}))
    ∧ (classReady s c 0x41 = true → x.applied = false → evictPart x s < 64 → (partOf s (evictPart x s)).state = .active → evictKind x = 1 →
      evictTarget x = 1 → ∀ i, lruSlot s (evictPart x s) (busySlots v (evictPart x s) x) (fun k => decide ((partOf s (evictPart x s)).slotQuota ≤ k)) = some i →
      after (.evict c) s fun t => ended t c .ok 0 0 0 ∧ adapterOf t (evictPart x s) i = {}
        ∧ (∀ k, k ≠ i → adapterOf t (evictPart x s) k = adapterOf s (evictPart x s) k) ∧ t.mem = s.mem ∧ t.kvt = s.kvt)

/-- R113, R339, R201, R207, R239: a RUN that no check refuses, with nothing that holds the read of its table, starts every core of its table at its stream, with seed and stream number, an empty queue,
clear fault registers and its scratchpad as it stands; a RUN of no core or more than 256 is DESC_FAULT 0x604, a misaligned table
ALIGN_FAULT 0x620; a read that programs defer is asked for at its banks.
Where it meets a choice of the model and not a rule, the choice is that of log 35 and 41. -/
def Obligations.RunStartsItsCores : Prop :=
  ∀ (s : State) (c : Nat), classReady s c 0x02 = true → coresOf s c = [] →
    let x := cmdOf s c
    let p := homeOf s x.fn
    let v := setReply .nothing s
    let l := if runHost x ∨ ¬runReads x then [] else [(runTable x, 16 * runCores x)]
    let es := coreEntries (bodyGet v x (runHost x) (runTable x) (16 * runCores x)).2.1 (runCores x)
    hostHeld v x.fn (runHost x) = false →
    (accessDefers v (2 * c) p l [] → (runFault v x = none → runBusy v x = false) →
      after (.run c) s fun t => accessAsked (2 * c) (devDeferred v p l) s t)
    ∧ (accessClear v (2 * c) p l [] →
    (runFault v x = none → (∀ e ∈ es, isAside s p e.index = false ∧ (indexImage s p e.index).core.run = 0
        ∧ (indexImage s p e.index).core.state ≠ .deconfigured) → (es.map fun e => physCore s p e.index).Nodup →
      after (.run c) s fun t => (cmdOf t c).phase = .running
        ∧ (∀ e ∈ es, ∀ n, physCore s p e.index = some n →
          (coreOf t n).state = .running ∧ (coreOf t n).run = c ∧ (coreOf t n).pidx = e.index ∧ (coreOf t n).fetchAddr = e.stream
          ∧ (coreOf t n).fetchLeft = e.len ∧ (coreOf t n).queue = [] ∧ (coreOf t n).faultStatus = 0
          ∧ (coreOf t n).seed = BitVec.ofNat 64 (field x 16 8) ∧ (coreOf t n).stream = BitVec.ofNat 64 (field x 24 8))
        ∧ (∀ n, (∀ e ∈ es, physCore s p e.index ≠ some n) → coreOf t n = coreOf s n) ∧ (∀ n, spadOf t n = spadOf s n))
    ∧ ((runCores x < 1 ∨ 256 < runCores x) →
      after (.run c) s fun t => ended t c .descFault 0x604 0 0 ∧ onlyEnd c (setReply .nothing s) t)
    ∧ (1 ≤ runCores x → runCores x ≤ 256 → runTable x % 16 ≠ 0 →
      after (.run c) s fun t => ended t c .alignFault 0x620 0 0 ∧ onlyEnd c (setReply .nothing s) t))

/-- R81, R84, R85, R111, R112, R114: NOP, AG_SET, ACQUIRE, YIELD_POINT without a pending suspension and JUMP leave the head of the queue
with their effect on their own core: AG_SET loads its generator with every index 0, JUMP discards the words fetched after it and goes on
at ADDR.
Where it meets a choice of the model and not a rule, the choice is that of log 19 and 20. -/
def Obligations.PlainControlWords : Prop :=
  ∀ (s : State) (n : Nat) (q : QWord) (rest : List QWord), n < 256 →
    (wordReady s n 0x00 q rest → after (.nop n) s fun t => onlyCore n s t ∧ spadOf t n = spadOf s n
      ∧ coreOf t n = { coreOf s n with queue := rest, cycles := (coreOf t n).cycles })
    ∧ (wordReady s n 0x01 q rest → after (.agSet n) s fun t => onlyCore n s t ∧ spadOf t n = spadOf s n
      ∧ (∀ k, tabGet {} (coreOf t n).ags k = if k = cw q.w.toNat 64 4 then agSetOf q.w.toNat else tabGet {} (coreOf s n).ags k)
      ∧ coreOf t n = { coreOf s n with queue := rest, cycles := (coreOf t n).cycles, ags := (coreOf t n).ags })
    ∧ (wordReady s n 0x12 q rest → cw q.w.toNat 64 2 = 0 → after (.acquire n) s fun t => onlyCore n s t ∧ spadOf t n = spadOf s n
      ∧ coreOf t n = { coreOf s n with queue := rest, cycles := (coreOf t n).cycles })
    ∧ (wordReady s n 0x12 q rest → cw q.w.toNat 64 2 = 1 → after (.acquire n) s fun t => onlyCore n s t ∧ spadOf t n = spadOf s n
      ∧ (coreOf t n).tiles = (coreOf s n).tiles ∧ (coreOf t n).ags = (coreOf s n).ags
      ∧ ((coreOf s n).fetchHost = true → (coreOf t n).queue = rest))
    ∧ (wordReady s n 0x13 q rest → (coreOf s n).suspendReq = false → after (.yieldPoint n) s fun t => onlyCore n s t
      ∧ spadOf t n = spadOf s n ∧ coreOf t n = { coreOf s n with queue := rest, cycles := (coreOf t n).cycles })
    ∧ (wordReady s n 0x20 q rest → after (.jump n) s fun t => onlyCore n s t ∧ spadOf t n = spadOf s n
      ∧ coreOf t n = { coreOf s n with
          queue := [], cycles := (coreOf t n).cycles, fetchHost := cw q.w.toNat 64 2 = 1, fetchAddr := cw q.w.toNat 128 64
          fetchOff := 0, fetchLeft := cw q.w.toNat 192 24 })

/-- R86, R88, R90, R94 to R98, R100, R102 to R104, R119: a datapath word does its steps in order on its core and scratchpad, from the step
count that a suspension left, and leaves the queue; a step that faults ends the RUN with the fault, the steps before it stand, and the
core's fault registers name the word (R116, R121, R122).
Where it meets a choice of the model and not a rule, the choice is that of log 19, 36, 37, 38, 39, 131, 132, 133, 134, 136, 137, 138, 139 and 140. -/
def Obligations.DatapathWords : Prop :=
  ∀ (s : State) (n op : Nat) (i : Instr) (k : QWord → Nat) (step : QWord → Nat → Saf → Except Flt Saf) (q : QWord) (rest : List QWord),
    n < 256 →
    ((i = .anchorLoad n ∧ op = 0x02 ∧ (k = fun q => cwRepeat q.w.toNat) ∧ step = fun q => ancLoadStep q.w.toNat)
      ∨ (i = .tileMac n ∧ op = 0x03 ∧ (k = fun q => cwRepeat q.w.toNat)
        ∧ step = fun q => tileMacStep q.w.toNat (wordRnd (coreOf s n) q.w.toNat))
      ∨ (i = .tileDrain n ∧ op = 0x04 ∧ (k = fun _ => 1)
        ∧ step = fun q _ => drainStep (drainOf q.w.toNat (wordRnd (coreOf s n) q.w.toNat)))
      ∨ (i = .tileLoad n ∧ op = 0x05 ∧ (k = fun _ => 1) ∧ step = fun q _ => loadStep q.w.toNat)
      ∨ (i = .vec n ∧ op = 0x08 ∧ (k = fun q => cwRepeat q.w.toNat)
        ∧ step = fun q => vecStep q.w.toNat (wordRnd (coreOf s n) q.w.toNat))) →
    wordReady s n op q rest →
    let x := coreOf s n
    let z := runSteps (step q) (k q - x.wstep) x.wstep { core := x, spad := spadOf s n, red := x.red, redPoison := x.redPoison }
    (z.2.2 = none → after i s fun t => onlyCore n s t ∧ spadOf t n = z.1.spad
      ∧ coreOf t n = { z.1.core with queue := z.1.core.queue.drop 1, cycles := (coreOf t n).cycles
                                     steps := satAdd 64 z.1.core.steps (z.2.1 - x.wstep)
                                     wstep := 0, red := [], redPoison := false })
    ∧ (∀ e, z.2.2 = some e → z.1.core.run = x.run → z.1.core.pidx = x.pidx → after i s fun t =>
      (cmdOf t (coreOf s n).run).status = e.1 ∧ (cmdOf t (coreOf s n).run).cause = e.2
        ∧ (cmdOf t (coreOf s n).run).index = (coreOf s n).pidx ∧ spadOf t n = z.1.spad
        ∧ (coreOf t n).faultOp = BitVec.ofNat 8 op ∧ (coreOf t n).faultCause = BitVec.ofNat 12 e.2
        ∧ (coreOf t n).faultPos = BitVec.ofNat 64 q.off)

/-- R109, R110, R174, R177: SIGNAL adds VALUE to its semaphore and WAIT passes when its value is reached and no earlier consuming wait
stands before it; another WAIT is registered and holds the core. An operation that an earlier run of the group applied is passed.
Where it meets a choice of the model and not a rule, the choice is that of log 19 and 46. -/
def Obligations.SignalAndWaitWords : Prop :=
  ∀ (s : State) (n k : Nat) (q : QWord) (rest : List QWord), n < 256 →
    semNum s (coreOf s n).part (cw q.w.toNat 64 16) = some k →
    let v := cw q.w.toNat 80 32
    (wordReady s n 0x10 q rest → semReplayed s n = false → s.sem.waiters.filter (fun w => w.sem = k) = [] →
      after (.signal n) s fun t => semVal t k = Nat.min (semVal s k + v) (2 ^ 32 - 1) ∧ (∀ m, m ≠ k → semVal t m = semVal s m)
        ∧ (∀ m, spadOf t m = spadOf s m) ∧ t.mem = s.mem)
    ∧ (wordReady s n 0x10 q rest → semReplayed s n = true → after (.signal n) s fun t => onlyCore n s t
        ∧ (coreOf t n).queue = rest ∧ (coreOf t n).semSeen = (coreOf s n).semSeen + 1)
    ∧ (wordReady s n 0x11 q rest → semReplayed s n = true → after (.wait n) s fun t => onlyCore n s t
        ∧ (coreOf t n).queue = rest ∧ (coreOf t n).semSeen = (coreOf s n).semSeen + 1)
    ∧ (wordReady s n 0x11 q rest → semReplayed s n = false → v ≤ semVal s k →
      (bit q.w.toNat 112 = true → ∀ w ∈ s.sem.waiters, w.sem = k → w.consume = false) →
      after (.wait n) s fun t => (coreOf t n).queue = rest ∧ (coreOf t n).held = (coreOf s n).held
        ∧ semVal t k = (if bit q.w.toNat 112 then semVal s k - v else semVal s k) ∧ (∀ m, m ≠ k → semVal t m = semVal s m)
        ∧ t.sem.waiters = s.sem.waiters ∧ t.mem = s.mem ∧ ∀ m, spadOf t m = spadOf s m)
    ∧ (wordReady s n 0x11 q rest → semReplayed s n = false → semVal s k < v →
      after (.wait n) s fun t => (coreOf t n).held = true
        ∧ t.sem = { s.sem with waiters := s.sem.waiters ++ [{ sem := k, value := v, consume := bit q.w.toNat 112, who := .word (coreOf s n).run (coreOf s n).pidx
                                                              fn := (coreJob s n).1, ring := (coreJob s n).2 }] }
        ∧ t.mem = s.mem ∧ ∀ m, spadOf t m = spadOf s m)

/-- R116, R120, R65: END of the last core of a RUN completes it: OK, or POISON_CONSUMED 0x042 with the index of a core that consumed
poison; END of another core only ends that core.
Where it meets a choice of the model and not a rule, the choice is that of log 44. -/
def Obligations.EndOfARun : Prop :=
  ∀ (s : State) (n : Nat) (q : QWord) (rest : List QWord), n < 256 → wordReady s n 0x3F q rest →
    let c := (coreOf s n).run
    ((coresOf s c = [n] → (partOf s (homeOf s (cmdOf s c).fn)).swapped.filter (fun e => e.2.core.run = c) = [] →
      after (.endWord n) s fun t =>
        (if (coreOf s n).poisoned then ended t c .poisonConsumed 0x042 0 (Nat.min 256 (coreOf s n).pidx) else ended t c .ok 0 0 0)
        ∧ (cmdOf t c).flags = (coreOf s n).flags ∧ (coreOf t n).run = 0 ∧ (coreOf t n).state = .idle ∧ spadOf t n = spadOf s n
        ∧ t.mem = s.mem)
    ∧ (∀ m, m ≠ n → m ∈ coresOf s c → (coreOf s m).done = false →
      after (.endWord n) s fun t => (coreOf t n).done = true ∧ (coreOf t n).state = .idle ∧ (∀ d, cmdOf t d = cmdOf s d)
        ∧ (∀ m, m ≠ n → coreOf t m = coreOf s m) ∧ ∀ m, spadOf t m = spadOf s m))

/-- R81, R121, R114, R120: a word whose OP is reserved ends its RUN with DESC_FAULT 0x001; a stream that has run out before END with
DESC_FAULT 0x007, at a misaligned address with ALIGN_FAULT 0x021; otherwise a block of up to 16 words is fetched when it fits the
queue, where no chunk move, spent budget, EXCLUSIVE window or lost host link stands in the way (R201, R207, R239, R505); a poisoned word of device memory before any word out of
range ends the RUN at once with POISON_CONSUMED 0x041, an unauthenticated one of host memory with 0x650.
Where it meets a choice of the model and not a rule, the choice is that of log 34. -/
def Obligations.StreamFetchAndReservedWords : Prop :=
  ∀ (s : State) (n : Nat), n < 256 → running s = true → coreLive (coreOf s n) = true →
    let x := coreOf s n
    let failed := fun (t : State) (st : Status) (cause op pos : Nat) => (cmdOf t x.run).status = st ∧ (cmdOf t x.run).cause = cause
      ∧ (cmdOf t x.run).index = x.pidx ∧ (coreOf t n).faultOp = BitVec.ofNat 8 op ∧ (coreOf t n).faultCause = BitVec.ofNat 12 cause
      ∧ (coreOf t n).faultPos = BitVec.ofNat 64 pos
    (∀ q rest, x.queue = q :: rest → coreIssues s n = true → opCodes.contains (q.w.toNat % 256) = false →
      after (.reservedControlWord n) s fun t => failed t .descFault 0x001 (q.w.toNat % 256) q.off)
    ∧ (x.fetchLeft = 0 → x.queue = [] → after (.streamFetch n) s fun t => failed t .descFault 0x007 0 x.fetchOff)
    ∧ (x.fetchLeft ≠ 0 → x.fetchAddr % 64 ≠ 0 → after (.streamFetch n) s fun t => failed t .alignFault 0x021 0 x.fetchOff)
    ∧ (x.fetchLeft ≠ 0 → x.fetchAddr % 64 = 0 → x.queue.length + Nat.min 16 x.fetchLeft ≤ 64 →
      hostHeld s (cmdOf s x.run).fn x.fetchHost = false →
      accessClear (setReply .nothing s) (2 * n + 1) x.part (if x.fetchHost then [] else [(x.fetchAddr, 64 * Nat.min 16 x.fetchLeft)]) [] →
      let k := Nat.min 16 x.fetchLeft
      (∀ i, i < k → (∀ j, j < i → (fetchWordAt s x j).1 = true ∧ (fetchWordAt s x j).2.2 = false) →
        (fetchWordAt s x i).1 = true → (fetchWordAt s x i).2.2 = true →
        after (.streamFetch n) s fun t => failed t .poisonConsumed (if x.fetchHost then 0x650 else 0x041) 0 (x.fetchOff + 64 * i)
          ∧ ∀ m, spadOf t m = spadOf s m)
      ∧ ((∀ i, i < k → (fetchWordAt s x i).1 = true ∧ (fetchWordAt s x i).2.2 = false) → after (.streamFetch n) s fun t => (coreOf t n).queue.length = x.queue.length + k
        ∧ (∀ i, i < k → (coreOf t n).queue[x.queue.length + i]? = some
            { w := BitVec.ofNat 512 (leNat (fetchWordAt s x i).2.1), off := x.fetchOff + 64 * i })
        ∧ (coreOf t n).fetchAddr = x.fetchAddr + 64 * k ∧ (coreOf t n).fetchLeft = x.fetchLeft - k
        ∧ (∀ m, m ≠ n → coreOf t m = coreOf s m) ∧ ∀ m, spadOf t m = spadOf s m))

/-- R112, R117, R377: a YIELD_POINT does nothing unless a suspension is pending; a pending one stops the core at its start, or where the
grace runs out: then a datapath word at hand has done fewer than all its remaining steps, their number being free (log 141), and keeps
its step count and its reduction, a step of them that faults ends the RUN, and any other word has not begun; a stop at the start of a word
with a hint drops the scratchpad segments it does not name (R118); the save of a stopped core ends with CORE_SAVE_COMPLETE; a wait whose inheritance budget runs out ends with
SEM_INHERIT_EXPIRED and consumes nothing, and where no other wait can be served nothing else about the semaphores changes.
Where it meets a choice of the model and not a rule, the choice is that of log 43 and 46. -/
def Obligations.CoreStopsAndBudgets : Prop :=
  (∀ (s : State) (n : Nat), n < 256 → running s = true →
    (∀ q rest, wordReady s n 0x13 q rest → (coreOf s n).suspendReq = true →
      after (.yieldPoint n) s fun t => (coreOf t n).state = .suspended ∧ (coreOf t n).suspendReq = false
        ∧ (coreOf t n).saving = true ∧ (coreOf t n).queue = q :: rest)
    ∧ (∀ q rest, wordReady s n 0x13 q rest → (coreOf s n).suspendReq = false →
      after (.yieldPoint n) s fun t => onlyCore n s t ∧ spadOf t n = spadOf s n
        ∧ coreOf t n = { coreOf s n with queue := rest, cycles := (coreOf t n).cycles })
    ∧ (coreLive (coreOf s n) = true → (coreOf s n).suspendReq = true → (coreOf s n).graceRun = true →
      let x := coreOf s n
      let kept := fun (i : Nat) (sp : Space) => match x.queue with
        | q :: _ => if bit q.w.toNat 463 && decide (i = 0) then dropSegments (BitVec.ofNat 48 (bits q.w.toNat 464 48)) sp else sp
        | [] => sp
      ((x.keepWait = true → ∀ v ∈ s.sem.waiters, semVal s v.sem < v.value) → (∀ q rest, x.queue = q :: rest → wordSteps x q.w.toNat = none ∨ (decodeFault s x q.w.toNat).isSome = true) →
        after (.yieldGraceExpired n) s fun t => (coreOf t n).state = .suspended ∧ (coreOf t n).suspendReq = false
          ∧ (coreOf t n).queue = x.queue ∧ (coreOf t n).wstep = x.wstep ∧ spadOf t n = kept x.wstep (spadOf s n))
      ∧ ∀ q rest m step, x.held = false → x.queue = q :: rest → wordSteps x q.w.toNat = some (m, step) → decodeFault s x q.w.toNat = none →
        ∃ j, j < Nat.max 1 (m - x.wstep) ∧
          (let z := runSteps step j x.wstep { core := x, spad := spadOf s n, red := x.red, redPoison := x.redPoison }
           coreLive z.1.core = true → z.1.core.held = false → z.1.core.run = x.run → z.1.core.pidx = x.pidx → z.1.core.queue = x.queue →
           after (.yieldGraceExpired n) s fun t =>
             (match z.2.2 with
               | none => spadOf t n = kept z.2.1 z.1.spad ∧ (coreOf t n).state = .suspended ∧ (coreOf t n).suspendReq = false ∧ (coreOf t n).queue = x.queue
                 ∧ (coreOf t n).wstep = z.2.1 ∧ (coreOf t n).red = z.1.red ∧ (coreOf t n).redPoison = z.1.redPoison
               | some e => spadOf t n = z.1.spad ∧ (cmdOf t x.run).status = e.1 ∧ (cmdOf t x.run).cause = e.2 ∧ (cmdOf t x.run).index = x.pidx)))
    ∧ ((coreOf s n).state = .suspended → (coreOf s n).saving = true →
      after (.coreSaveComplete n) s fun t => onlyCore n s t ∧ coreOf t n = { coreOf s n with saving := false }
        ∧ spadOf t n = spadOf s n))
  ∧ ∀ (s : State) (c : Nat) (w : Waiter), running s = true → s.sem.waiters.find? (fun v => v.who = .command c) = some w →
    causesInheritance s w = true →
    after (.inheritBudgetExpired (.command c)) s fun t => ended t c .semInheritExpired 0x742 0 0 ∧ t.mem = s.mem
      ∧ ((∀ v ∈ s.sem.waiters.erase w, semVal s v.sem < v.value) →
        t.sem.waiters = s.sem.waiters.erase w ∧ ∀ k, semVal t k = semVal s k)

/-- R219, R222, R223, R226, R227: a Clove instruction that touches nothing but its program makes of it what its row says, the pc stands
behind the instruction, INSTRET counts it and the cycle counter moves by a free value (log 20); no other program, Clove, bank or register
of the device changes.
Where it meets a choice of the model and not a rule, the choice is that of log 66, 67 and 68. -/
def Obligations.CloveInstructionsRetire : Prop :=
  ∀ (g : Nat) (i : Instr) (row : Nat → Bool) (f : Nat → CloveProg → Except Flt CloveProg) (s : State) (q q1 : CloveProg) (w len : Nat),
    g < 4096 → (i, row, f) ∈ pureRows g → cloveReady s g q w len → row w = true →
    f w { q with pc := q.pc + BitVec.ofNat 32 len } = .ok q1 → q1.stalled = false →
    after i s fun t => ∃ k : W64,
      onlyProg g q { q1 with stalled := false, instret := q1.instret + 1, cycle := q1.cycle + k } s t

/-- R251, R252: a Clove instruction that finds a fault ends its BANK_RUN with that fault and the program's launch entry; with no other
program on it, the Clove's fault registers hold status, cause and the pc of the instruction.
Where it meets a choice of the model and not a rule, the choice is that of log 66, 67, 68 and 69. -/
def Obligations.CloveInstructionsFault : Prop :=
  ∀ (g : Nat) (i : Instr) (row : Nat → Bool) (f : Nat → CloveProg → Except Flt CloveProg) (s : State) (q : CloveProg) (w len : Nat)
    (e : Flt), g < 4096 → (i, row, f) ∈ pureRows g → cloveReady s g q w len → row w = true →
    f w { q with pc := q.pc + BitVec.ofNat 32 len } = .error e →
    after i s fun t => (cmdOf t q.cmd).phase = .done ∧ (cmdOf t q.cmd).status = e.1 ∧ (cmdOf t q.cmd).cause = e.2
      ∧ (cmdOf t q.cmd).index = q.launch ∧ (cmdOf t q.cmd).flags = bankFlags s q.cmd
      ∧ ((cloveOf s g).progs = [q] → (cloveOf s g).waiting = [] → (cloveOf t g).faultStatus = BitVec.ofNat 8 (statusCode e.1)
        ∧ (cloveOf t g).faultCause = BitVec.ofNat 12 e.2 ∧ (cloveOf t g).faultPc = q.pc ∧ (cloveOf t g).state = .idle)

/-- R225, R227, R247, R65: BV.ADD, SUB, MUL, MAX, MIN, EXP2SUB and MIX2 write every lane of their destination with the rounded function of
the two source lanes, its poison when either source has any, and nothing else but the numeric flags and, in stochastic mode, the index.
Where it meets a choice of the model and not a rule, the choice is that of log 4 and 68. -/
def Obligations.ElementwiseLanes : Prop :=
  ∀ (fs : List Fmt) (rounds : Bool) (more : CloveProg → Val → Val → Bool × BitVec 4) (fn : CloveProg → Val → Val → Val) (w : Nat) (q q' : CloveProg) (as bs : List Val),
    bvTwo fs rounds more fn w q = .ok q' → laneVals (fmtD q) (vv q (bvF1 w)) = .ok as → laneVals (fmtD q) (vv q (bvF2 w)) = .ok bs →
    (fs = arithFmts ∨ fs = expFmts ∨ fs = [.f32]) →
    fmtS0 q = fmtD q ∧ fmtS1 q = fmtD q ∧ fmtD q ∈ fs
      ∧ (∀ k a b, k < fmtLanes (fmtD q) → as[k]? = some a → bs[k]? = some b →
        (laneCodes (fmtD q) (vv q' (bvF0 w)))[k]? = some (encodeVal (fmtD q) (bvRnd q) (bvIndex q k) (fn q a b)).1)
      ∧ vmask q' (bvF0 w) = (if vp q (bvF1 w) || vp q (bvF2 w) then 0xFF else 0)
      ∧ (∀ r, r ≠ bvF0 w → vv q' r = vv q r ∧ vmask q' r = vmask q r)
      ∧ q' = { q with v := q'.v, vPoison := q'.vPoison, numflags := q'.numflags, lidx := q'.lidx }
      ∧ (rounds = false ∨ bvRound q ≠ 4 → q'.lidx = q.lidx)

/-- R218, R219, R220, R222, R247: x0 reads zero and unpoisoned whatever is written to it, another register takes value and poison;
a scalar instruction that finds no fault retires with the effect of scalarExec; one whose fetch leaves instruction
memory, or that is illegal, faults. ADDI, ADD, SUB, the divisions and remainders by zero, and LW have these results; LW at an address that faults ends with that fault,
and else from a poisoned base with POISON_CONSUMED 0x241 (R10).
Where it meets a choice of the model and not a rule, the choice is that of log 65. -/
def Obligations.CloveScalarInstructions : Prop :=
  (∀ (s : State) (g : Nat) (q : CloveProg) (w len : Nat), g < 4096 → cloveReady s g q w len → isBv w = false → isCsrWrite w = false →
    (∀ u q1, scalarExec g w len { q with pc := q.pc + BitVec.ofNat 32 len } (setReply .nothing s) = .ok (u, q1) → q1.stalled = false →
      after (.cloveScalarInstruction g) s fun t => ∃ k : W64,
        onlyProg g q { q1 with stalled := false, instret := q1.instret + 1, cycle := q1.cycle + k } u t)
    ∧ (∀ e, scalarExec g w len { q with pc := q.pc + BitVec.ofNat 32 len } (setReply .nothing s) = .error e →
      after (.cloveScalarInstruction g) s fun t => (cmdOf t q.cmd).phase = .done ∧ (cmdOf t q.cmd).status = e.1
        ∧ (cmdOf t q.cmd).cause = e.2 ∧ (cmdOf t q.cmd).index = q.launch))
  ∧ (∀ (g rd rs1 rs2 imm : Nat) (q : CloveProg) (s : State), rd < 32 → rs1 < 32 → rs2 < 32 → imm < 2 ^ 12 →
    let a := tabGet 0 q.x rs1
    let b := tabGet 0 q.x rs2
    let i := BitVec.signExtend 32 (BitVec.ofNat 12 imm)
    scalarExec g (encI 0x13 0 rd rs1 imm) 4 q s = .ok (s, xset rd (a + i).toNat (xp q rs1) q)
    ∧ scalarExec g (encR 0x33 0 0 rd rs1 rs2) 4 q s = .ok (s, xset rd (a + b).toNat (xp q rs1 || xp q rs2) q)
    ∧ scalarExec g (encR 0x33 0 0x20 rd rs1 rs2) 4 q s = .ok (s, xset rd (a - b).toNat (xp q rs1 || xp q rs2) q)
    ∧ scalarExec g (encR 0x33 4 1 rd rs1 rs2) 4 q s = .ok (s, xset rd (mulOp 4 a b).toNat (xp q rs1 || xp q rs2) q)
    ∧ (b = 0 → mulOp 4 a b = 0xFFFFFFFF ∧ mulOp 5 a b = 0xFFFFFFFF ∧ mulOp 6 a b = a ∧ mulOp 7 a b = a)
    ∧ (∀ e, accessFault q (a + i).toNat 4 = some e → scalarExec g (encI 0x03 2 rd rs1 imm) 4 q s = .error e)
    ∧ (xp q rs1 = true → accessFault q (a + i).toNat 4 = none →
      scalarExec g (encI 0x03 2 rd rs1 imm) 4 q s = .error (.poisonConsumed, 0x241))
    ∧ (xp q rs1 = false → (a + i).toNat % 4 = 0 → inDmem (a + i).toNat 4 = true →
      scalarExec g (encI 0x03 2 rd rs1 imm) 4 q s
        = .ok (s, xset rd (leNat (dmemGet q (a + i).toNat 4).1) (dmemGet q (a + i).toNat 4).2 q)))
  ∧ ∀ (i v : Nat) (p : Bool) (q : CloveProg),
    (i = 0 → xset i v p q = q)
    ∧ (i ≠ 0 → xv (xset i v p q) i = v % 2 ^ 32 ∧ xp (xset i v p q) i = p
      ∧ ∀ k, k ≠ i → xv (xset i v p q) k = xv q k ∧ xp (xset i v p q) k = xp q k)

/-- R194, R227, R229, R230, R247: BV.LD of sectors that the read buffer holds loads its register from them and retires; with a sector
missing the program waits, and it goes on when the oldest load on its way arrives. BV.ST writes its words into the bank inside the
window. The oldest
load on its way arrives first. A misaligned address is ALIGN_FAULT 0x220, one outside the window BOUNDS_FAULT 0x230, whether it is
poisoned or not (R10).
Where it meets a choice of the model and not a rule, the choice is that of log 61. -/
def Obligations.BankLoadsAndStores : Prop :=
  (∀ (s : State) (g : Nat) (q : CloveProg) (w len : Nat), g < 4096 → cloveReady s g q w len →
      let q0 := { q with pc := q.pc + BitVec.ofNat 32 len }
      (∀ off, memRow 0 w = true → moveAddr w q0 (bvF2 w) (windowOk q0) = .ok off →
        (sectorsOf off (moveBytes w)).all (bufHas q) = true →
        after (.bvLd g) s fun t => ∃ k : W64, let q1 := ldDone g w s q0
          onlyProg g q { q1 with stalled := false, instret := q1.instret + 1, cycle := q1.cycle + k } s t)
      ∧ (∀ off, memRow 0 w = true → moveAddr w q0 (bvF2 w) (windowOk q0) = .ok off →
        (sectorsOf off (moveBytes w)).all (bufHas q) = false →
        after (.bvLd g) s fun t => ∃ q', onlyProg g q q' s t ∧ q'.stalled = true ∧ q'.pc = q.pc ∧ q'.x = q.x ∧ q'.v = q.v
          ∧ (∀ k ∈ sectorsOf off (moveBytes w), bufHas q k = true ∨ k ∈ q'.outstanding))
      ∧ (∀ off, memRow 1 w = true → moveAddr w q0 (bvF0 w) (windowOk q0) = .ok off →
        let z := (vectorWords q0 (bvF2 w) (moveBytes w / 8)).foldl (fun z e => cloveStore g (off + e.1) 0 e.2.1 e.2.2 z)
          (setReply .nothing s, q0)
        after (.bvSt g) s fun t => ∃ k : W64, let q1 := incAddr w z.2
          onlyProg g q { q1 with stalled := false, instret := q1.instret + 1, cycle := q1.cycle + k } z.1 t)
      ∧ (∀ (row : Nat) (i : Instr) (other : Nat), (row = 0 ∧ i = .bvLd g ∧ other = bvF2 w ∨ row = 1 ∧ i = .bvSt g ∧ other = bvF0 w) →
        memRow row w = true → bvFunct7 w ≤ 3 → other = 0 →
        (xv q (bvF1 w) % moveAlign w ≠ 0 → after i s fun t =>
          (cmdOf t q.cmd).status = .alignFault ∧ (cmdOf t q.cmd).cause = 0x220 ∧ (cmdOf t q.cmd).index = q.launch)
        ∧ (xv q (bvF1 w) % moveAlign w = 0 → windowOk q (xv q (bvF1 w)) (moveBytes w) = false → after i s fun t =>
          (cmdOf t q.cmd).status = .boundsFault ∧ (cmdOf t q.cmd).cause = 0x230 ∧ (cmdOf t q.cmd).index = q.launch)))
  ∧ ∀ (s : State) (g k : Nat) (ks : List Nat) (q : CloveProg), g < 4096 → activeProg s g = some q → q.outstanding = k :: ks →
    (cloveOf s g).forcedPending = false →
    let z := takeSector g k (setReply .nothing s) { q with outstanding := ks }
    (q.stalled = false → after (.bankLoadArrives g) s fun t => onlyProg g q z.2 z.1 t ∧ bufHas z.2 k = true)
    ∧ (∀ w len, instrAt q = .ok (w, len) → q.stalled = true →
      (sectorsOf (xv q (bvF1 w)) (moveBytes w)).all (fun j => !(ks.contains j)) = true →
      after (.bankLoadArrives g) s fun t => ∃ c : W64, let q1 := ldDone g w z.1 { z.2 with pc := q.pc + BitVec.ofNat 32 len }
        onlyProg g q { q1 with stalled := false, instret := q1.instret + 1, cycle := q1.cycle + c } z.1 t)

/-- R191, R192: bit c of the check byte of a word is the XOR of the data bits whose column, of 56 of three set bits in order and eight of
five, has bit c set, and the syndrome is the stored check byte XOR that byte; a read then corrects any one flipped bit of the 72 and finds
any two, and a word stored with syndrome 0x7F reads poisoned. -/
def Obligations.EccCorrectsOneAndFindsTwo : Prop :=
  let cols := ((List.range 256).filter fun v => ((List.range 8).filter fun b => v.testBit b).length = 3)
    ++ [0x1F, 0x2F, 0x37, 0x3B, 0x3D, 0x3E, 0x4F, 0x57]
  ∀ x : Nat, x < 2 ^ 64 →
    eccCheck x < 256
    ∧ (∀ c, c < 8 → (eccCheck x).testBit c = (List.range 64).foldl (fun b i => b ^^ (x.testBit i && (cols.getD i 0).testBit c)) false)
    ∧ (∀ k, k < 256 → eccSyndrome x k = k ^^^ eccCheck x)
    ∧ eccDecode x (eccCheck x) = (x, .clean)
    ∧ (∀ i, i < 64 → eccDecode (x ^^^ 2 ^ i) (eccCheck x) = (x, .corrected))
    ∧ (∀ j, j < 8 → eccDecode x (eccCheck x ^^^ 2 ^ j) = (x, .corrected))
    ∧ (∀ i k, i < 64 → k < 64 → i ≠ k → (eccDecode (x ^^^ 2 ^ i ^^^ 2 ^ k) (eccCheck x)).2 = .failed)
    ∧ (∀ i j, i < 64 → j < 8 → (eccDecode (x ^^^ 2 ^ i) (eccCheck x ^^^ 2 ^ j)).2 = .failed)
    ∧ (∀ j k, j < 8 → k < 8 → j ≠ k → (eccDecode x (eccCheck x ^^^ 2 ^ j ^^^ 2 ^ k)).2 = .failed)
    ∧ eccDecode x (eccCheck x ^^^ 0x7F) = (x, .poisoned)

/-- R192, R194, R201, R206, R207, R239: an ordinary write of a sector stores its eight words with fresh check bytes and one sector is
counted, for the partition and against its budget in the stack's window; a read of eight clean words answers them unpoisoned and changes
nothing but the counts; an access inside the window of a running EXCLUSIVE program is queued behind the bank's others, 64 of them at most;
one of a CAP = 1 partition at its budget is held for the stack's next window; one to a chunk being moved is not performed.
Where it meets a choice of the model and not a rule, the choice is that of log 5 and 29. -/
def Obligations.OrdinaryStackAccesses : Prop :=
  ∀ (s : State) (p g off : Nat), p < 64 → g < 4096 → off < 2 ^ 27 → off % 64 = 0 → running s = true →
    (∀ w, chunkMoving s (chunkAt s g off) = true →
      after (.stackOrdinaryAccess p g off w) s fun t => t = { s with reply := .notTaken })
    ∧ (∀ w, chunkMoving s (chunkAt s g off) = false → bwWaits s p (g / 512) = true →
      after (.stackOrdinaryAccess p g off w) s fun t =>
        tabGet [] t.mem.bwHeld (g / 512) = tabGet [] s.mem.bwHeld (g / 512) ++ [(g, { part := p, off := off, write := w })]
        ∧ t = { s with mem := { s.mem with bwHeld := t.mem.bwHeld }, reply := t.reply })
    ∧ (∀ v : BitVec 512, chunkMoving s (chunkAt s g off) = false → bwWaits s p (g / 512) = false → windowDefers s g off 64 = false →
      after (.stackOrdinaryAccess p g off (some v)) s fun t =>
        (∀ i, i < 8 → rawWord t g (off + 8 * i) = (bits v.toNat (64 * i) 64, eccCheck (bits v.toNat (64 * i) 64)))
        ∧ (∀ h o, o % 8 = 0 → o < 2 ^ 27 → (h ≠ g ∨ o < off ∨ off + 64 ≤ o) → rawWord t h o = rawWord s h o)
        ∧ tabGet 0 t.mem.sectors p = satAdd 64 (tabGet 0 s.mem.sectors p) 1
        ∧ tabGet 0 t.mem.bwUsed (g / 512 * 64 + p) = tabGet 0 s.mem.bwUsed (g / 512 * 64 + p) + 1
        ∧ t.hif = s.hif ∧ t.clv = s.clv ∧ t.kvt = s.kvt ∧ t.evc = s.evc)
    ∧ (chunkMoving s (chunkAt s g off) = false → bwWaits s p (g / 512) = false → windowDefers s g off 64 = false → (∀ i, i < 8 → (readWord s g (off + 8 * i)).2 = .clean) →
      after (.stackOrdinaryAccess p g off none) s fun t =>
        t.reply = .sector (BitVec.ofNat 512 (leNat ((rangeFrom 0 8).flatMap fun i => natLe 8 (readWord s g (off + 8 * i)).1))) false
        ∧ t = { s with mem := { s.mem with sectors := t.mem.sectors, bwUsed := t.mem.bwUsed }, reply := t.reply }
        ∧ tabGet 0 t.mem.sectors p = satAdd 64 (tabGet 0 s.mem.sectors p) 1
        ∧ tabGet 0 t.mem.bwUsed (g / 512 * 64 + p) = tabGet 0 s.mem.bwUsed (g / 512 * 64 + p) + 1)
    ∧ (∀ w, chunkMoving s (chunkAt s g off) = false → bwWaits s p (g / 512) = false → windowDefers s g off 64 = true → (tabGet [] s.mem.deferred g).length < 64 →
      after (.stackOrdinaryAccess p g off w) s fun t =>
        tabGet [] t.mem.deferred g = tabGet [] s.mem.deferred g ++ [{ part := p, off := off, write := w }]
        ∧ (cloveOf t g).deferredCount = satAdd 64 (cloveOf s g).deferredCount 1 ∧ t.mem.dram = s.mem.dram)

/-- R195, R196, R204, R461: a scrub read of a clean word changes nothing; one of a word with one flipped bit writes it back corrected,
counts it and awaits its read-back; a refresh brings the stack's band into force in the bank and keeps every word.
Where it meets a choice of the model and not a rule, the choice is that of log 73. -/
def Obligations.ScrubbingAndRefresh : Prop :=
  ∀ (s : State) (g off : Nat), g < 4096 → off < 2 ^ 27 → off % 8 = 0 → running s = true →
    (after (.refreshOperation g) s fun t => tabGet 0 t.mem.bankBand g = tabGet 0 s.mem.band (g / 512)
      ∧ t = { s with mem := { s.mem with bankBand := t.mem.bankBand }, reply := t.reply })
    ∧ (chunkMoving s (chunkAt s g off) = false → windowDefers s g off 8 = false → (readWord s g off).2 = .clean →
      after (.scrubRead g off) s fun t => sameButReply s t)
    ∧ (∀ x, chunkMoving s (chunkAt s g off) = false → windowDefers s g off 8 = false → testWindow s g off = false →
      readWord s g off = (x, .corrected) →
      after (.scrubRead g off) s fun t => rawWord t g off = (x % 2 ^ 64, eccCheck x)
        ∧ t.mem.rewrites = s.mem.rewrites ++ [⟨g, off, true⟩]
        ∧ tabGet 0 t.mem.ce (g / 512) = satAdd 64 (tabGet 0 s.mem.ce (g / 512)) 1
        ∧ ∀ h o, o % 8 = 0 → o < 2 ^ 27 → (h ≠ g ∨ o ≠ off) → rawWord t h o = rawWord s h o)

/-- R196, R198, R200: the read-back of a rewritten word that comes back clean, or poisoned where it was rewritten poisoned, ends the rewrite
and retires nothing; raw accesses of an open window store and read data and check byte without correction, and wait with BUSY set where an
EXCLUSIVE program defers them.
Where it meets a choice of the model and not a rule, the choice is that of log 71 and 75. -/
def Obligations.ReadbacksAndRawAccesses : Prop :=
  (∀ (s : State) (g off : Nat) (r : Rewrite) (d : W64) (c : Byte), g < 4096 → off < 2 ^ 27 → off % 8 = 0 →
    s.mem.rewrites.find? (fun r => r.g = g && r.off = off) = some r →
    eccSyndrome d.toNat c.toNat = (if r.correctable then 0 else 0x7F) →
    after (.eccReadback g off d c) s fun t => t.mem.rewrites = s.mem.rewrites.erase r ∧ rawWord t g off = (d.toNat, c.toNat)
      ∧ t.mem.retired = s.mem.retired ∧ t.evc = s.evc)
  ∧ ∀ (s : State) (st : Nat), st < 8 → rawReady s st = true →
    let w := testWord (eccOf s st)
    (∀ v : W32, windowDefers s w.1 w.2 8 = true → v.getLsbD 0 = true → (after (.eccTestRawWrite st v) s fun t =>
        eccOf t st = { eccOf s st with busy := true, rawWrite := true, rawRead := v.getLsbD 1 }
        ∧ t = { s with mem := { s.mem with ecc := t.mem.ecc }, reply := t.reply })
      ∧ after (.eccTestRawRead st) s fun t => eccOf t st = { eccOf s st with busy := true, rawWrite := false, rawRead := true }
        ∧ t = { s with mem := { s.mem with ecc := t.mem.ecc }, reply := t.reply })
    ∧ (∀ v : W32, windowDefers s w.1 w.2 8 = false → v.getLsbD 0 = true → v.getLsbD 1 = false → after (.eccTestRawWrite st v) s fun t =>
      rawWord t (testWord (eccOf s st)).1 (testWord (eccOf s st)).2 = ((eccOf s st).data.toNat, (eccOf s st).check.toNat)
      ∧ eccOf t st = eccOf s st ∧ t.evc = s.evc ∧ t.hif = s.hif)
    ∧ (windowDefers s w.1 w.2 8 = false → after (.eccTestRawRead st) s fun t =>
      (eccOf t st).data = BitVec.ofNat 64 (rawWord s (testWord (eccOf s st)).1 (testWord (eccOf s st)).2).1
      ∧ (eccOf t st).check = BitVec.ofNat 8 (rawWord s (testWord (eccOf s st)).1 (testWord (eccOf s st)).2).2
      ∧ (eccOf t st).syndrome = BitVec.ofNat 8 (eccSyndrome (rawWord s (testWord (eccOf s st)).1 (testWord (eccOf s st)).2).1
          (rawWord s (testWord (eccOf s st)).1 (testWord (eccOf s st)).2).2)
      ∧ t.mem = { s.mem with ecc := t.mem.ecc } ∧ t.evc = s.evc ∧ t.hif = s.hif)

/-- R200, R201, R202, R215, R446, R459, R460: the move of a retired chunk ends with its map entry naming the target; a BANK_LOCAL chunk
that no window covers is retired and its map entry reads RETIRED and not VALID, a model slot whose slices stood there names another chunk
of its partition for them where there is one (log 160), and nothing in memory changes where none did. A far link that goes down retrains with a PENDING record;
restored, its port serves again at its width with source 48 + q pending and the record MASKED; not restored in time, the port is down,
LINK reads 0 and the record is NO_EFFECT or a higher code.
Where it meets a choice of the model and not a rule, the choice is that of log 72 and 74. -/
def Obligations.RetirementAndFarLinks : Prop :=
  ((∀ (s : State) (k : Nat) (m : ChunkMove), k < 262144 → s.mem.moves.find? (fun m => m.chunk = k) = some m →
      after (.retireMoveComplete k) s fun t => t.mem.moves = s.mem.moves.erase m
        ∧ ctOf t m.entry = { ctOf s m.entry with pchunk := m.target } ∧ ∀ n, n ≠ m.entry → ctOf t n = ctOf s n)
    ∧ ∀ (s : State) (k : Nat), k < 262144 → s.mem.localRetire.contains k = true → windowOver s k = false →
      after (.bankLocalRetire k) s fun t => t.mem.localRetire.contains k = false ∧ isRetired t (.chunk k) = true
        ∧ (∀ n e, mapOf s k = some (n, e) → (ctOf t n).retired = true ∧ (ctOf t n).valid = false)
        ∧ ∀ p, p = (match mapOf s k with | some (n, _) => (entryOwner s n).getD 64 | none => 64) →
          let c := (match mapOf s k with | some (n, _) => n - (partOf s p).ctBase | none => 0)
          let hit := (partOf s p).models.filter fun m => m.2.state = .ready && m.2.localPlace.contains c
          ((p = 64 ∨ hit = []) → t.mem.dram = s.mem.dram)
            ∧ ∀ j m, p ≠ 64 → hit = [(j, m)] → tabGet {} (partOf t p).models j = tabGet {} (partOf s p).models j
              ∨ ∃ d, d ≠ c ∧ tabGet {} (partOf t p).models j = { m with localPlace := m.localPlace.map fun e => if e = c then d else e })
  ∧ ∀ (s : State) (q : Nat), q < 2 →
    let settled := fun (t : State) (o : Nat) => t.evc.flogCount = s.evc.flogCount
      ∧ ∀ k, (farPortOf s q).record = some k → s.evc.flogCount ≤ k + 256 →
        (tabGet {} t.evc.flog (k % 256)).outcome = Nat.max (tabGet {} s.evc.flog (k % 256)).outcome o
    (farUp s q = true → (farPortOf s q).retraining = false →
      after (.farLinkDown q) s fun t => farPortOf t q = { farPortOf s q with retraining := true, record := some s.evc.flogCount }
        ∧ t.evc.flogCount = s.evc.flogCount + 1 ∧ (tabGet {} t.evc.flog (s.evc.flogCount % 256)).outcome = outPending
        ∧ t.mem = { s.mem with farPorts := t.mem.farPorts })
    ∧ (∀ wide : Bool, (farPortOf s q).retraining = true → s.rst.phase ≠ .hibernate →
      after (.farLinkRestored q wide) s fun t =>
        farPortOf t q = { farPortOf s q with retraining := false, record := none, width := if wide then 2 else 1 } ∧ settled t outMasked
        ∧ (groupOf t 1).pend.getLsbD (16 + q) = true ∧ t.mem = { s.mem with farPorts := t.mem.farPorts })
    ∧ ((farPortOf s q).retraining = true →
      after (.farRetrainTimeout q) s fun t =>
        farPortOf t q = { farPortOf s q with retraining := false, dead := true, link := false, width := 0 } ∧ settled t outNoEffect
        ∧ t.mem = { s.mem with farPorts := t.mem.farPorts })

/-- R421, R422, R423, R425, R430: while the power controller runs, a power sample gives the averages above the last 10 and 100 samples and
CAP_OVER, whose first setting raises source 55; the energy measured in an interval, with the fraction of a µJ carried from the one before,
is added to the device's counter in whole µJ, each partition's share to its counter, each ring's to its own, the remainder to the
unattributed, and the fraction is carried on; a valid write of PWR_CTRL waits for the next control step, another is counted and discarded.
The shares are the command's: what R422 and R423 allow (log 87).
Where it meets a choice of the model and not a rule, the choice is that of log 89. -/
def Obligations.PowerMeasurementAndCap : Prop :=
  ∀ s : State,
    (∀ w : Nat, controllerRuns s = true →
      after (.powerSample w) s fun t => let l := (w :: s.pwr.samples).take 100
        let above := s.pwr.fixed && decide (s.pwr.cap.toNat < (average l).toNat)
        t.pwr = { s.pwr with samples := l, avg1 := average (l.take 10), avg10 := average l, capOver := above }
          ∧ t = { s with pwr := t.pwr, reply := t.reply, evc := if above && !s.pwr.capOver then (raise 55 s).evc else s.evc })
    ∧ (∀ (measured : Nat) (parts : List (Nat × Nat)) (rings : List (Nat × Nat × Nat)), controllerRuns s = true →
      Instr.wf (.energyInterval measured parts rings) = true →
      let total := (s.pwr.energyRest + measured) / 1000
      energyOk s total parts rings = true →
      after (.energyInterval measured parts rings) s fun t =>
        t.pwr = { s.pwr with devEnergy := satAdd 64 s.pwr.devEnergy total
                             unattrib := satAdd 64 s.pwr.unattrib (total - sumOf (parts.map (·.2)))
                             energyRest := (s.pwr.energyRest + measured) % 1000 }
          ∧ (∀ p, partOf t p = { partOf s p with
              energy := (partOf t p).energy
              ran := (partOf s p).ran.filter fun j => (jobRing s j).job = .running || (jobRing s j).job = .suspending }
            ∧ ((∀ e ∈ parts, e.1 ≠ p) → (partOf t p).energy = (partOf s p).energy)
            ∧ ∀ e ∈ parts, e.1 = p → (partOf t p).energy = satAdd 64 (partOf s p).energy e.2)
          ∧ (∀ f r, ringOf t f r = { ringOf s f r with energy :=
              (rings.filter fun e => e.1 = f && e.2.1 = r).foldl (fun n e => satAdd 64 n e.2.2) (ringOf s f r).energy })
          ∧ t.mem = s.mem ∧ t.evc = s.evc ∧ t.hif.cmds = s.hif.cmds)
    ∧ (∀ v : W32, hostUp s 0 = true → bits v.toNat 11 5 = 0 → bits v.toNat 17 15 = 0 → 600 ≤ bits v.toNat 0 11 → bits v.toNat 0 11 ≤ 1600 →
      (v.getLsbD 16 = true → 1500 ≤ bits v.toNat 0 11) →
      after (.pwrCtrlWrite v) s fun t => t.pwr = { s.pwr with capNext := some (BitVec.ofNat 11 (bits v.toNat 0 11), v.getLsbD 16) }
        ∧ t = { s with pwr := t.pwr, reply := t.reply })
    ∧ (∀ v : W32, hostUp s 0 = true → (bits v.toNat 0 11 < 600 ∨ 1600 < bits v.toNat 0 11 ∨ (v.getLsbD 16 = true ∧ bits v.toNat 0 11 < 1500)
        ∨ bits v.toNat 11 5 ≠ 0 ∨ bits v.toNat 17 15 ≠ 0) →
      after (.pwrCtrlWrite v) s fun t => t.pwr = s.pwr ∧ onlyFn 0 s t
        ∧ fnOf t 0 = { fnOf s 0 with badAccess := satAdd 32 (fnOf s 0).badAccess 1 })

/-- R424 to R429, R435, R436: at a control step the pending PWR_CTRL takes effect; then, unless the frequency is fixed at 600 MHz, which only thermal protection ends, an average above
the effective limit lowers the clocks by at least one step in all, or gates one level more when both are at 120 MHz, and no clock rises;
one at most at 95 % raises each by 24 MHz at most, ungating one level; the clocks never leave 120 to 720 MHz. TL starts and falls by 75 W
while a sensor reads hot, and rises by 75 W or goes when every sensor is clear.
Where it meets a choice of the model and not a rule, the choice is that of log 20 and 88. -/
def Obligations.ClocksAndThrottling : Prop :=
  ∀ s : State, controllerRuns s = true →
    (after .powerControlStep s fun t =>
      let x := match s.pwr.capNext with | none => s.pwr | some (c, f) => { s.pwr with cap := c, fixed := f, capNext := none }
      let limit := effLimit { s with pwr := x }
      let top := if boostBarred s || x.fixed then 600 else 720
      let a0 := Nat.min x.freq0 top
      let a1 := Nat.min x.freq1 top
      t.pwr.cap = x.cap ∧ t.pwr.fixed = x.fixed ∧ t.pwr.capNext = none ∧ t.pwr.tl = s.pwr.tl
        ∧ (x.fixed = true → (∀ l, x.tl = some l → x.avg1.toNat ≤ l) → t.pwr.freq0 = 600 ∧ t.pwr.freq1 = 600 ∧ t.pwr.gating = 0)
        ∧ (¬(x.fixed = true ∧ ∀ l, x.tl = some l → x.avg1.toNat ≤ l) →
          let lim := if x.fixed then x.tl.getD 0 else limit
          (lim < x.avg1.toNat → a0 = 120 → a1 = 120 → t.pwr.freq0 = 120 ∧ t.pwr.freq1 = 120 ∧ t.pwr.gating = Nat.min 3 (x.gating + 1))
          ∧ (lim < x.avg1.toNat → 120 ≤ a0 → 120 ≤ a1 → (a0 ≠ 120 ∨ a1 ≠ 120) → t.pwr.freq0 + t.pwr.freq1 < a0 + a1
            ∧ t.pwr.freq0 ≤ a0 ∧ t.pwr.freq1 ≤ a1 ∧ 120 ≤ t.pwr.freq0 ∧ 120 ≤ t.pwr.freq1 ∧ t.pwr.gating = x.gating)
          ∧ (x.avg1.toNat ≤ lim → 100 * x.avg1.toNat ≤ 95 * lim → (t.pwr.freq0 = a0 ∨ t.pwr.freq0 = Nat.min top (a0 + 24))
            ∧ (t.pwr.freq1 = a1 ∨ t.pwr.freq1 = Nat.min top (a1 + 24)) ∧ t.pwr.gating = x.gating - 1)
          ∧ (x.avg1.toNat ≤ lim → 95 * lim < 100 * x.avg1.toNat → t.pwr.freq0 = a0 ∧ t.pwr.freq1 = a1 ∧ t.pwr.gating = x.gating))
        ∧ t = { s with pwr := t.pwr, evc := t.evc, freeCtr := t.freeCtr, reply := t.reply })
    ∧ (readsHot s = true → s.pwr.tl = none →
      after .throttleStep s fun t => t.pwr.tl = some (lowerTl (Nat.min s.pwr.cap.toNat s.pwr.avg10.toNat))
        ∧ t.pwr.throttleEvents = satAdd 32 s.pwr.throttleEvents 1 ∧ t = { raise 54 s with pwr := t.pwr, reply := t.reply })
    ∧ (∀ l, readsHot s = true → s.pwr.tl = some l →
      after .throttleStep s fun t => t = { s with pwr := { s.pwr with tl := some (lowerTl l) }, reply := t.reply })
    ∧ (∀ l, readsClear s = true → s.pwr.tl = some l → l + 75 < s.pwr.cap.toNat →
      after .throttleRecovery s fun t => t = { s with pwr := { s.pwr with tl := some (l + 75) }, reply := t.reply })
    ∧ (∀ l, readsClear s = true → s.pwr.tl = some l → s.pwr.cap.toNat ≤ l + 75 →
      after .throttleRecovery s fun t => t = { raise 54 s with pwr := { s.pwr with tl := none }, reply := t.reply })

/-- R431 to R434, R437, R438, R204: a sample sets its sensor's reading and state, with 5 °C of hysteresis; a sensor of a stack also moves
its stack's refresh band. A reading at or above shutdown, a broken sensor by its reading, self-check or silence, stops the module, but
for a coolant sensor; a sensor that fails its self-check stays broken till it passes one; while stopped, a sensor unanswered twice running
is broken, and a reading goes on from the sensor's state.
Where it meets a choice of the model and not a rule, the choice is that of log 90 and 119. -/
def Obligations.SensorsAndTheirStops : Prop :=
  ∀ (s : State) (n : Nat), n < 186 →
    let stopped := fun (cause : Nat) (t : State) => t.rst.phase = .stopped ∧ t.rst.railsGood = false ∧ t.thm.sdCause = cause
      ∧ t.thm.sdSensor = BitVec.ofNat 8 n ∧ t.thm.sdCount = satAdd 8 s.thm.sdCount 1 ∧ t.thm.restarts = s.thm.restarts
      ∧ t.hif = { mem := s.hif.mem, msgs := s.hif.msgs } ∧ t.mem = { retired := s.mem.retired } ∧ t.saf = {} ∧ t.parts = []
    (∀ v : BitVec 16, sensing s = true → (sensorClass n = 5 ∨ readingStops n v.toInt = false) →
      (sensorNext n (sensorOld (sensorOf s n)) v.toInt ≠ .broken ∨ sensorClass n = 5) →
      after (.sensorSample n v) s fun t =>
        sensorOf t n = { sensorOf s n with
            valid := true, state := sensorNext n (sensorOld (sensorOf s n)) v.toInt, temp := v, missed := 0 }
          ∧ (∀ m, m ≠ n → sensorOf t m = sensorOf s m)
          ∧ t.mem.band = (if sensorClass n = 2 then
              tabMod 0 s.mem.band ((n - 36) / 18) fun b => bandNext b (hottestDram t ((n - 36) / 18)) else s.mem.band)
          ∧ t = { s with thm := { s.thm with sensors := t.thm.sensors }, mem := { s.mem with band := t.mem.band }, evc := t.evc
                         reply := t.reply })
    ∧ (∀ v : BitVec 16, sensing s = true → sensorClass n ≠ 5 → readingStops n v.toInt = true → readingBroken v.toInt = false →
      after (.sensorSample n v) s (stopped 1))
    ∧ (∀ v : BitVec 16, sensing s = true → sensorClass n ≠ 5 → sensorNext n (sensorOld (sensorOf s n)) v.toInt = .broken →
      (readingStops n v.toInt = false ∨ readingBroken v.toInt = true) → after (.sensorSample n v) s (stopped 2))
    ∧ (s.rst.phase ≠ .off → after (.sensorSelfCheck n true) s fun t => sensorOf t n = { sensorOf s n with checkFailed := false }
      ∧ (∀ m, m ≠ n → sensorOf t m = sensorOf s m) ∧ t = { s with thm := { s.thm with sensors := t.thm.sensors }, reply := t.reply })
    ∧ (s.rst.phase = .stopped → after (.sensorSelfCheck n false) s fun t =>
      sensorOf t n = { sensorOf s n with state := .broken, checkFailed := true } ∧ (∀ m, m ≠ n → sensorOf t m = sensorOf s m)
      ∧ t = { s with thm := { s.thm with sensors := t.thm.sensors }, reply := t.reply })
    ∧ (∀ i, (i = .sensorSelfCheck n false ∨ i = .sensorStaleTimeout n) → sensing s = true →
      (sensorClass n ≠ 5 → after i s (stopped 2))
      ∧ (sensorClass n = 5 → after i s fun t => (sensorOf t n).state = .broken ∧ (∀ m, m ≠ n → sensorOf t m = sensorOf s m)
        ∧ t = { s with thm := { s.thm with sensors := t.thm.sensors }, reply := t.reply }))
    ∧ (∀ a : Option (BitVec 16), s.rst.phase = .stopped → after (.stoppedSensorPoll [(n, a)]) s fun t =>
        sensorOf t n = (match a with
          | some v => { sensorOf s n with
              valid := true, state := sensorNext n (sensorOld (sensorOf s n)) v.toInt, temp := v, missed := 0 }
          | none => if (sensorOf s n).missed = 0 then { sensorOf s n with missed := 1 }
            else { sensorOf s n with missed := 2, state := .broken })
          ∧ (∀ m, m ≠ n → sensorOf t m = sensorOf s m)
          ∧ t = { s with thm := { s.thm with sensors := t.thm.sensors }, reply := t.reply })

/-- R437, R438, R439, R500, R523: COOLANT_OK withdrawn during power-up brings the sequence back to waiting for it; deasserted for 10 µs it
stops a powered module; once it has stood for 10 ms the rails come up. A cool, stopped module restarts with cause 4, its straps sampled anew (log 20); the input's loss
switches it off, and 1 s without it clears what Nutmeg keeps. -/
def Obligations.CoolantInputAndRestart : Prop :=
  ∀ s : State,
    (after .coolantOkDeassert s fun t => t.thm = { s.thm with coolantOk := false, coolQualified := false }
      ∧ t.rst = (if s.rst.poweringUp = true ∧ (s.rst.phase = .rails ∨ s.rst.phase = .inReset) then
          { s.rst with phase := .waitCoolant, railsGood := false } else s.rst)
      ∧ t = { s with thm := t.thm, rst := t.rst, reply := t.reply })
    ∧ (after .coolantOkAssert s fun t => t = { s with thm := { s.thm with coolantOk := true }, reply := t.reply })
    ∧ (sensing s = true → s.thm.coolantOk = false → s.rst.poweringUp = false →
      after .coolantOkTimeout s fun t => t.rst.phase = .stopped ∧ t.thm.sdCause = 3 ∧ t.thm.sdCount = satAdd 8 s.thm.sdCount 1
        ∧ t.hif.fn = [] ∧ t.parts = [])
    ∧ (s.rst.phase = .waitCoolant → s.thm.coolantOk = true →
      after .coolantOkQualified s fun t => t = { s with thm := { s.thm with coolQualified := true }
                                                        rst := { s.rst with phase := .rails }, reply := t.reply })
    ∧ (s.rst.phase = .stopped → coolEnough s = true → s.thm.coolantOk = true → s.thm.sdCause ≠ 4 → s.thm.restarts < 3 →
      after .thermalRestart s fun t => t = { s with
        thm := { s.thm with restarts := s.thm.restarts + 1, coolQualified := false }
        rst := { s.rst with phase := .waitCoolant, nextCause := 4, straps := t.rst.straps, railsGood := false, poweringUp := true }, freeCtr := t.freeCtr, reply := t.reply })
    ∧ (s.rst.phase ≠ .off → after .undervoltageStop s fun t => t.rst.phase = .off ∧ t.rst.inputLost = true
        ∧ t.thm = s.thm ∧ t.hif.fn = [] ∧ t.mem = { retired := s.mem.retired } ∧ t.parts = [])
    ∧ (s.rst.phase = .off → after .powerLossClear s fun t => t.thm.sdCause = 0 ∧ t.thm.sdSensor = 0 ∧ t.thm.sdCount = 0
        ∧ t.thm.restarts = 0 ∧ t.rst.cause = 0 ∧ t.rst.count = 0 ∧ t.rst.phase = .off
        ∧ t = { s with thm := t.thm, rst := t.rst, reply := t.reply })

/-- R499 to R503, R505, R515: power-up samples the straps and waits for the coolant, unless the restarts are used up; good rails let reset be released when PERST# is high,
with every register at its reset value, strap claims and RST_CAUSE of the reset; a PERST# asserted while running starts a cold reset
that keeps retirement record, fuses and the non-volatile store; PERST1# is noted alone (log 91); boot ends with the PF ready, its
readiness sent, and the wipe done; a configuration request before that is retried, and one over a dead link is answered by nothing; a missing reference stops the port it serves.
Where it meets a choice of the model and not a rule, the choice is that of log 13, 92 and 93. -/
def Obligations.PowerUpResetAndBoot : Prop :=
  ∀ s : State,
    (∀ straps, s.rst.phase = .off → s.thm.sdCause = 4 → after (.powerOn straps []) s fun t => t.rst.phase = .stopped)
    ∧ (∀ straps, s.rst.phase = .off → s.thm.sdCause ≠ 4 → after (.powerOn straps []) s fun t => t.rst.phase = .waitCoolant ∧ t.rst.straps = straps
        ∧ t.rst.nextCause = 0 ∧ t.rst.inputLost = false ∧ t.hif.fn = [] ∧ t.mem = { retired := s.mem.retired })
    ∧ (s.rst.phase = .rails → after .railsGood s fun t =>
        t = { s with rst := { s.rst with phase := .inReset, railsGood := true }, reply := t.reply })
    ∧ (∀ straps, s.rst.phase = .inReset → s.rst.railsGood = true → s.rst.perst = false → after (.resetRelease straps) s fun t =>
        t.rst.phase = .booting ∧ t.rst.cause = s.rst.nextCause ∧ t.rst.straps = straps ∧ t.rst.claims = strapClaims straps
          ∧ t.rst.clmResult = 0 ∧ t.rst.gpioOe = 0 ∧ t.hif.fn = [] ∧ t.hif.cmds = [] ∧ t.saf = {} ∧ t.mov = [] ∧ t.clv = {} ∧ t.kvt = {}
          ∧ t.parts = [] ∧ t.stw = {} ∧ t.pwr = {} ∧ t.evc = {} ∧ t.sem = {} ∧ t.mem = { retired := s.mem.retired }
          ∧ t.sec.lc = s.sec.lc ∧ t.sec.minSvn = s.sec.minSvn ∧ t.sec.pfReady = false ∧ t.sec.sessions = [])
    ∧ (s.rst.phase = .running → after (.perstAssert false) s fun t => t.rst.phase = .inReset ∧ t.rst.nextCause = 1 ∧ t.rst.perst = true
        ∧ t.hif.fn = [] ∧ t.parts = [] ∧ t.mem = { retired := s.mem.retired } ∧ t.sec.lc = s.sec.lc ∧ t.sec.revoked = s.sec.revoked
        ∧ t.sec.minSvn = s.sec.minSvn ∧ t.sec.ownerKey = s.sec.ownerKey)
    ∧ (after (.perstAssert true) s fun t => t = { s with rst := { s.rst with perst1 := true }, reply := t.reply })
    ∧ (after (.perstDeassert false) s fun t => t = { s with rst := { s.rst with perst := false }, reply := t.reply })
    ∧ (s.rst.phase = .booting → after .pfReady s fun t => t.rst.phase = .running ∧ t.sec.pfReady = true ∧ t.sec.wipeDone = true
        ∧ t.sec.wipePercent = 100 ∧ t.sec.hubKey.isSome = true ∧ t.reply = (if hostLink s 0 then .deviceReady else .nothing) ∧ (∀ u, .frame u ∈ s.mem.retired → (frameOf t u).retired = true) ∧ t.hif = s.hif ∧ t.mem.dram = s.mem.dram)
    ∧ (∀ f d, f ≤ 1025 → hostLink s f = true →
        (s.rst.phase = .waitCoolant ∨ s.rst.phase = .rails ∨ s.rst.phase = .inReset ∨ s.rst.phase = .booting) →
        after (.configurationRequest f d) s fun t => t = { s with reply := .retryStatus })
    ∧ (∀ f d, f ≤ 1025 → hostLink s f = false → after (.configurationRequest f d) s fun t => t = { s with reply := .notTaken })
    ∧ (∀ d, hostUp s 0 = true → after (.configurationRequest 0 (some d)) s fun t =>
        t = { s with pwr := { s.pwr with d3hot := d }, reply := t.reply })
    ∧ (∀ q, q < 2 → (farPortOf s q).present = true → (q = 1 → far1Host s = false) → after (.referenceClockLoss (q + 1)) s fun t =>
        (farPortOf t q).link = false ∧ (farPortOf t q).dead = true ∧ (∀ k, k ≠ q → farPortOf t k = farPortOf s k)
          ∧ t = { s with thm := { s.thm with refMissing := t.thm.refMissing }, mem := { s.mem with farPorts := t.mem.farPorts }
                         evc := t.evc, freeCtr := t.freeCtr, reply := t.reply })

/-- R440, R441, R442, R446, R508: an idle device enters the next idle state that PWR_IDLE_CTRL permits; leaving one adds to its residency;
a write that no longer permits the state leaves it at once for the deepest permitted; WAKE_IN raises source 63 when a pin is claimed for
it.
Where it meets a choice of the model and not a rule, the choice is that of log 20, 30 and 94. -/
def Obligations.IdleStates : Prop :=
  (∀ s : State, running s = true →
    (deviceIdle s = true → idleCode s.pwr.idle + 1 ≤ permitted s → idleCode s.pwr.idle < 3 → after .idleStateEntry s fun t =>
      t.pwr.idle = idleOf (idleCode s.pwr.idle + 1) ∧ t = { s with pwr := t.pwr, freeCtr := t.freeCtr, reply := t.reply })
    ∧ (deviceIdle s = true → s.pwr.idle = .idle3 → permitted s = 4 → after .idleStateEntry s fun t =>
      t.rst.phase = .hibernate ∧ t.rst.nextCause = 5 ∧ t.parts = [] ∧ t.mem = { retired := s.mem.retired })
    ∧ (∀ w : WakeCause, w.wf = true → s.pwr.idle ≠ .active → wakeAllowed s w = true → after (.idleWake w) s fun t =>
      t.pwr.idle = .active ∧ (∀ k, k ≠ idleCode s.pwr.idle - 1 → tabGet 0 t.pwr.idleRes k = tabGet 0 s.pwr.idleRes k)
        ∧ t = { s with pwr := t.pwr, evc := (match w with | .doorbell => (raise 62 s).evc | .barWrite => (raise 62 s).evc | _ => s.evc)
                       freeCtr := t.freeCtr, reply := t.reply })
    ∧ (∀ v : W32, hostUp s 0 = true → after (.pwrIdleCtrlWrite v) s fun t =>
      t.pwr.latency = v ∧ t.pwr.idle = (let n := permitted { s with pwr := { s.pwr with latency := v } }
          if n < idleCode s.pwr.idle then idleOf n else s.pwr.idle)
        ∧ t = { s with pwr := t.pwr, freeCtr := t.freeCtr, reply := t.reply }))
  ∧ ∀ s : State, (controllerRuns s = true ∨ s.rst.phase = .hibernate) → (claimOf s 2).func = 3 → (claimOf s 2).owner ≠ 0 →
    after .wakeInAssert s fun t => t = { raise 63 s with reply := t.reply }

/-- R387, R388, R389, R390, R399, R490: a port that trains in both directions on lanes that have not failed is KEYING and its session makes it ACTIVE with fresh keys
and full credits, or RETRAIN where a lane in use has failed meanwhile (the model's choice, log 162); a third failed attempt, a peer that is
not DEPLOYED or has another owner, or failed lanes in both halves of a direction make it FAILED, with a record; a failed lane of an ACTIVE
port makes it RETRAIN, which ends ACTIVE at the width that is left with every unacknowledged flit sent again, and one that fails while the
port trains or keys is remembered and recorded; a key update changes the keys alone and starts the counts of what they have sealed anew.
Where it meets a choice of the model and not a rule, the choice is that of log 15, 20, 79 and 80. -/
def Obligations.PortsTrainKeyAndFail : Prop :=
  ∀ (s : State) (pt : Nat), pt < 8 → running s = true →
    let x := portOf s pt
    let failed := fun (t : State) => (portOf t pt).state = .failed ∧ (portOf t pt).replay = [] ∧ (portOf t pt).keyTx = 0
      ∧ s.evc.flogCount < t.evc.flogCount ∧ t.mem = s.mem ∧ t.hif = s.hif
    let keyed := fun (t : State) => { x with
      enc := true, txFree := fullCredits, keyTx := (portOf t pt).keyTx, keyRx := (portOf t pt).keyRx
      saltTx := (portOf t pt).saltTx, saltRx := (portOf t pt).saltRx }
    (∀ rx tx, rx < 4 → tx < 4 → rx ≠ 0 → tx ≠ 0 → x.state = .training → lanesFree rx x.rxFail = true →
      s.thm.refMissing.contains 3 = false →
      after (.portTrained pt rx tx) s fun t => onlyPort pt s t ∧ portOf t pt = { x with state := .keying, rxWidth := rx, txWidth := tx })
    ∧ (x.state = .training → x.attempts < 2 → after (.trainingAttemptTimeout pt) s fun t => onlyPort pt s t
        ∧ portOf t pt = { x with attempts := x.attempts + 1 })
    ∧ (x.state = .training → 2 ≤ x.attempts → after (.trainingAttemptTimeout pt) s failed)
    ∧ (x.state = .keying → lanesFree x.rxWidth x.rxFail = true →
      after (.linkSessionEstablished pt true 2 (block10 s)) s fun t => onlyPort pt s t ∧ portOf t pt = { keyed t with state := .active })
    ∧ (x.state = .keying → lanesFree x.rxWidth x.rxFail = false → bothHalves x.rxFail = false → bothHalves x.txFail = false →
      x.recentRetrains < 2 → after (.linkSessionEstablished pt true 2 (block10 s)) s fun t => onlyPort pt s t
        ∧ portOf t pt = { keyed t with
            state := .retrain, retrains := satAdd 32 x.retrains 1, recentRetrains := x.recentRetrains + 1 })
    ∧ (∀ ok st k, st < 4 → x.state = .keying → (ok = false ∨ st ≠ 2 ∨ k ≠ block10 s) →
      after (.linkSessionEstablished pt ok st k) s failed)
    ∧ (x.state = .active → x.enc = true → after (.linkKeyUpdate pt) s fun t => onlyPort pt s t
        ∧ portOf t pt = { x with
            keyTx := (portOf t pt).keyTx, keyRx := (portOf t pt).keyRx, keyRxOld := some x.keyRx
            keyedSeq := x.txSeq, keyedIdle := x.idleTx })
    ∧ (∀ lane, lane < 8 →
      let fail := x.rxFail ||| BitVec.ofNat 8 (2 ^ lane)
      (x.state = .active → bothHalves fail = false → bothHalves x.txFail = false → x.recentRetrains < 2 →
        after (.laneFailure pt lane) s fun t => onlyPort pt s t ∧ t.evc.flogCount = s.evc.flogCount + 1
          ∧ portOf t pt = { x with state := .retrain, rxFail := fail, retrains := satAdd 32 x.retrains 1
                                   recentRetrains := x.recentRetrains + 1 })
      ∧ ((x.state = .active ∨ x.state = .retrain) → bothHalves fail = true → after (.laneFailure pt lane) s failed)
      ∧ (x.state = .training ∨ x.state = .keying ∨ (x.state = .retrain ∧ bothHalves fail = false) →
        after (.laneFailure pt lane) s fun t => onlyPort pt s t ∧ t.evc.flogCount = s.evc.flogCount + 1
          ∧ portOf t pt = { x with rxFail := fail }))
    ∧ (∀ bad : Byte, x.state = .retrain → bothHalves x.rxFail = false →
      let fail := x.txFail ||| bad
      (bothHalves fail = false → after (.retrainComplete pt bad) s fun t => onlyPort pt s t
        ∧ t.reply = .flits (x.replay.map (·.flit))
        ∧ portOf t pt = { x with
            state := .active, txFail := fail, rxWidth := narrowed x.rxWidth x.rxFail, txWidth := narrowed x.txWidth fail
            replay := x.replay.map fun e => { e with sent := e.sent + 1 }
            retry := satAdd 32 x.retry x.replay.length })
      ∧ (bothHalves fail = true → after (.retrainComplete pt bad) s failed))

/-- R391, R392, R394, R397, R398, R399: the next flit that may be sent leaves with the port's next SEQ and the tag of its key and count, takes a
credit of its channel and is kept until acknowledged; with none to send an IDLE flit carries the next count; nothing leaves once a count has
reached its limit under a key; 10 µs without ACK progress sends the kept flits again, and one sent eight times makes the port retrain, or
fail where its lanes or its retrains within a second bar that.
Where it meets a choice of the model and not a rule, the choice is that of log 76, 78 and 79. -/
def Obligations.FlitsAreSentAndSentAgain : Prop :=
  ∀ (s : State) (pt : Nat), pt < 8 → running s = true → (portOf s pt).state = .active →
    let x := portOf s pt
    (∀ e : Nat × Flit, nextSend x = some e → (e.1 = 0 ∨ 64 ≤ e.1) →
      after (.flitSend pt) s fun t => onlyPort pt s t
        ∧ (∃ y : Flit, t.reply = .flit y ∧ y.seq = x.txSeq % 4096 ∧ y.ack = ackField x
          ∧ y.vc = e.2.vc ∧ y.typ = e.2.typ ∧ y.pay = e.2.pay ∧ y.plen = e.2.plen ∧ y.poison = e.2.poison
          ∧ y.trailer = flitTag x.keyTx x.saltTx x.txSeq y
          ∧ portOf t pt = { x with
              queue := x.queue.erase e, txSeq := x.txSeq + 1, txFlits := satAdd 64 x.txFlits 1, txFree := (portOf t pt).txFree
              openTag := (portOf t pt).openTag, rxFreed := (portOf t pt).rxFreed
              replay := x.replay ++ [{ flit := y, sent := 1, tag := e.1 }] })
        ∧ (∀ c, tabGet 0 (portOf t pt).txFree c = if c = e.2.vc then tabGet 0 x.txFree c - 1 else tabGet 0 x.txFree c)
        ∧ 0 < tabGet 0 x.txFree e.2.vc ∧ x.replay.length < 2048 ∧ keyFresh x = true)
    ∧ (nextSend x = none → keyFresh x = true → after (.idleFlitSend pt) s fun t => onlyPort pt s t
        ∧ (∃ y : Flit, t.reply = .flit y ∧ y.typ = 0 ∧ y.count = x.idleTx + 1 ∧ y.ack = ackField x
          ∧ y.trailer = flitTag x.keyTx x.saltTx (2 ^ 63 + (x.idleTx + 1) % 2 ^ 63) y)
        ∧ portOf t pt = { x with idleTx := x.idleTx + 1, rxFreed := (portOf t pt).rxFreed })
    ∧ (2 ^ 40 ≤ x.txSeq - x.keyedSeq ∨ 2 ^ 40 ≤ x.idleTx - x.keyedIdle + 1 →
      (after (.flitSend pt) s fun t => t = { s with reply := .notTaken })
      ∧ after (.idleFlitSend pt) s fun t => t = { s with reply := .notTaken })
    ∧ (x.replay ≠ [] → (∀ e ∈ x.replay, e.sent < 8) → after (.replayTimeout pt) s fun t => onlyPort pt s t
        ∧ t.reply = .flits (x.replay.map (·.flit))
        ∧ portOf t pt = { x with replay := x.replay.map fun e => { e with sent := e.sent + 1 }
                                 retry := satAdd 32 x.retry x.replay.length })
    ∧ (∀ e ∈ x.replay, 8 ≤ e.sent → after (.replayTimeout pt) s fun t =>
        (portOf t pt).state = .retrain ∨ (portOf t pt).state = .failed)

/-- R391, R392, R394, R396, R397, R399, R401, R420: a sequenced flit is accepted only corrected, authentic and with the expected SEQ; a
discarded one is answered by one NAK; an accepted SINGLE flit for this device is delivered, one for another device goes to the routed
port, one without a route is counted; IDLE and NAK flits count only with a newer count, a NAK sending again from the SEQ it names; a MGMT
flit changes counts alone; what the FEC corrected or could not is counted for every flit.
Where it meets a choice of the model and not a rule, the choice is that of log 76, 77 and 80. -/
def Obligations.FlitsAreReceived : Prop :=
  ∀ (s : State) (pt : Nat) (y : Flit), pt < 8 → running s = true → y.wf = true →
    let x := portOf s pt
    let seen := { x with fecCorr := satAdd 64 x.fecCorr y.fixed }
    let good := y.fec = true ∧ authentic x y = true ∧ y.seq = x.rxSeq % 4096
    let bad := if y.fec = false then { seen with fecUncorr := satAdd 32 x.fecUncorr 1 }
      else if authentic x y = false then { seen with authFail := satAdd 32 x.authFail 1 } else seen
    let taken := fun (t : State) => (portOf t pt).rxSeq = x.rxSeq + 1 ∧ (portOf t pt).nakSent = false
      ∧ (portOf t pt).rxFlits = satAdd 64 x.rxFlits 1 ∧ (portOf t pt).fecCorr = seen.fecCorr
    (portUp x = true → y.typ = 6 → after (.flitRxMgmt pt y) s fun t => onlyPort pt s t
      ∧ portOf t pt = if y.fec then seen else { seen with fecUncorr := satAdd 32 x.fecUncorr 1 })
    ∧ (x.state = .active →
    (1 ≤ y.typ → y.typ ≤ 4 → ¬good → (x.nakSent = true ∨ keyFresh x = false) →
      after (.flitRxSequenced pt y) s fun t => onlyPort pt s t ∧ portOf t pt = bad ∧ t.reply = .nothing)
    ∧ (1 ≤ y.typ → y.typ ≤ 4 → ¬good → x.nakSent = false → keyFresh x = true →
      after (.flitRxSequenced pt y) s fun t => onlyPort pt s t
        ∧ portOf t pt = { bad with nakSent := true, idleTx := x.idleTx + 1, rxFreed := (portOf t pt).rxFreed }
        ∧ ∃ k : Flit, t.reply = .flit k ∧ k.typ = 5 ∧ k.ack = x.rxSeq % 4096 ∧ k.count = x.idleTx + 1
          ∧ k.trailer = flitTag x.keyTx x.saltTx (2 ^ 63 + (x.idleTx + 1) % 2 ^ 63) k)
    ∧ (y.typ = 4 → good → packetWay s pt y = 0 → tabGet [] x.partial_ y.vc = [] →
      after (.flitRxSequenced pt y) s fun t => taken t ∧ t.stw.inbox = s.stw.inbox ++ [assemble [y]] ∧ t.mem = s.mem
        ∧ ∀ q, q ≠ pt → portOf t q = portOf s q)
    ∧ (y.typ = 4 → good → packetWay s pt y = 1 →
      after (.flitRxSequenced pt y) s fun t => taken t ∧ t.stw.noroute = satAdd 32 s.stw.noroute 1 ∧ t.stw.inbox = s.stw.inbox
        ∧ ∀ q, q ≠ pt → portOf t q = portOf s q)
    ∧ (∀ out c, y.typ = 4 → good → packetWay s pt y = 2 + 4 * out + c → c < 4 → out ≠ pt →
      after (.flitRxSequenced pt y) s fun t => taken t ∧ t.stw.inbox = s.stw.inbox
        ∧ portOf t out = { portOf s out with queue := (portOf s out).queue ++ [(1 + 4 * pt + y.vc, { y with vc := c })] }
        ∧ ∀ q, q ≠ pt → q ≠ out → portOf t q = portOf s q)
    ∧ (y.typ = 0 → countNewer x y = true → after (.flitRxIdle pt y) s fun t => onlyPort pt s t
        ∧ portOf t pt = takeCredit y (takeAck y.ack { seen with idleRx := y.count }))
    ∧ (y.typ = 0 → countNewer x y = false → after (.flitRxIdle pt y) s fun t => onlyPort pt s t ∧ portOf t pt = bad)
    ∧ (∀ i, y.typ = 5 → countNewer x y = true → (x.replay.findIdx? fun e => e.flit.seq = y.ack) = some i → (∀ e ∈ x.replay, e.sent < 8) →
      after (.flitRxNak pt y) s fun t => onlyPort pt s t ∧ t.reply = .flits ((x.replay.drop i).map (·.flit))
        ∧ (portOf t pt).idleRx = y.count ∧ (portOf t pt).retry = satAdd 32 x.retry (x.replay.drop i).length
        ∧ (portOf t pt).fecCorr = seen.fecCorr)
    ∧ (y.typ = 5 → countNewer x y = false → after (.flitRxNak pt y) s fun t => onlyPort pt s t ∧ portOf t pt = bad))

/-- R16, R123, R403, R404, R406, R407, R409, R410, R412, R414, R415, R416: what a packet at the front of the inbox does. A REQ or COLL
for no domain of this device is rejected; a REQ that no FABRIC_RECV of the domain's partition names waits, one that agrees with the first
that names it is matched; DATA is written through the receiver's descriptor by a mover, the last of it ending the FABRIC_RECV; an ACK that
completes its message ends the FABRIC_SEND; a REJECT and an ABORT end their command; a COLL packet begins the step of the collective whose
record it gives, is kept of the step in progress and is acknowledged, ends the collective where the records differ (a record from another
device than previous, or for a BARRIER, differs by the model's choice, log 161), and waits where no collective has come to it; a BARRIER's
token is passed on, and its second coming at position 0 ends the collective.
Where it meets a choice of the model and not a rule, the choice is that of log 81, 82, 83 and 85. -/
def Obligations.PacketsOfMessages : Prop :=
  ∀ (s : State) (k : Packet) (l : List Packet), running s = true → s.stw.inbox = k :: l →
    let u := { setReply .nothing s with stw := { s.stw with inbox := l } }
    (domainPart s k.domain = none →
      (k.kind = 1 → after .packetReqRx s fun t => t = sendPacket (rejectTo k.src k.domain k.channel k.mseq 0x831) u)
      ∧ (k.kind = 4 → after .packetCollRx s fun t => t = sendPacket (rejectTo k.src k.domain k.channel k.mseq 0x831) u))
    ∧ ∀ p, domainPart s k.domain = some p →
    (k.kind = 1 → (∀ y ∈ s.stw.recvs, y.closed = 0 → y.msg = none → y.part = p → y.wants k = false) →
      after .packetReqRx s fun t => t = { u with stw := { u.stw with waiting := s.stw.waiting ++ [k] } })
    ∧ (∀ y, k.kind = 1 → (s.stw.recvs.find? fun y => y.closed = 0 && y.msg.isNone && y.part = p && y.wants k) = some y →
      let got := fun lo n => leNat ((k.data.drop lo).take n)
      let e := tdescOf y.desc
      (got 0 8 = product e.ext → got 8 1 = fmtCode e.fmt → got 9 1 = e.sblk → after .packetReqRx s fun t =>
        ∃ z ∈ t.stw.recvs, z.cmd = y.cmd ∧ z.msg = some (k.src, k.mseq) ∧ z.total = got 16 8)
      ∧ (got 0 8 ≠ product e.ext → after .packetReqRx s fun t => ended t y.cmd .descFault 0x804 0 0 ∧ t.mem = s.mem))
    ∧ (∀ y, k.kind = 0 → (s.stw.recvs.find? fun y => y.closed != 2 && y.part = p && y.takes k) = some y →
      accessClear (setReply .nothing s) (2 * y.cmd) p ((recvOut y k).bytes.map fun e => (e.1, 1)) [] →
      let v := devOut y.part (recvOut y k) (noteMoved k.data.length u)
      ((chosenMover s).isSome = true → (y.got.contains k.offset = true ∨ y.got.length + 1 ≠ packetCount y.total) →
        (y.got.contains k.offset = true → y.got.length ≠ packetCount y.total) →
        after .packetDataRx s fun t => t.mem = v.mem ∧ t.hif = v.hif)
      ∧ ((chosenMover s).isSome = true → y.closed = 0 → y.got.contains k.offset = false → y.got.length + 1 = packetCount y.total →
        y.poison = [] → k.poison = [] → after .packetDataRx s fun t => t.mem = v.mem ∧ ended t y.cmd .ok 0 0 0)
      ∧ (chosenMover s = none → y.closed = 0 →
        after .packetDataRx s fun t => t.mem = s.mem ∧ ended t y.cmd .unrecovered 0x150 0 0))
    ∧ (∀ x, k.kind = 2 → ackTarget s p k = some x → x.coll = false → phaseDone (cmdOf s x.cmd).phase = false →
      (x.ackedBy k).complete = true → after .packetAckRx s fun t =>
        (if x.poison = [] then ended t x.cmd .ok 0 0 0 else ended t x.cmd .poisonConsumed 0x840 0 0) ∧ t.mem = s.mem)
    ∧ (∀ x, k.kind = 3 → (s.stw.sends.find? fun x => x.answeredBy p k && !(phaseDone (cmdOf s x.cmd).phase)) = some x →
      after .packetRejectRx s fun t => ended t x.cmd (rejectStatus k.info).1 (rejectStatus k.info).2 0 0 ∧ t.mem = s.mem)
    ∧ (∀ y, k.kind = 6 → k.nbytes = 0 → (s.stw.recvs.find? fun y => y.closed = 0 && y.part = p && y.takes k) = some y →
      phaseDone (cmdOf s y.cmd).phase = false → after .packetAbortRx s fun t => ended t y.cmd .unrecovered 0x851 0 0)
    ∧ (k.kind = 4 → (∀ x ∈ s.stw.colls, x.part = p → x.takes k = false) →
      (collOld s k = false → after .packetCollRx s fun t => t = { u with stw := { u.stw with waiting := s.stw.waiting ++ [k] } })
      ∧ (collOld s k = true → after .packetCollRx s fun t =>
        t = sendPacket (ackPacket k.src k.domain k.channel k.mseq k.offset true true 0) u))
    ∧ (∀ x, k.kind = 4 → collFor (fun x => x.part = p && x.takes k) k s = some x →
      (x.msg = some k.mseq → k.src = x.prev → x.got.contains k.offset = false → x.head.length ≤ k.offset →
        x.got.length + 1 ≠ packetCount x.inLen → after .packetCollRx s fun t => ∃ z : CollCtx,
          z = { x with got := x.got ++ [k.offset], rx := putBytes 0 x.rx (k.offset - x.head.length) k.data
                       granted := z.granted, rxPoison := z.rxPoison }
          ∧ (cmdRuns s x.cmd = true → z.granted = grantsDue x.inLen x.granted (x.got.length + 1))
          ∧ t = ackColl z k (modColl x.cmd (fun _ => z) u))
      ∧ (x.msg = none → k.offset = 0 → cmdRuns s x.cmd = true → collOld s k = false →
        (k.data = x.head → k.src = x.prev → x.op ≠ 3 → x.got.length ≠ packetCount x.inLen → after .packetCollRx s fun t =>
          let z := { x with msg := some k.mseq, granted := grantsDue x.inLen 0 0 }
          t = ackColl z k (modColl x.cmd (fun _ => z)
            { u with stw := { u.stw with collLast := tabSet 0 s.stw.collLast (collKey k) (k.mseq + 1) } }))
        ∧ (k.data ≠ x.head ∨ k.src ≠ x.prev ∨ x.op = 3 →
          after .packetCollRx s fun t => ended t x.cmd .descFault 0x802 0 0 ∧ t.mem = s.mem)))
    ∧ (∀ x, k.kind = 5 → (s.stw.colls.find? fun x => x.part = p && x.takes k && x.op = 3) = some x → cmdRuns s x.cmd = true →
      accessClear (setReply .nothing s) (2 * x.cmd) p [(collWork (cmdOf s x.cmd), workLen (cmdOf s x.cmd))] [] →
      (x.passes = 0 → (usableRoute s x.next).isSome = true → after .packetBarrierRx s fun t =>
        t = sendTagged (cmdTag x.cmd) { kind := 5, dst := x.next, domain := x.domain, channel := x.collId }
          (touchWork { x with passes := 1 } (modColl x.cmd (fun _ => { x with passes := 1 }) u)))
      ∧ (x.passes = 0 → usableRoute s x.next = none → after .packetBarrierRx s fun t => ended t x.cmd .unrecovered 0x850 0 0)
      ∧ (x.passes = 1 → x.pos = 0 → x.poison = false → after .packetBarrierRx s fun t => ended t x.cmd .ok 0 0 0 ∧ t.mem = s.mem))

/-- R16, R123, R161, R403, R406, R409, R411, R413, R414, R415, R416, R418: a FABRIC_SEND reads its descriptor once, and where no check refuses it
its tensor is read, its REQ sent and its message waits; accesses that a program of their bank defers are asked for there, and the command
goes on when it is issued again. A FABRIC_RECV waits for a REQ; a collective waits with its first step or barrier under way; a refused one
ends with its fault. An unacknowledged packet of a running job is sent again until the fourth time, which ends its command with UNRECOVERED
0x850; a job that holds no grant is stopped to become WAITING. A hop of ring attention is one FABRIC_SEND of the block held to next and one
FABRIC_RECV from previous on one channel; a device holds at a hop the block that previous held at the hop before, and finished nodes merge
to the same nodes in whatever order the blocks of up to four devices arrive, for four to the merge of the two merges of neighbours (R418
names the expansion as the runtime's; no command of the table runs it, log 143).
Where it meets a choice of the model and not a rule, the choice is that of log 81, 82, 84, 85 and 86. -/
def Obligations.FabricCommandsBegin : Prop :=
  (∀ (s : State) (c : Nat), let x := cmdOf s c
    let v := setReply .nothing s
    let p := homeOf s x.fn
    let waits := fun (t : State) => (cmdOf t c).phase = .running ∧ (cmdOf t c).waiting = true
    (classReady s c 0x30 = true → x.applied = false →
      let host := bit (field x 20 1) 0
      let sent := fun (w : State) (d : TDesc) (out : Nat) (t : State) => waits t
          ∧ (∃ y : SendCtx, t.stw.sends = s.stw.sends ++ [y] ∧ y.cmd = c ∧ y.dest = field x 16 2 ∧ y.channel = field x 18 2
            ∧ y.part = p ∧ y.domain = fabDomain s x ∧ y.data = (streamRead w x d).1 ∧ y.granted = 0
            ∧ y.mseq = tabGet 0 s.stw.mseqs (y.domain * 65536 + y.channel)
            ∧ y.req = reqData d ∧ y.asked = true
            ∧ (portOf t out).queue = (portOf s out).queue ++ (packetFlits (outVc s out true none)
              { kind := 1, dst := y.dest, src := ownId s, domain := y.domain, channel := y.channel, mseq := y.mseq
                nbytes := (reqData d).length, data := reqData d }).map fun z => (64 + c, z))
      (x.fetched = none → accessClear v (2 * c) p (bodyTouch host (field x 8 8) 128) [] →
        (∀ d, sendFault v x = none → sendTensor v x = .inr d →
          let w := modCmd c (fun x => { x with fetched := some { src := (bodyGet v x host (field x 8 8) 128).2.1 } })
            (bodyNote x host (field x 8 8) 128 v)
          (∀ out, accessClear w (2 * c) p (tensorTouches 2 d) (tensorTouches 3 d) → (∀ y ∈ s.stw.sends, y.cmd ≠ c) →
            usableRoute s (field x 16 2) = some out → after (.fabricSend c) s (sent w d out))
          ∧ (accessDefers w (2 * c) p (tensorTouches 2 d) (tensorTouches 3 d) →
            after (.fabricSend c) s (accessAsked (2 * c) (devDeferred w p (tensorTouches 2 d)) w)))
        ∧ (∀ f, sendFault v x = some f → after (.fabricSend c) s fun t => ended t c f.1 f.2 0 0))
      ∧ (x.fetched = none → accessDefers v (2 * c) p (bodyTouch host (field x 8 8) 128) [] →
        after (.fabricSend c) s (accessAsked (2 * c) (devDeferred v p (bodyTouch host (field x 8 8) 128)) v))
      ∧ (∀ y out, x.fetched = some y → (∀ z ∈ s.stw.sends, z.cmd ≠ c) → usableRoute s (field x 16 2) = some out →
        accessClear v (2 * c) p (tensorTouches 2 (tdescOf y.src)) (tensorTouches 3 (tdescOf y.src)) →
        ((chosenMover s).isSome = true → after (.fabricSend c) s (sent v (tdescOf y.src) out))
        ∧ (chosenMover s = none → after (.fabricSend c) s fun t => ended t c .unrecovered 0x150 0 0 ∧ t.mem = s.mem)))
    ∧ (classReady s c 0x31 = true → x.applied = false → (∀ y ∈ s.stw.recvs, y.cmd ≠ c) →
      accessClear v (2 * c) p (bodyTouch (bit (field x 20 1) 0) (field x 8 8) 128) [] →
      (recvFault v x = none → s.stw.waiting = [] → after (.fabricRecv c) s fun t => waits t
          ∧ ∃ y : RecvCtx, t.stw.recvs = s.stw.recvs ++ [y] ∧ y.cmd = c ∧ y.part = p ∧ y.source = field x 16 2
            ∧ y.channel = field x 18 2 ∧ y.domain = fabDomain s x ∧ y.msg = none ∧ y.closed = 0)
      ∧ (∀ f, recvFault v x = some f → after (.fabricRecv c) s fun t => ended t c f.1 f.2 0 0))
    ∧ (classReady s c 0x32 = true → x.applied = false → (∀ y ∈ s.stw.colls, y.cmd ≠ c) → accessClear v (2 * c) p (tableTouches x) [] →
      (firstFault (collFaults v x) = none →
        let n := bodyNote x false (collRing x) (2 * collN x) v
        let u := if collOp x = 3 then n else bodyNote x false (field x 8 8) 128 (bodyNote x false (field x 16 8) 128 n)
        let y := collCtx c x u
        let w := { u with stw := { u.stw with colls := u.stw.colls ++ [y] } }
        accessClear w (2 * c) y.part (beginTouches 2 y x) (beginTouches 3 y x) → (usableRoute s y.next).isSome = true →
        after (.fabricCollective c) s fun t => waits t ∧ ∃ z ∈ t.stw.colls, z.cmd = c ∧ z.begun = true
          ∧ z.ids = (ringIds u x).2.1 ∧ z.pos = collPos u z.ids ∧ z.op = collOp x ∧ z.ndev = collN x ∧ z.step = 0 ∧ z.passes = 0
          ∧ (z.op ≠ 3 → ∃ m ∈ t.stw.sends, m.cmd = c ∧ m.coll = true ∧ m.dest = z.next ∧ m.head = z.head))
      ∧ ∀ f, firstFault (collFaults v x) = some f → after (.fabricCollective c) s fun t => ended t c f.1 f.2 0 0)
    ∧ (∀ off y, running s = true → cmdRuns s c = true → unackedSend s c off = some y →
      (∀ e, tabGet 0 y.sends off < 4 → (usableRoute s y.dest).isSome = true → (chosenMover s).isSome = true →
        (y.admitted.find? fun e => e.1 = off) = some e → after (.packetAckTimeout c off) s fun t =>
          t = sendOne y e { setReply .nothing s with stw := { s.stw with resends := satAdd 32 s.stw.resends 1 } })
      ∧ (4 ≤ tabGet 0 y.sends off ∨ usableRoute s y.dest = none →
        after (.packetAckTimeout c off) s fun t => ended t c .unrecovered 0x850 0 0 ∧ t.mem = s.mem))
    ∧ (let mine := s.stw.sends.filter fun y => (cmdOf s y.cmd).fn = x.fn && (cmdOf s y.cmd).ring = x.ring
      running s = true → x.phase = .running → cmdClass x = 0x30 → cmdRuns s c = true → (∃ y ∈ mine, y.cmd = c) →
      (∀ y ∈ mine, y.holdsGrant = false) → p < 64 → engineClean s (x.fn, x.ring) = false → (partOf s p).images.length < (partOf s p).saveSlots →
      after (.grantWaitTimeout c) s fun t => (ringOf t x.fn x.ring).job = .suspending ∧ (partOf t p).pendingWait = true
        ∧ (partOf t p).running = (partOf s p).running ∧ t.mem = s.mem))
  ∧ (∀ (ids : List Nat) (r channel held next : Nat) (x : Cmd), r < ids.length → (∀ d ∈ ids, d < 65536) → channel < 65536 →
      held < 2 ^ 64 → next < 2 ^ 64 →
      let a := hopCmd x (ringHop ids r channel held next).1
      let b := hopCmd x (ringHop ids r channel held next).2
      cmdClass a = 0x30 ∧ field a 8 8 = held ∧ field a 16 2 = ids.getD ((r + 1) % ids.length) 0 ∧ field a 18 2 = channel
        ∧ cmdClass b = 0x31 ∧ field b 8 8 = next ∧ field b 16 2 = ids.getD ((r + ids.length - 1) % ids.length) 0 ∧ field b 18 2 = channel)
  ∧ (∀ n r k : Nat, r < n → blockAt n r 0 = r ∧ blockAt n r (k + 1) = blockAt n ((r + n - 1) % n) k)
  ∧ ∀ (node : Nat → Node) (n : Nat) (p : List Nat), n ≤ 4 → p.Perm (List.range n) →
    heldNodes n node p = heldNodes n node (List.range n)
    ∧ (n = 4 → heldNodes n node p = [(nodeKey 2 0, nodeMerge (nodeMerge (node 0) (node 1)) (nodeMerge (node 2) (node 3)))])

/-- R448, R449, R450, R451, R454, R455: writes of pending and mask bits change the bits the writer may write; a claim takes the offer, the
lowest-numbered deliverable source routed to the target, into service, clears it and holds its group where it has a hold-off; completion
ends the service it names and is counted with source 60 otherwise; EVC_SEQ_COUNT is cleared by its read; a group whose copies differ is
rebuilt with every bit pending and recorded, and a target's state that differs ends its service alone.
Where it meets a choice of the model and not a rule, the choice is that of log 5. -/
def Obligations.EventController : Prop :=
  ∀ s : State, running s = true →
    (∀ (t k : Nat) (v : W32), t < 33 → k < 64 →
      let g := groupOf s k
      let m := v &&& writable s t k
      ∀ (i : Instr) (g' : EvGroup), ((i = .evcPendSet t k v ∧ g' = { g with pend := g.pend ||| m })
          ∨ (i = .evcPendClr t k v ∧ g' = { g with pend := g.pend &&& ~~~m })
          ∨ (i = .evcMaskSet t k v ∧ g' = { g with mask := g.mask ||| m })
          ∨ (i = .evcMaskClr t k v ∧ g' = { g with mask := g.mask &&& ~~~m })
          ∨ (i = .eventHoldoffExpired k ∧ g.held = true ∧ g' = { g with held := false })) →
        after i s fun u => groupOf u k = g' ∧ (∀ j, j ≠ k → groupOf u j = groupOf s j)
          ∧ u = { s with evc := { s.evc with groups := u.evc.groups }, reply := u.reply })
    ∧ (∀ (t : Nat), t < 33 →
      (offer s t = none → after (.evcClaim t) s fun u => u = { s with reply := .data 0 })
      ∧ (∀ k, offer s t = some k →
        (deliverable s k = true ∧ routeOf s k = t ∧ ∀ j, j < k → routeOf s j = t → deliverable s j = false)
        ∧ after (.evcClaim t) s fun u => u.reply = .data (2 ^ 31 + k) ∧ (targetOf u t).insvc = some k
          ∧ groupOf u (k / 32) = { groupOf s (k / 32) with
              pend := (groupOf s (k / 32)).pend &&& ~~~BitVec.ofNat 32 (2 ^ (k % 32)), held := decide (holdOf s (k / 32) ≠ 0) }
          ∧ (∀ j, j ≠ k / 32 → groupOf u j = groupOf s j) ∧ (∀ r, r ≠ t → targetOf u r = targetOf s r)
          ∧ u = { s with evc := { s.evc with groups := u.evc.groups, targets := u.evc.targets }, reply := u.reply })
      ∧ (∀ v : W32, (targetOf s t).insvc = some (bits v.toNat 0 11) → after (.evcComplete t v) s fun u =>
        targetOf u t = { targetOf s t with insvc := none } ∧ (∀ r, r ≠ t → targetOf u r = targetOf s r)
          ∧ (∀ k, k < 2048 → deliverable s k = true → routeOf s k = t → (∀ j, j < k → routeOf s j = t → deliverable s j = false) →
            offer u t = some k)
          ∧ u = { s with evc := { s.evc with targets := u.evc.targets }, reply := u.reply })
      ∧ (∀ v : W32, (targetOf s t).insvc ≠ some (bits v.toNat 0 11) → after (.evcComplete t v) s fun u =>
        targetOf u t = { targetOf s t with seqCount := satAdd 16 (targetOf s t).seqCount 1, seqLast := BitVec.ofNat 11 (bits v.toNat 0 11) }
          ∧ (∀ r, r ≠ t → targetOf u r = targetOf s r) ∧ (groupOf u 1).pend.getLsbD 28 = true
          ∧ u = { s with evc := { s.evc with groups := u.evc.groups, targets := u.evc.targets }, reply := u.reply })
      ∧ (after (.evcSeqCountRead t) s fun u => u.reply = .data (evSeq (targetOf s t))
          ∧ targetOf u t = { targetOf s t with seqCount := 0, seqLast := 0 } ∧ (∀ r, r ≠ t → targetOf u r = targetOf s r)
          ∧ u = { s with evc := { s.evc with targets := u.evc.targets }, reply := u.reply }))
    ∧ (∀ (k : Nat) (m2 : W32) (a : Option Nat), k < 64 → k ≠ 1 → (∀ t, a = some t → t < 33) → after (.evcStateMismatch k m2 a) s fun u =>
        groupOf u k = (if a = none ∨ (groupOf s k).mask ≠ m2 then
            { groupOf s k with mask := fullerMask (groupOf s k).mask m2, pend := 0xFFFFFFFF } else groupOf s k)
          ∧ (∀ t, a = some t → (targetOf u t).insvc = none) ∧ (∀ t, a ≠ some t → targetOf u t = targetOf s t)
          ∧ u.evc.flogCount = s.evc.flogCount + 1 ∧ (tabGet {} u.evc.flog (s.evc.flogCount % 256)).kind = 0x24
          ∧ (groupOf u 1).pend.getLsbD 20 = true ∧ u = { s with evc := u.evc, freeCtr := u.freeCtr, reply := u.reply })

/-- R457 to R461, R463: a detected fault, a watchdog and a missed heartbeat write one record with KIND, UNIT and DETAIL and raise its source; the
group that each affected partition runs is due for recovery, with source 576 + p, and the record is PENDING, or NO_EFFECT where no group
was running; a frame-table entry that failed is rebuilt from the lists that name the frame (R463, log 166).
Where it meets a choice of the model and not a rule, the choice is that of log 96, 101 and 102. -/
def Obligations.FaultsAreRecordedAndRecoveryIsDue : Prop :=
  ∀ (s : State) (i : Instr) (kind src unit : Nat) (detail : W64) (ps : List Nat), running s = true →
    ((∃ n, n < 256 ∧ coreLive (coreOf s n) = true ∧ i = .saffronWatchdog n ∧ kind = 0x20 ∧ src = 31 ∧ unit = n ∧ detail = 0
        ∧ ps = coreParts s n)
      ∨ (∃ m, m < 32 ∧ (moverOf s m).state ≠ .deconfigured ∧ moverParts s m ≠ [] ∧ i = .moverWatchdog m ∧ kind = 0x20 ∧ src = 31
        ∧ unit = 0x1000 + m ∧ detail = 0 ∧ ps = moverParts s m)
      ∨ (∃ st, st < 8 ∧ i = .stackControllerWatchdog st ∧ kind = 0x20 ∧ src = 31 ∧ unit = 0x3000 + st ∧ detail = 0 ∧ ps = anyParts s)
      ∨ (∃ g, g < 4096 ∧ (cloveOf s g).forcedPending = true ∧ i = .cloveHangWatchdog g ∧ kind = 0x20 ∧ src = 31 ∧ unit = 0x2000 + g
        ∧ detail = 0 ∧ ps = cloveParts s g)
      ∨ (∃ ac p, ac < 32 ∧ p < 64 ∧ (partOf s p).state = .active ∧ (partOf s p).acs.contains ac = true ∧ i = .heartbeatTimeout ac p
        ∧ kind = 0x21 ∧ src = 50 ∧ unit = ac ∧ detail = BitVec.ofNat 64 p ∧ ps = acParts s ac)
      ∨ (∃ fi : FaultInfo, fi.wf = true ∧ i = .faultDetected fi ∧ kind = fi.kind ∧ unit = fi.unit ∧ detail = fi.detail
        ∧ (((fi.kind = 0x10 ∨ fi.kind = 0x11) ∧ src = 24 + fi.unit / 128 ∧ ps = coreParts s fi.unit)
          ∨ (fi.kind = 0x12 ∧ fi.masked = false ∧ fi.unit < 32 ∧ src = 26 + fi.unit / 16 ∧ ps = moverParts s fi.unit)
          ∨ (fi.kind = 0x12 ∧ fi.masked = false ∧ 32 ≤ fi.unit ∧ src = 16 + fi.unit % 8 ∧ ps = anyParts s)
          ∨ (fi.kind = 0x13 ∧ src = 16 + fi.unit / 512 ∧ ps = cloveParts s fi.unit)
          ∨ (fi.kind = 0x14 ∧ fi.masked = false ∧ src = 16 + fi.unit / 512 
            ∧ ps = (let x := frameOf (rebuildEntry fi.detail.toNat s) fi.detail.toNat; if x.state = .free then [] else [x.owner]))
          ∨ (fi.kind = 0x22 ∧ src = 51 ∧ ps = acParts s fi.unit)))) →
    after i s fun t => let r := tabGet {} t.evc.flog (s.evc.flogCount % 256)
      t.evc.flogCount = s.evc.flogCount + 1 ∧ r.kind = kind ∧ r.source = src ∧ r.unit = unit ∧ r.detail = detail
        ∧ r.outcome = (if ps.any (fun p => decide (p < 64) && (partOf s p).running.isSome) then outPending else outNoEffect)
        ∧ (groupOf t (src / 32)).pend.getLsbD (src % 32) = true
        ∧ (∀ p ∈ ps, p < 64 → ∀ j, (partOf s p).running = some j → (jobRing t j).recover = true
          ∧ (groupOf t (18 + p / 32)).pend.getLsbD (p % 32) = true)
        ∧ t.mem = s.mem ∧ t.hif.cmds = s.hif.cmds ∧ t.saf = s.saf ∧ t.clv = s.clv
        ∧ (kind ≠ 0x14 → t.kvt = s.kvt)
        ∧ (kind = 0x14 → (∀ n, n ≠ detail.toNat → frameOf t n = frameOf s n)
          ∧ ∀ p r e l, frameHolder s detail.toNat = some p → frameNames s p detail.toNat = (r, e) :: l →
            (frameOf t detail.toNat).state = .held ∧ (frameOf t detail.toNat).owner = p
              ∧ (frameOf t detail.toNat).refcnt = l.length + 1 ∧ (frameOf t detail.toNat).seq = BitVec.ofNat 32 r.seq)

/-- R192, R200, R214, R460, R469: a stack word that fails to several wrong bits reads poisoned from then on; a hard fault poisons its word
and retires its unit, an INTERLEAVED chunk, a frame of the K/V planes, or a BANK_LOCAL chunk once no window covers it; a far read that fails poisons its sector; a masked fault is recorded as MASKED; a lockstep mismatch restarts Sumac,
counted and recorded, with everything else as it was.
Where it meets a choice of the model and not a rule, the choice is that of log 73 and 101. -/
def Obligations.MemoryFaultsAndMaskedFaults : Prop :=
  ∀ s : State, running s = true →
    (∀ (g off : Nat), g < 4096 → off < 2 ^ 27 → off % 8 = 0 → testWindow s g off = false →
      after (.faultDetected { kind := 0x01, unit := g, detail := BitVec.ofNat 64 off }) s fun t => (readWord t g off).2 = .poisoned
        ∧ t.evc.flogCount = s.evc.flogCount + 1 ∧ (tabGet {} t.evc.flog (s.evc.flogCount % 256)).kind = 0x01
        ∧ tabGet 0 t.mem.due (g / 512) = satAdd 32 (tabGet 0 s.mem.due (g / 512)) 1
        ∧ ∀ h o, o % 8 = 0 → o < 2 ^ 27 → (h ≠ g ∨ o ≠ off) → rawWord t h o = rawWord s h o)
    ∧ (∀ (g off : Nat), g < 4096 → off < 2 ^ 27 → off % 8 = 0 →
      after (.faultDetected { kind := 0x02, unit := g, detail := BitVec.ofNat 64 off }) s fun t => (readWord t g off).2 = .poisoned
        ∧ s.evc.flogCount < t.evc.flogCount
        ∧ (let k := chunkAt s g off
           let kv := match mapOf s k with | none => true | some e => e.2.kv
           (planeLocal s k = false → isRetired t (.chunk k) = true)
           ∧ (planeLocal s k = true → k / 4096 < 32 → kv = true →
             isRetired t (.frame (g * 4096 + off / 16384)) = true ∧ (frameOf t (g * 4096 + off / 16384)).retired = true)
           ∧ (planeLocal s k = true → (32 ≤ k / 4096 ∨ kv = false) → k ∈ t.mem.localRetire)))
    ∧ (∀ (q a : Nat), q < 2 → a < 2 ^ 64 →
      after (.faultDetected { kind := 0x32, unit := q, detail := BitVec.ofNat 64 a }) s fun t => tabGet false t.mem.farPoison (a / 64) = true
        ∧ (farPortOf t q).poisonReads = satAdd 16 (farPortOf s q).poisonReads 1 ∧ t.evc.flogCount = s.evc.flogCount + 1
        ∧ t.mem.dram = s.mem.dram ∧ t.mem.far = s.mem.far)
    ∧ (∀ (u : Nat) (d : W64), u < 32 →
      after (.faultDetected { kind := 0x12, unit := u, detail := d, masked := true }) s fun t =>
        (tabGet {} t.evc.flog (s.evc.flogCount % 256)).outcome = outMasked ∧ t.evc.flogCount = s.evc.flogCount + 1
          ∧ t = { s with evc := t.evc, freeCtr := t.freeCtr, reply := t.reply })
    ∧ (after .sumacLockstepRestart s fun t => t.sec = { s.sec with restarts := satAdd 16 s.sec.restarts 1 }
        ∧ t.evc.flogCount = s.evc.flogCount + 1 ∧ (tabGet {} t.evc.flog (s.evc.flogCount % 256)).kind = 0x23
        ∧ t = { s with sec := t.sec, evc := t.evc, freeCtr := t.freeCtr, reply := t.reply })

/-- R8, R342, R464, R466, R468: a recovery takes the commands of the affected group back to their start, to run once more and report
OK_REPLAYED; a group whose fourth run met a fault that is not poison is not run again: what it has not reported ends with UNRECOVERED.
Where indices share a core, the alternation puts the running one aside with its state and takes the other up.
Where it meets a choice of the model and not a rule, the choice is that of log 95, 98 and 100. -/
def Obligations.GroupsRecover : Prop :=
  (∀ (s : State) (p : Nat) (j : Nat × Nat), p < 64 → running s = true → (jobsOf s p).filter (fun j => (jobRing s j).recover) = [j] →
    (s.kvt.frames.filter fun e => e.2.retired && e.2.state = .held && e.2.owner = p) = [] →
    let q := jobRing s j
    let cs := groupCmds s j.1 j.2 q.curGroup
    q.faulted = true → q.lost = [] → groupLost s cs = false →
    (q.runs < 4 → (∀ c ∈ cs, (cmdOf s c).overLong = false ∧ keepsEnd (cmdOf s c) = false) →
      after (.groupRecovery p) s fun t => (jobRing t j).runs = q.runs + 1 ∧ (jobRing t j).failed = false
        ∧ (∀ c ∈ cs, (cmdOf t c).phase = .fetched ∧ (cmdOf t c).replayed = true ∧ (cmdOf t c).applied = (cmdOf s c).applied
          ∧ (cmdOf t c).desc = (cmdOf s c).desc)
        ∧ ((∀ v ∈ s.sem.waiters, semVal s v.sem < v.value) → ∀ d, d ∉ cs → cmdOf t d = cmdOf s d))
    ∧ (4 ≤ q.runs → after (.groupRecovery p) s fun t => (jobRing t j).recover = false ∧ (jobRing t j).runs = q.runs
        ∧ (∀ c ∈ cs, (cmdOf s c).phase ≠ .reported → (cmdOf t c).phase = .done ∧ (cmdOf t c).status = .unrecovered)
        ∧ ((∀ v ∈ s.sem.waiters, semVal s v.sem < v.value) → ∀ d, d ∉ cs → cmdOf t d = cmdOf s d)))
  ∧ ∀ (s : State) (p n : Nat) (e : Nat × CoreImage), p < 64 → running s = true →
    ((partOf s p).swapped.find? fun e => (swappable s p e).isSome) = some e → swappable s p e = some n →
    (partOf s p).swapped = [e] → e.2.core.held = false →
    after (.coreAlternationTimeout p) s fun t =>
      (let x := coreTake e.2.core { coreOf s n with held := false }
       coreOf t n = { x with suspendReq := (coreOf t n).suspendReq, grace := (coreOf t n).grace
                             graceRun := (coreOf t n).graceRun, keepWait := (coreOf t n).keepWait }
       ∧ ((∀ w ∈ s.sem.waiters, w.who ≠ WaitName.word (coreOf s n).run (coreOf s n).pidx) → coreOf t n = x)) ∧ spadOf t n = e.2.spad
      ∧ (∃ i img, (partOf t p).swapped = [(i, img)] ∧ img.spad = { spadOf s n with restored := img.spad.restored } ∧ img.core.queue = (coreOf s n).queue
        ∧ img.core.tiles = (coreOf s n).tiles ∧ img.core.run = (coreOf s n).run)
      ∧ (∀ m, spadOf t m = if m = n then e.2.spad else spadOf s m)
      ∧ t.mem = { s.mem with asked := t.mem.asked, serving := t.mem.serving }
      ∧ ((∀ w ∈ s.sem.waiters, w.who ≠ WaitName.word (coreOf s n).run (coreOf s n).pidx) → t.hif = s.hif ∧ ∀ m, m ≠ n → coreOf t m = coreOf s m)

/-- R125, R138, R139, R148, R152, R159, R201, R207, R215, R239, R342: a COPY first reads its descriptors and index tensors, once, and holds them; one
that a check refuses writes nothing and ends with the check's status and cause, which its mover's fault registers show (without a
configured mover some check refuses it, R123: UNRECOVERED 0x150, or a status that ranks higher); the others go on to the data, at once where
nothing holds that. With nothing that holds its accesses it writes what its plan makes of the source, reports OK with RESULT the bytes
written, and leaves its mover's fault registers alone; with no mover left it ends UNRECOVERED 0x150. Accesses that programs defer are asked
for at their banks.
Where it meets a choice of the model and not a rule, the choice is that of log 22, 48, 50, 51 and 53. -/
def Obligations.CopiesComplete : Prop :=
  ∀ (s : State) (c : Nat), classReady s c 0x01 = true →
    let x := cmdOf s c
    let p := homeOf s x.fn
    let v := setReply .nothing s
    (x.fetched = none → hostHeld v x.fn (bit (field x 40 1) 3 || bit (field x 40 1) 4) = false →
      let modes := field x 40 1
      let a := tdescRead v x (bit modes 3) (field x 8 8) 0
      let b := tdescRead v x (bit modes 4) (field x 16 8) 1
      let u := bodyNote x (bit modes 3) (field x 8 8) 128 (bodyNote x (bit modes 4) (field x 16 8) 128 v)
      (accessClear v (2 * c) p (copyStartTouches v x) [] →
        (∀ src dst, copyCheck v x a b = none → a = .inr src → b = .inr dst →
          ∃ w, w = modCmd c (fun x => { x with fetched := some {
              src := (bodyGet v x (bit modes 3) (field x 8 8) 128).2.1, dst := (bodyGet v x (bit modes 4) (field x 16 8) 128).2.1
              sidx := indexList v x src, didx := indexList v x dst } }) (noteIndexes x a b .ok u)
            ∧ after (.copy c) w fun t => exec (.copy c) s = .next (if t.reply = .notTaken then w else t))
        ∧ (∀ f, copyCheck v x a b = some f →
          after (.copy c) s fun t => ended t c f.2.1 f.2.2 0 0
            ∧ (∀ m, chosenMover s = some m → (moverOf t m).faultStatus = BitVec.ofNat 8 (statusCode f.2.1)
              ∧ (moverOf t m).faultCause = BitVec.ofNat 12 f.2.2 ∧ (moverOf t m).faultSide = f.1)
            ∧ onlyEnd c { noteIndexes x a b f.2.1 u with mov := t.mov, freeCtr := t.freeCtr } t)
        ∧ (chosenMover s = none → ∃ f, copyCheck v x a b = some f))
      ∧ (accessDefers v (2 * c) p (copyStartTouches v x) [] →
        after (.copy c) s fun t => accessAsked (2 * c) (devDeferred v p (copyStartTouches v x)) s t))
    ∧ ∀ y, x.fetched = some y →
      let src := tdescOf y.src
      let dst := tdescOf y.dst
      let l := copyTouches 2 src dst y.sidx y.didx
      let far := copyTouches 3 src dst y.sidx y.didx
      (chosenMover s = none → after (.copy c) s fun t => ended t c .unrecovered 0x150 0 0)
      ∧ (∀ m, chosenMover s = some m → hostHeld v x.fn (src.space = 4 || dst.space = 4) = false →
        (accessDefers v (2 * c) p l far → after (.copy c) s fun t => accessAsked (2 * c) (devDeferred v p l) s t)
        ∧ (accessClear v (2 * c) p l far →
          let rd : Rnd := { mode := roundMode x, seed := field x 24 8, stream := field x 32 8 }
          let plan := copyPlan v x rd src dst y.sidx y.didx
          let items := copyItems src dst y.sidx y.didx
          let out := outSummaries dst (items ++ paddingItems dst (product (copyShape src dst))) plan.out
          (∀ k f, plan.fault = some (k, f) → after (.copy c) s fun t => ended t c f.2.1 f.2.2 k 0
            ∧ (moverOf t m).faultStatus = BitVec.ofNat 8 (statusCode f.2.1) ∧ (moverOf t m).faultCause = BitVec.ofNat 12 f.2.2
            ∧ (moverOf t m).faultSide = f.1 ∧ (moverOf t m).faultElem = BitVec.ofNat 64 k)
          ∧ (plan.fault = none → deadWrite v x dst items out = none → plan.poisonAt = none →
            hostRefused v x dst (outRuns v x dst out) = false →
            let w := storeOut x dst out (noteReads x src dst items plan.kept v)
            after (.copy c) s fun t => ended t c .ok 0 out.bytes.length 0 ∧ (cmdOf t c).flags = out.flags
              ∧ (moverOf t m).faultStatus = (moverOf w m).faultStatus ∧ (moverOf t m).faultCause = (moverOf w m).faultCause
              ∧ (moverOf t m).faultSide = (moverOf w m).faultSide ∧ (moverOf t m).faultElem = (moverOf w m).faultElem
              ∧ (moverOf t m).bytes = (moverOf w m).bytes + BitVec.ofNat 64 out.bytes.length
              ∧ onlyEnd c { w with mov := t.mov, freeCtr := t.freeCtr } t)))

/-- R292, R295, R296, R301, R314, R316, R342, R349: a STEP whose checks pass, and which no held access, swap of its model or lost host link keeps waiting,
admits its requests in order, passes the admitted ones through the layers of its model and completes with RESULT the requests that ran,
their rows and whether Cloves streamed the weights, its records and its return area written; a check that fails ends it with the worst
fault and its request's INDEX; a fault of its admission, one that its layers' reads meet and a return area that does not authenticate end it
too; the commands that it expands into raise EVC source 128 + p (R446, log 171); one that a replay finds applied completes with the values it had.
Where it meets a choice of the model and not a rule, the choice is that of log 25, 26, 57, 116, 127, 128 and 130. -/
def Obligations.StepsComplete : Prop :=
  ∀ (s : State) (c : Nat), classReady s c 0x04 = true → stepWaits s c = false → hostHeld s (cmdOf s c).fn true = false →
    let x := cmdOf s c
    let u := setReply .nothing s
    let l := (stepCheck u x).works
    (x.applied = true → after (.step c) s fun t => ended t c .ok 0 x.result 0 ∧ (cmdOf t c).flags = x.flags
      ∧ onlyEnd c (holdRecords c (homeOf s x.fn) x.decisions u) t)
    ∧ (∀ i st cause, x.applied = false → stepWorst (stepCheck u x).faults = some (i, st, cause) →
      after (.step c) s fun t => ended t c st cause 0 i ∧ onlyEnd c (stepCheckNote x (stepCheck u x) u) t)
    ∧ (∀ k, x.applied = false → stepWorst (stepCheck u x).faults = none → (stepCheck u x).ctx = some k →
      let touched := stepTouches k l u
      let far := stepFar k l u
      (accessDefers u (2 * c) k.p touched far → after (.step c) s fun t => accessAsked (2 * c) (devDeferred u k.p touched) s t)
      ∧ (accessClear u (2 * c) k.p touched far →
        let a := admitAll k l u
        let v := keepAdmission c k.p l a (kvNote { a.z with errs := [], copyErrs := [] } a.z.s)
        (∀ f, a.fault = some f → after (.step c) s fun t => ended t c f.2.1 f.2.2 0 f.1)
        ∧ (a.fault = none →
          let y := layerCtx v k l a
          let firsts := List.zip l (firstRows 0 (l.map (·.req)))
          let b := stepBatch y firsts a
          let done := l.filter fun w => a.out.any fun d => d.ix = w.req.ix && ran d
          let r := if b.rows = [] then (b, v) else runLayers y done b (raise (128 + k.p) v)
          let w := foldState done (writeRequest k.p) r.2
          let rows := (r.1.rows.filter (·.returned)).map fun e => (rowAt k e.ix, rowBytes y e)
          let runs := joinRuns (tableRun k firsts a w :: rows.map fun e => (e.1, e.2.1))
          (∀ f, r.1.fault = some f → after (.step c) s fun t => ended t c f.2.1 f.2.2 0 f.1)
          ∧ (r.1.fault = none → returnRefused w k runs = true → after (.step c) s fun t => ended t c .poisonConsumed 0x650 0 0)
          ∧ (r.1.fault = none → returnRefused w k runs = false →
            after (.step c) s fun t => ended t c .ok 0 (stepResult w k l a) 0 ∧ (cmdOf t c).applied = true
              ∧ (cmdOf t c).flags = rows.foldl (fun g e => g ||| e.2.2) r.1.flags ∧ onlyEnd c (putReturn k runs w) t))))

/-- R221, R231 to R236, R239, R241 to R244, R251: a BANK_RUN that no check refuses, with nothing that holds its accesses, sends one program to each listed Clove and waits for every
stack's image; written, the image admits its program when fewer than eight are admitted, else it waits for a place; a yield is counted,
serves what waits for the bank, which comes before any program runs again, and lets a program run on that nothing else waits for, or switches it out, for the next admitted program,
or for a suspension of its job; BV.END takes the program off its Clove, and the last one
completes its BANK_RUN.
Where it meets a choice of the model and not a rule, the choice is that of log 62, 63, 64 and 69. -/
def Obligations.BankRunsAndTheirPrograms : Prop :=
  (∀ (s : State) (c : Nat), classReady s c 0x03 = true → (cmdOf s c).waitFor = [] → onCloves s c = false →
    let x := cmdOf s c
    let v := setReply .nothing s
    let b := bankRunOf v x
    hostHeld v x.fn (brLaunchHost x || brFlushHost x) = false →
    (accessClear v (2 * c) (homeOf s x.fn) (bankTouches x b) [] → bankRunFault v x = none → b.flush.any (flushBusy s c) = false → (b.launch.map (·.bank)).Nodup →
      after (.bankRun c) s fun t => (cmdOf t c).phase = .running ∧ (cmdOf t c).waitFor = (b.launch.map fun e => e.bank / 512).eraseDups
        ∧ (∀ i e, b.launch[i]? = some e → ∃ im, (cloveOf t e.bank).waiting =
          (cloveOf s e.bank).waiting ++ [startProgram c x (homeOf s x.fn) b.head im i e])
        ∧ (∀ i e im, b.launch[i]? = some e → let q := startProgram c x (homeOf s x.fn) b.head im i e
          q.cmd = c ∧ q.launch = i ∧ q.pc = BitVec.ofNat 32 b.head.entry ∧ xv q 2 = 0x20000 ∧ xv q 10 = e.arg % 2 ^ 32
            ∧ xv q 11 = i % 2 ^ 32 ∧ xv q 12 = e.bank % 2 ^ 32 ∧ q.wbase = e.wbase ∧ q.wlim = e.wlim ∧ q.excl = bit b.head.flags 0)
        ∧ ∀ g, (∀ e ∈ b.launch, e.bank ≠ g) → cloveOf t g = cloveOf s g)
    ∧ (accessDefers v (2 * c) (homeOf s x.fn) (bankTouches x b) [] → (bankRunFault v x = none → b.flush.any (flushBusy s c) = false) →
      after (.bankRun c) s fun t => accessAsked (2 * c) (devDeferred v (homeOf s x.fn) (bankTouches x b)) s t)
    ∧ (∀ i st cause, accessClear v (2 * c) (homeOf s x.fn) (bankTouches x b) [] → bankRunFault v x = some (i, st, cause) →
      after (.bankRun c) s fun t => ended t c st cause 0 i ∧ ∀ g, (cloveOf t g).waiting.length = (cloveOf s g).waiting.length))
  ∧ (∀ (s : State) (c st : Nat), st < 8 → running s = true → (cmdOf s c).phase = .running → cmdClass (cmdOf s c) = 0x03 →
    (cmdOf s c).waitFor.contains st = true →
    after (.cloveImageLoaded c st) s fun t => (cmdOf t c).waitFor = (cmdOf s c).waitFor.erase st ∧ t.mem.dram = s.mem.dram
      ∧ (∀ g, g / 512 ≠ st → cloveOf t g = cloveOf s g)
      ∧ (∀ g q, g / 512 = st → 8 ≤ (cloveOf s g).progs.length → (cloveOf s g).waiting = [q] → q.cmd = c →
        cloveOf t g = { cloveOf s g with waiting := [{ q with loaded := true }] })
      ∧ ∀ g q, g / 512 = st → (cloveOf s g).state ≠ .off → (cloveOf s g).progs = [] → (cloveOf s g).waiting = [q] → q.cmd = c →
        q.suspended = false → q.started = false →
        (cloveOf t g).state = .running ∧ (cloveOf t g).waiting = [] ∧ (cloveOf t g).progs = [{ q with loaded := true, started := true }])
  ∧ (∀ (s : State) (g : Nat) (q : CloveProg), g < 4096 → running s = true → (cloveOf s g).progs.length < 8 →
    ((cloveOf s g).waiting.find? fun q => q.loaded && !q.suspended) = some q →
    after (.cloveProgramAdmit g) s fun t => t = { s with clv := t.clv, reply := t.reply }
      ∧ cloveOf t g = cloveFront { cloveOf s g with
          progs := (cloveOf s g).progs ++ [q], waiting := (cloveOf s g).waiting.filter fun p => p.cmd != q.cmd }
      ∧ ∀ h, h ≠ g → cloveOf t h = cloveOf s h)
  ∧ (∀ (s : State) (g : Nat) (q p2 : CloveProg) (w len : Nat), g < 4096 → activeProg s g = some q → cloveReady s g q w len →
    bvRow 0x7B 0 w = true → yieldCheck w q = none →
    ((cloveOf s g).progs = [q, p2] → p2.suspended = false → p2.cmd ≠ q.cmd → suspendPending s q = false →
      after (.bvYield g) s fun t => (cloveOf t g).state = .running ∧ (cloveOf t g).yields = satAdd 64 (cloveOf s g).yields 1
        ∧ (cloveOf t g).switches = satAdd 32 (cloveOf s g).switches 1
        ∧ ∃ q2 m sv, (cloveOf t g).progs = [{ p2 with started := true, saved := sv }, q2] ∧ (p2.saved = none → sv = none) ∧ q2.cmd = q.cmd ∧ q2.pc = q.pc + BitVec.ofNat 32 len
          ∧ q2.suspended = false ∧ q2.saved = some m ∧ m.live = hintLive (xv q (bvF1 w)) ∧ m.accs = bit (xv q (bvF1 w)) 31)
    ∧ ((cloveOf s g).progs = [q] → suspendPending s q = true →
      after (.bvYield g) s fun t => (cloveOf t g).state = .idle
        ∧ ∃ q2, (cloveOf t g).progs = [q2] ∧ q2.cmd = q.cmd ∧ q2.suspended = true ∧ q2.saved.isSome = true))
  ∧ ∀ (s : State) (g : Nat) (q : CloveProg), g < 4096 → (cloveOf s g).progs = [q] → activeProg s g = some q → tabGet [] s.mem.deferred g = [] →
    (eccOf s (g / 512)).busy = false →
    let served := fun (t : State) => ∀ k, tabGet none t.mem.asked k = (tabGet none s.mem.asked k).map fun l => l.filter (· != g)
    let mine := (s.mem.asked.filter fun e => asksFor g e.2).map (·.1)
    (∀ w len, cloveReady s g q w len → bvRow 0x7B 0 w = true → yieldCheck w q = none → suspendPending s q = false →
      after (.bvYield g) s fun t => ∃ k : W64,
        cloveOf t g = { cloveOf s g with
            yields := satAdd 64 (cloveOf s g).yields 1, poison := q.poisonSeen
            progs := [{ q with pc := q.pc + BitVec.ofNat 32 len, instret := q.instret + 1, cycle := q.cycle + k }] }
          ∧ (∀ h, h ≠ g → cloveOf t h = cloveOf s h) ∧ served t
          ∧ tabGet [] t.mem.serving g = mine
          ∧ t = { s with clv := t.clv
                         mem := { s.mem with deferred := t.mem.deferred, asked := t.mem.asked, serving := t.mem.serving }
                         freeCtr := t.freeCtr, reply := t.reply })
    ∧ (∀ w len, cloveReady s g q w len → bvRow 0x7B 1 w = true → bvF0 w = 0 → bvF1 w = 0 → bvF2 w = 0 → q.storedPoison = false →
      (cloveOf s g).waiting = [] → (cmdOf s q.cmd).faults = [] → tabWf {} s.clv.clove = true →
      (∀ e ∈ s.clv.clove, e.1 ≠ g → ∀ p ∈ e.2.progs ++ e.2.waiting, p.cmd ≠ q.cmd) →
      after (.bvEnd g) s fun t => ended t q.cmd .ok 0 0 0 ∧ (cmdOf t q.cmd).flags = (cmdOf s q.cmd).flags ||| q.numflags
        ∧ (cloveOf t g).progs = []
        ∧ (cloveOf t g).lastStatus = BitVec.ofNat 8 (statusCode (okStatus (cmdOf s q.cmd).replayed .ok))
        ∧ ∀ h, h ≠ g → cloveOf t h = { cloveOf s h with progs := (cloveOf t h).progs, waiting := (cloveOf t h).waiting })
    ∧ (q.stalled = false → suspendPending s q = false → after (.cloveForcedYield g) s fun t =>
        cloveOf t g = { cloveOf s g with forced := satAdd 32 (cloveOf s g).forced 1, forcedPending := false }
          ∧ served t ∧ tabGet [] t.mem.serving g = mine
          ∧ t = { s with clv := t.clv
                         mem := { s.mem with deferred := t.mem.deferred, asked := t.mem.asked, serving := t.mem.serving }, reply := t.reply })
    ∧ (q.stalled = true → after (.cloveForcedYield g) s fun t => cloveOf t g = { cloveOf s g with forcedPending := true }
        ∧ t = { s with clv := t.clv, reply := t.reply })

/-- R331, R336, R148, R152 to R155, R179, R180, R335, R337, R342: a fetch takes the descriptor at HEAD, opens or continues its group and
leaves its job no longer idle; a command starts when it may, a COPY clearing its mover's fault registers, or ends at once where its
descriptor is malformed; at a group's end the scratchpads, accumulators and staging regions of its partition are emptied, or its save image
is discarded; a completed command writes its record, with the ring's phase bit where it is not encrypted, and raises source 128 + p; one
that reports a failure ends what is left of its group with CANCELLED, and the last of a group ends the group.
Where it meets a choice of the model and not a rule, the choice is that of log 33. -/
def Obligations.CommandsAreFetchedStartedAndReported : Prop :=
  ∀ (s : State) (f r c : Nat), f ≤ 1025 → r < 16 → let q := ringOf s f r
    (canFetch s f r = true → q.fetchLen < 1024 → (q.failed = true → q.fetchGroup ≠ q.curGroup) →
      after (.descriptorFetch f r) s fun t => let n := s.hif.nextCmd + 1
        cmdOf t n = fetchedCmd s f r ∧ t.hif.nextCmd = n ∧ (∀ d, d ≠ n → cmdOf t d = cmdOf s d)
          ∧ (ringOf t f r).head = q.head + 1 ∧ (ringOf t f r).tail = q.tail
          ∧ (ringOf t f r).submitted = (if q.fetchLen = 0 then satAdd 64 q.submitted 1 else q.submitted)
          ∧ (ringOf t f r).fetchGroup = (if (fetchedCmd s f r).last then q.fetchGroup + 1 else q.fetchGroup)
          ∧ (ringOf t f r).fetchLen = (if (fetchedCmd s f r).last then 0 else q.fetchLen + 1)
          ∧ (ringOf t f r).job ≠ .idle ∧ t.mem = s.mem)
    ∧ (canStart s c = true → startFault s (cmdOf s c) = none →
      after (.commandStart c) s fun t => let n := s.hif.starts + 1
        cmdOf t c = { cmdOf s c with phase := .running, startNo := n } ∧ (∀ d, d ≠ c → cmdOf t d = cmdOf s d)
        ∧ (cmdClass (cmdOf s c) ≠ 0x01 → t.mov = s.mov)
        ∧ (∀ m, cmdClass (cmdOf s c) = 0x01 → chosenMover s = some m → (∀ k, k ≠ m → moverOf t k = moverOf s k)
          ∧ moverOf t m = { moverOf s m with faultStatus := 0, faultSide := 0, faultCause := 0, faultElem := 0 })
        ∧ t = { s with hif := { s.hif with cmds := t.hif.cmds, starts := n }, mov := t.mov, reply := t.reply })
    ∧ (∀ st cause, canStart s c = true → startFault s (cmdOf s c) = some (st, cause) →
      after (.commandStart c) s fun t => ended t c st cause 0 0 ∧ onlyEnd c (setReply .nothing s) t)
    ∧ (canDrain s f r = true → after (.groupEnd f r) s fun t => let p := homeOf s f
        (ringOf t f r).drained = true
        ∧ ((partOf s p).running = some (f, r) →
          (∀ n ∈ partCores s p, spadOf t n = {} ∧ (coreOf t n).tiles = [] ∧ (coreOf t n).ags = [] ∧ (coreOf t n).ancs = [])
          ∧ ∀ a, a < 2 ^ 28 → (tabGet 0 t.staging.bytes a = if (partOf s p).staging.getLsbD (a / 2 ^ 22) then 0 else tabGet 0 s.staging.bytes a)
            ∧ (spaceWritten t.staging (a / 64)
              = if (partOf s p).staging.getLsbD (a / 2 ^ 22) then false else spaceWritten s.staging (a / 64)))
        ∧ ((partOf s p).running ≠ some (f, r) → (partOf t p).images = (partOf s p).images.filter (fun m => !(m.fn = f && m.ring = r))
          ∧ t.staging = s.staging ∧ t.saf = s.saf)
        ∧ (∀ n, n ∉ partCores s p → spadOf t n = spadOf s n ∧ coreOf t n = coreOf s n)
        ∧ (∀ d, cmdOf t d = cmdOf s d) ∧ t.mem = s.mem)
    ∧ (canComplete s c = true → (cmdOf s c).noRecord = false → statusOk (cmdOf s c).status = true → othersOpen s c ≠ [] →
      let x := cmdOf s c
      let y := ringOf s x.fn x.ring
      after (.commandComplete c) s fun t => (cmdOf t c).phase = .reported ∧ (ringOf t x.fn x.ring).cqCount = y.cqCount + 1
        ∧ ((fnOf s x.fn).enc = false →
          hostRaw t x.fn (y.cqBase.toNat + 32 * (y.cqCount % 2 ^ y.size.toNat)) 32 = recordBytes x y.head ++ natLe 1 (phaseBit y))
        ∧ ((fnOf s x.fn).assigned = true → (fnOf s x.fn).part < 64 → (groupOf t (4 + (fnOf s x.fn).part / 32)).pend.getLsbD
            ((fnOf s x.fn).part % 32) = true)
        ∧ t.mem = s.mem ∧ t.kvt = s.kvt)
    ∧ (canComplete s c = true → (cmdOf s c).noRecord = false → statusOk (cmdOf s c).status = false → othersOpen s c ≠ [] →
      let x := cmdOf s c
      after (.commandComplete c) s fun t => (cmdOf t c).phase = .reported
        ∧ (ringOf t x.fn x.ring).cqCount = (ringOf s x.fn x.ring).cqCount + 1
        ∧ ∀ d ∈ groupCmds s x.fn x.ring x.group, d ≠ c → phaseDone (cmdOf s d).phase = false →
          (cmdOf t d).phase = .done ∧ (cmdOf t d).status = .cancelled)
    ∧ (canComplete s c = true → (cmdOf s c).noRecord = false → statusOk (cmdOf s c).status = true → othersOpen s c = [] →
      let x := cmdOf s c
      let y := ringOf s x.fn x.ring
      groupClosed s x = true → x.group = y.curGroup →
      after (.commandComplete c) s fun t => (ringOf t x.fn x.ring).cqCount = y.cqCount + 1
        ∧ (ringOf t x.fn x.ring).curGroup = y.curGroup + 1 ∧ (ringOf t x.fn x.ring).completed = satAdd 64 y.completed 1
        ∧ (ringOf t x.fn x.ring).drained = false ∧ groupCmds t x.fn x.ring y.curGroup = [])

/-- R364, R365, R367, R368, R369, R371, R403: a slice that ends with no job of the class waiting changes nothing; one that ends with another
waiting, an unmet wait, or a pending stop whose slot is free starts the job's stop; a stop without a free slot stays pending, and one whose
decision no longer stands is dropped. A stop that
has saved everything leaves an image and the job SUSPENDED, or WAITING where its wait is not satisfied by then; the image of the chosen job is restored and its slot freed, and a message of the
job that has no usable route then ends UNRECOVERED 0x850 (R403).
Where it meets a choice of the model and not a rule, the choice is that of log 43, 46 and 123. -/
def Obligations.JobsStopAndResume : Prop :=
  ∀ (s : State) (p : Nat) (j : Nat × Nat), p < 64 → let q := partOf s p
    let stops := fun (i : Instr) (wait : Bool) => after i s fun t => (jobRing t j).job = .suspending ∧ (partOf t p).pendingStop = 0
      ∧ (partOf t p).pendingWait = wait ∧ (partOf t p).running = some j ∧ (partOf t p).images = q.images ∧ t.mem = s.mem
    let pends := fun (i : Instr) (q' : Part) => after i s fun t => partOf t p = q' ∧ (∀ k, k ≠ p → partOf t k = partOf s k)
      ∧ t = { s with parts := t.parts, reply := t.reply }
    (activeJob s p = some j → effClass (jobRing s j) < minClass s (readyJobs s p) → after (.sliceExpired p) s (sameButReply s))
    ∧ (activeJob s p = some j → minClass s (readyJobs s p) ≤ effClass (jobRing s j) → q.pendingHold = false →
      engineClean s j = false → (q.images.length < q.saveSlots → stops (.sliceExpired p) false)
      ∧ (q.saveSlots ≤ q.images.length → pends (.sliceExpired p) { q with pendingStop := Nat.max q.pendingStop 2 }))
    ∧ (∀ c, (cmdOf s c).phase = .running → cmdClass (cmdOf s c) = 0x02 → runHeld s c = true → activeJob s p = some j →
      j = ((cmdOf s c).fn, (cmdOf s c).ring) → homeOf s j.1 = p → q.pendingHold = false → engineClean s j = false →
      (q.images.length < q.saveSlots → stops (.waitHoldTimeout c) true)
      ∧ (q.saveSlots ≤ q.images.length → pends (.waitHoldTimeout c) { q with pendingHold := true }))
    ∧ (activeJob s p = some j → (q.pendingStop ≠ 0 ∨ q.pendingHold = true) → q.images.length < q.saveSlots →
      (stopStands s p j = true → engineClean s j = false → stops (.pendingStopTaken p) q.pendingHold)
      ∧ (stopStands s p j = false → pends (.pendingStopTaken p) { q with pendingStop := 0 }))
    ∧ (j.1 ≤ 1025 → j.2 < 16 → homeOf s j.1 = p → (jobRing s j).job = .suspending → q.running = some j → (jobRing s j).failed = false →
      groupOver s j = false → stopDone s j = true →
      after (.jobStopComplete j.1 j.2) s fun t => (jobRing t j).job = (if q.pendingWait && !q.woken then .waiting else .suspended)
        ∧ (jobRing t j).preempted = satAdd 64 (jobRing s j).preempted 1
        ∧ ((∀ v ∈ s.sem.waiters, semVal s v.sem < v.value) → ∃ m, (partOf t p).images = q.images ++ [m] ∧ (m.fn, m.ring) = j
          ∧ m.cores = (coreIndices s p).map (savedImage s p q.pendingWait) ∧ m.staging = stagingOf s p)
        ∧ (∀ n ∈ partCores s p, spadOf t n = {}) ∧ t.mem = s.mem)
    ∧ (∀ m, j.1 ≤ 1025 → j.2 < 16 → homeOf s j.1 = p → (q.images.find? fun m => m.fn = j.1 && m.ring = j.2) = some m →
      (jobRing s j).job = .suspended → q.running = none → q.next = some j → running s = true → s.pwr.idle = .active →
      (jobRing s j).recover = false →
      (∀ x, s.stw.sends = [x] → ((cmdOf s x.cmd).fn, (cmdOf s x.cmd).ring) = j → x.coll = false → x.unsent = true → usableRoute s x.dest = none →
        after (.jobResume j.1 j.2) s fun t => ended t x.cmd .unrecovered 0x850 0 0)
      ∧ ((∀ x ∈ s.stw.sends, ((cmdOf s x.cmd).fn, (cmdOf s x.cmd).ring) = j → x.coll = false → x.unsent = true →
        (usableRoute s x.dest).isSome = true ∧ (chosenMover s).isSome = true) →
      after (.jobResume j.1 j.2) s fun t => (jobRing t j).job = .running ∧ (partOf t p).running = some j ∧ (partOf t p).next = none
        ∧ (partOf t p).images = q.images.filter (fun m => !(m.fn = j.1 && m.ring = j.2))
        ∧ ((∀ g, (cloveOf s g).progs = []) → t.mem = { s.mem with asked := t.mem.asked, serving := t.mem.serving })
        ∧ (∀ n, (∀ e ∈ m.cores, physCore s p e.core.pidx ≠ some n) → coreOf t n = coreOf s n ∧ spadOf t n = spadOf s n)
        ∧ ∀ e, m.cores = [e] → isAside s p e.core.pidx = false → ∀ n, physCore s p e.core.pidx = some n →
          spadOf t n = restoredSpad e ∧ coreOf t n = coreTake e.core (coreOf s n)))

/-- R483, R484, R486: a management request that arrives while one is in progress waits, sixteen at most, and a further one is answered
BUSY; the owner's repeated SEQ gets the stored response again and has no effect, BIND_FUNCTION's in the owner session as well; one that its
session or the life-cycle state does not allow is DENIED, and an allowed one whose LENGTH is above 4,096 or whose reserved bytes are not 0 is
INVALID.
Where it meets a choice of the model and not a rule, the choice is that of log 105. -/
def Obligations.ManagementRequestsAreAnswered : Prop :=
  ∀ (s : State) (i : Instr) (op : Nat) (q : Req), Instr.wf i = true → hostUp s 0 = true → mgmtOf i = some (op, q) →
    (s.sec.openReq.isSome = true → s.sec.queue.length < 16 → after i s fun t =>
      t = { s with sec := { s.sec with queue := s.sec.queue ++ [i] }, reply := t.reply })
    ∧ (s.sec.openReq.isSome = true → 16 ≤ s.sec.queue.length → after i s fun t =>
      let r : Response := { op := op, seq := q.seq, status := .busy, result := 0 }
      t = { s with sec := { s.sec with sent := s.sec.sent ++ [r] }, reply := .mgmt r })
    ∧ (∀ r, s.sec.openReq = none → ownerSession s q.sess = true → s.sec.stored = some r → r.seq = q.seq → after i s fun t =>
      t = { s with sec := { s.sec with sent := s.sec.sent ++ [r] }, reply := .mgmt r })
    ∧ (s.sec.openReq = none → (∀ r, s.sec.stored = some r → ownerSession s q.sess = true → r.seq ≠ q.seq) → allowed s op q.sess = false →
      after i s fun t => let r : Response := { op := op, seq := q.seq, status := .denied, result := 0 }
        t = { s with sec := { s.sec with sent := s.sec.sent ++ [r], stored := if ownerSession s q.sess then some r else s.sec.stored }
                     reply := .mgmt r })
    ∧ (s.sec.openReq = none → (∀ r, s.sec.stored = some r → ownerSession s q.sess = true → r.seq ≠ q.seq) → allowed s op q.sess = true →
      (4096 < q.len ∨ q.rest ≠ 0) → after i s fun t => let r : Response := { op := op, seq := q.seq, status := .invalid, result := 0 }
        t = { s with sec := { s.sec with sent := s.sec.sent ++ [r], stored := if ownerSession s q.sess then some r else s.sec.stored }
                     reply := .mgmt r })
    ∧ (∀ r, s.sec.openReq = none → ownerSession s q.sess = true → s.sec.stored = some r → r.seq = q.seq →
      after (.bindFunction q 0) s fun t => t = { s with sec := { s.sec with sent := s.sec.sent ++ [r] }, reply := .mgmt r })

/-- R358 to R361, R484, R485, R497, R516: PART_CREATE with valid parameters and free resources makes the lowest free partition CREATING,
with the groups (its cores in ascending order), a map range that meets no other and its chunks, a semaphore range at 0, the quotas, the
far range under a new key, the stack modes and the staging regions asked for, and the lowest free application core (the model's choice,
log 123); its runtime's report makes it ACTIVE, assigns its functions, raises the epoch and sends DONE, before the requests that wait are
taken up; PART_TEARDOWN puts it in TEARDOWN, ends its functions' work and its transfers, and its end clears its entries, claims and
semaphores and frees the number; FN_ASSIGN, PART_GROW (new chunks behind the old, new cores behind the old) and PART_SHRINK change an
ACTIVE partition.
Where it meets a choice of the model and not a rule, the choice is that of log 106, 107, 108 and 109. -/
def Obligations.PartitionsAndTheirFunctions : Prop :=
  ∀ (s : State) (q : Req), hostUp s 0 = true → s.sec.openReq = none →
    (∀ r, s.sec.stored = some r → r.seq ≠ q.seq) → ownerSession s q.sess = true → s.sec.lc = 2 → s.sec.recovery = false →
    q.malformed = false →
    let done := fun (op result : Nat) (t : State) => let r : Response := { op := op, seq := q.seq, status := .done, result := BitVec.ofNat 64 result }
      t.reply = .mgmt r ∧ t.sec = { s.sec with sent := s.sec.sent ++ [r], stored := some r }
    let range := fun (base : Nat) (used : List (Nat × Nat)) (n limit : Nat) =>
      base + n ≤ limit ∧ ∀ e ∈ used, base + n ≤ e.1 ∨ e.1 + e.2 ≤ base
    (∀ a : PartParams, createBad a = false → stagingHeld s a.staging = none → modesDiffer s a.stackMode = false →
      createLacks s a = false → choiceOk s a.choice a.chunks a.pool = true →
      after (.partCreate q a) s fun t => ∃ p, p < 64 ∧ (partOf s p).state = .none ∧ (∀ k, k < p → (partOf s k).state ≠ .none)
        ∧ t.sec = { s.sec with openReq := some { op := 1, seq := q.seq, part := p } }
        ∧ (let x := partOf t p
          x.state = .creating ∧ x.cores = a.cores ∧ x.coreList = coresOfMask a.cores ∧ some x.acs = (freeAc s).map (fun n => [n])
          ∧ x.ctCount = a.chunks + a.pool ∧ range x.ctBase (ctRanges s 64) (a.chunks + a.pool) 262144
          ∧ (∀ i e, a.choice[i]? = some e →
            ctOf t (x.ctBase + i) = { valid := true, bankLocal := planeLocal s e.1, kv := e.2, pchunk := e.1 })
          ∧ x.poolBase = a.chunks ∧ x.poolChunks = a.pool
          ∧ x.semCount = a.sems ∧ x.semQuota = a.sems ∧ range x.semBase (semRanges s) a.sems 65536
          ∧ (∀ n, x.semBase ≤ n → n < x.semBase + a.sems → semVal t n = 0)
          ∧ x.farSize = a.far ∧ range x.farBase (farRanges s) a.far (farTotal s) ∧ x.farKey = s.mem.farKeys + 1
          ∧ x.energy = 0 ∧ x.share = a.share ∧ x.cap = a.cap ∧ x.kvQuota = a.kvq ∧ x.slotQuota = a.slotq ∧ x.dircap = a.dircap
          ∧ x.saveSlots = a.saveSlots ∧ x.ibudget = a.ibudget ∧ x.domain = a.domain ∧ x.journal = a.journal ∧ x.staging = a.staging)
        ∧ t.clv.stackMode = a.stackMode
        ∧ (∀ i, i < 64 → a.staging.getLsbD i = true → claimOf t (0x80 + i) = { func := 0, owner := 4, part := p })
        ∧ (∀ k, k ≠ p → partOf t k = partOf s k) ∧ t.hif = s.hif ∧ t.mem.dram = s.mem.dram)
    ∧ (∀ p, p < 64 → (partOf s p).state = .active → after (.partTeardown q p) s fun t => (partOf t p).state = .teardown
        ∧ (partOf t p).running = none ∧ (partOf t p).images = [] ∧ (partOf t p).leaving = fnsOf s p
        ∧ (∀ x ∈ t.stw.sends, x.part ≠ p) ∧ (∀ x ∈ t.stw.recvs, x.part ≠ p) ∧ (∀ x ∈ t.stw.colls, x.part ≠ p) ∧ t.sec = { s.sec with openReq := some { op := 2, seq := q.seq, part := p } }
        ∧ (∀ f, (fnOf s f).assigned = true → (fnOf s f).part = p → (fnOf t f).assigned = false
          ∧ ((fnOf s f).state = .enabled → (fnOf t f).state = .disabling ∧ (fnOf t f).writeRecords = false)))
    ∧ (∀ p firstVf nvf pf pfb, p < 64 → firstVf < 2 ^ 16 → nvf < 2 ^ 16 → (nvf ≠ 0 → 1 ≤ firstVf ∧ firstVf + nvf ≤ 1025) →
      (∀ f ∈ assignFns firstVf nvf pf pfb, fnExists s f = true ∧ (fnOf s f).state = .disabled ∧ (fnOf s f).assigned = false) →
      (partOf s p).state = .active →
      after (.fnAssign q p firstVf nvf pf pfb false) s fun t => done 5 0 t
        ∧ (∀ f ∈ assignFns firstVf nvf pf pfb, fnOf t f = { fnOf s f with assigned := true, part := p })
        ∧ (∀ f, f ∉ assignFns firstVf nvf pf pfb → fnOf t f = fnOf s f)
        ∧ t = { s with hif := { s.hif with fn := t.hif.fn }, sec := t.sec, reply := t.reply })
    ∧ (∀ p firstVf nvf pf pfb, p < 64 → firstVf < 2 ^ 16 → nvf < 2 ^ 16 → (nvf ≠ 0 → 1 ≤ firstVf ∧ firstVf + nvf ≤ 1025) →
      (∀ f ∈ assignFns firstVf nvf pf pfb, fnExists s f = true ∧ (fnOf s f).state = .disabled ∧ (fnOf s f).assigned = true
        ∧ (fnOf s f).part = p) → (partOf s p).state = .active →
      after (.fnAssign q p firstVf nvf pf pfb true) s fun t => done 5 0 t
        ∧ (∀ f ∈ assignFns firstVf nvf pf pfb, fnOf t f = { fnOf s f with assigned := false, part := 0 })
        ∧ (∀ f, f ∉ assignFns firstVf nvf pf pfb → fnOf t f = fnOf s f)
        ∧ t = { s with hif := { s.hif with fn := t.hif.fn }, sec := t.sec, reply := t.reply })
    ∧ (∀ p cores chunks slots choice, p < 64 → chunks < 2 ^ 32 → slots < 2 ^ 8 → (∀ e ∈ choice, e.1 < 262144) →
      (partOf s p).state = .active → (partOf s p).saveSlots + slots ≤ 16 →
      (∀ k, k < 64 → cores.getLsbD k = true → groupFree s k = true) →
      (lowestGap (ctRanges s p) ((partOf s p).ctCount + chunks) 262144).isSome = true → choiceOk s choice chunks 0 = true →
      after (.partGrow q p cores chunks slots choice) s fun t => done 3 0 t ∧ (partOf t p).saveSlots = (partOf s p).saveSlots + slots
        ∧ (partOf t p).cores = (partOf s p).cores ||| cores ∧ (partOf t p).coreList = (partOf s p).coreList ++ coresOfMask cores
        ∧ (partOf t p).ctCount = (partOf s p).ctCount + chunks
        ∧ range (partOf t p).ctBase (ctRanges s p) ((partOf s p).ctCount + chunks) 262144
        ∧ (∀ i, i < (partOf s p).ctCount → ctOf t ((partOf t p).ctBase + i) = ctOf s ((partOf s p).ctBase + i))
        ∧ (∀ i e, choice[i]? = some e → ctOf t ((partOf t p).ctBase + (partOf s p).ctCount + i)
          = { valid := true, bankLocal := planeLocal s e.1, kv := e.2, pchunk := e.1 }) ∧ (∀ k, k ≠ p → partOf t k = partOf s k) ∧ t.hif = s.hif)
    ∧ (∀ p cores, p < 64 → (partOf s p).state = .active → (partOf s p).images = [] →
      cores ||| (partOf s p).cores = (partOf s p).cores → (partOf s p).orphans = [] →
      after (.partShrink q p cores) s fun t => done 4 0 t ∧ (partOf t p).cores = (partOf s p).cores &&& ~~~cores
        ∧ (partOf t p).coreList = (partOf s p).coreList.filter (fun n => !((coresOfMask cores).contains n))
        ∧ (∀ n ∈ coresOfMask cores, spadOf t n = {} ∧ routeOf t (256 + n) = 32) ∧ t.mem = s.mem ∧ t.hif = s.hif)
    ∧ (∀ (u : State) (p : Nat) (o : OpenReq), p < 64 → running u = true → u.sec.openReq = some o → o.part = p → tabWf {} u.rst.claims = true →
      let then_ := fun (i : Instr) (P : State → Prop) => ∃ t, exec i u = .next (drainQueue u.sec.queue.length t) ∧ t.sec.queue = u.sec.queue ∧ P t
      ((partOf u p).state = .creating → o.op = 1 →
        then_ (.runtimeReady p) fun t => let r : Response := { op := 1, seq := o.seq, status := .done, result := BitVec.ofNat 64 p }
          t.reply = .mgmt r ∧ t.sec = { u.sec with openReq := none, sent := u.sec.sent ++ [r], stored := some r, epoch := u.sec.epoch + 1 }
          ∧ partOf t p = { partOf u p with state := .active, epoch := u.sec.epoch + 1 } ∧ (∀ k, k ≠ p → partOf t k = partOf u k)
          ∧ (let mine := fun f => ((partOf u p).pfAttached = true ∧ f = 0)
              ∨ ((partOf u p).fnFirst ≤ f ∧ f < (partOf u p).fnFirst + (partOf u p).fnCount)
            (∀ f, mine f → fnOf t f = { fnOf u f with assigned := true, part := p }) ∧ (∀ f, ¬mine f → fnOf t f = fnOf u f))
          ∧ t.mem = u.mem)
      ∧ ((partOf u p).state = .teardown → o.op = 2 → (∀ f ∈ (partOf u p).leaving, (fnOf u f).state ≠ .disabling) →
        then_ (.teardownComplete p) fun t => let r : Response := { op := 2, seq := o.seq, status := .done, result := 0 }
          t.reply = .mgmt r ∧ t.sec = { u.sec with openReq := none, sent := u.sec.sent ++ [r], stored := some r }
          ∧ (partOf t p).state = .none ∧ (partOf t p).cores = 0 ∧ (partOf t p).ctCount = 0
          ∧ (∀ n, (partOf u p).ctBase ≤ n → n < (partOf u p).ctBase + (partOf u p).ctCount → ctOf t n = {})
          ∧ (∀ id, (claimOf u id).owner = 4 → (claimOf u id).part = p → claimOf t id = {})
          ∧ (∀ n, (partOf u p).semBase ≤ n → n < (partOf u p).semBase + (partOf u p).semCount → semVal t n = 0)))

/-- R183, R188, R197, R404, R474, R477, R479, R484, R488, R491, R492, R498: the other management requests of the owner. PLANE_MODE is written
while no partition exists; FABRIC_CFG sets the device ID, a route, a domain, a port; ECC_TEST opens a stack's window; FW_UPDATE fills the
slot not booted, FW_ACTIVATE names the next slot, raises minimum SVNs with COMMIT and revokes a key; LIFECYCLE to PROVISIONED takes a
release and RETURNED the identity, both through a cold reset, as RESET and OWNER_INSTALL do; BIND_FUNCTION turns encryption on.
Where it meets a choice of the model and not a rule, the choice is that of log 109 and 110. -/
def Obligations.ConfigurationFirmwareAndLifeCycle : Prop :=
  ∀ (s : State) (q : Req), hostUp s 0 = true → s.sec.openReq = none → (∀ r, s.sec.stored = some r → r.seq ≠ q.seq) → q.malformed = false →
    let resp := fun (op : Nat) => ({ op := op, seq := q.seq, status := .done, result := 0 } : Response)
    let told := fun (op : Nat) (sec : Sumac) => { sec with sent := sec.sent ++ [resp op], stored := some (resp op) }
    let reset := fun (cause : BitVec 3) (t : State) => t.rst.phase = .inReset ∧ t.rst.nextCause = cause ∧ t.hif.fn = [] ∧ t.parts = []
      ∧ t.mem = { retired := s.mem.retired } ∧ t.kvt = {}
    (ownerSession s q.sess = true → s.sec.lc = 2 → s.sec.recovery = false →
      (∀ v, noPartition s = true → after (.planeMode q v) s fun t =>
        t = { s with mem := { s.mem with planeMode := v }, sec := told 6 s.sec, reply := .mgmt (resp 6) })
      ∧ (∀ id, id < 0xFFFF → after (.fabricCfg q (.device id)) s fun t =>
        t = { s with stw := { s.stw with devId := BitVec.ofNat 16 id, devValid := true }, sec := told 7 s.sec, reply := .mgmt (resp 7) })
      ∧ (∀ id v p av alt, id < 2 ^ 16 → p < 8 → alt < 8 → after (.fabricCfg q (.route id v p av alt)) s fun t =>
        routeEntry t id = { valid := v, port := p, altValid := av, alt := alt } ∧ (∀ k, k ≠ id → routeEntry t k = routeEntry s k)
          ∧ t = { s with stw := { s.stw with routes := t.stw.routes }, sec := told 7 s.sec, reply := .mgmt (resp 7) })
      ∧ (∀ pt dim dl, pt < 8 → dim < 4 → (portOf s pt).state = .down → after (.fabricCfg q (.port pt true dim dl)) s fun t =>
        (portOf t pt).state = .training ∧ (portOf t pt).en = true ∧ (portOf t pt).dim = dim ∧ (portOf t pt).dateline = dl
          ∧ (∀ k, k ≠ pt → portOf t k = portOf s k) ∧ t.sec = told 7 s.sec)
      ∧ (∀ p st chunk, p < 64 → st < 8 → chunk < 262144 → eccWindowOk s p st chunk = true → after (.eccTest q p st chunk true) s fun t =>
        eccOf t st = { eccOf s st with en := true, ce := 0, due := 0, pchunk := chunk, part := p } ∧ (∀ k, k ≠ st → eccOf t k = eccOf s k)
          ∧ t = { s with mem := { s.mem with ecc := t.mem.ecc }, sec := told 8 s.sec, reply := .mgmt (resp 8) })
      ∧ (∀ p st chunk, p < 64 → st < 8 → chunk < 262144 → (eccOf s st).en = true → after (.eccTest q p st chunk false) s fun t =>
        eccOf t st = { eccOf s st with en := false, busy := false } ∧ (∀ k, k ≠ st → eccOf t k = eccOf s k) ∧ t.sec = told 8 s.sec ∧ t.hif = s.hif)
      ∧ (∀ p d, p < 64 → d < 2 ^ 16 → (partOf s p).state ≠ .none →
        (d = 0 ∨ ∀ k, k ≠ p → (partOf s k).domain ≠ d) →
        after (.fabricCfg q (.domain p d)) s fun t => partOf t p = { partOf s p with domain := d } ∧ (∀ k, k ≠ p → partOf t k = partOf s k)
          ∧ t = { s with parts := t.parts, sec := told 7 s.sec, reply := .mgmt (resp 7) })
      ∧ (∀ l, after (.fwUpdate q l) s fun t => let sl : FwSlot := { images := l, valid := setOk s l }
        let r : Response := { op := 9, seq := q.seq, status := if setOk s l then .done else .invalid, result := 0 }
        let u := if s.sec.bootSlotB then { s.sec with slotA := sl } else { s.sec with slotB := sl }
        t = { s with sec := { u with sent := s.sec.sent ++ [r], stored := some r }, reply := .mgmt r })
      ∧ (∀ (b commit : Bool) (rv : Option Nat), slotError s (if b then s.sec.slotB else s.sec.slotA) = none →
        (∀ k, rv = some k → k < 4 ∧ (validKeys s).any (fun j => j ≠ k) = true) →
        after (.fwActivate q b commit rv) s fun t => t.sec.bootB = b
          ∧ t.sec.revoked = (match rv with | none => s.sec.revoked | some k => s.sec.revoked ||| BitVec.ofNat 4 (2 ^ k))
          ∧ (commit = false → t.sec.minSvn = s.sec.minSvn)
          ∧ (commit = true → ∀ n, n < 8 → minSvn t n = Nat.max (minSvn s n)
            (Nat.min 63 (imgSvn (slotImage (if b then s.sec.slotB else s.sec.slotA) n))))
          ∧ t = { s with sec := t.sec, reply := .mgmt (resp 10) })
      ∧ (s.sec.releases ≠ 0 → after (.lifecycle q 1) s fun t => reset 3 t ∧ t.sec.lc = 1 ∧ t.sec.releases = s.sec.releases - 1
          ∧ t.sec.ownerKey = none ∧ t.sec.cert1 = [] ∧ t.sec.minSvn = s.sec.minSvn ∧ t.sec.revoked = s.sec.revoked ∧ t.reply = .mgmt (resp 11))
      ∧ (after (.lifecycle q 3) s fun t => reset 3 t ∧ t.sec.lc = 3 ∧ t.sec.identity = none ∧ t.reply = .mgmt (resp 11))
      ∧ (after (.reset q) s fun t => reset 2 t ∧ t.sec.lc = s.sec.lc ∧ t.reply = .mgmt (resp 12))
      ∧ (∀ chain, chain ≠ [] → after (.certInstall q chain true) s fun t =>
        t = { s with sec := told 14 { s.sec with cert1 := chain }, reply := .mgmt (resp 14) }))
    ∧ (∀ key, key ≠ [] → pfSession s q.sess = true → s.sec.lc = 1 → s.sec.recovery = false →
      after (.ownerInstall q key) s fun t => reset 3 t ∧ t.sec.lc = 2 ∧ t.sec.ownerKey = some key ∧ t.reply = .mgmt (resp 13))
    ∧ (∀ f x, f ≤ 1025 → hostUp s f = true → sessionOf s f q.sess = some x → s.sec.lc = 2 → s.sec.recovery = false → bindRefused s f = false →
      after (.bindFunction q f) s fun t => onlyFn f { s with sec := t.sec } t ∧ fnOf t f = { fnOf s f with
            enc := true, keyH2d := Config.derive x.secret (keyInfo true f), keyD2h := Config.derive x.secret (keyInfo false f), devCtr := 0 }
        ∧ t.reply = .mgmt (resp 16)
        ∧ t.sec = { s.sec with sent := s.sec.sent ++ [resp 16], stored := if f = 0 ∧ ownerSession s q.sess = true then some (resp 16) else s.sec.stored
                               sessions := s.sec.sessions.map fun y => if y = x then { y with bound := true } else y })

/-- R479, R480, R481, R489: an SPDM request in its order is answered and advances the negotiation of its own DOE alone, algorithms only where
the requester offers those of R480; sessions begin with KEY_EXCHANGE and a heartbeat period of at most 60 s, are established by FINISH,
renewed by KEY_UPDATE, and end with END_SESSION, a missed heartbeat where the period is not 0, or a requester that does not authenticate; the end of the session that bound an enabled function starts that function's shut-down without records.
Where it meets a choice of the model and not a rule, the choice is that of log 15, 27, 112, 113 and 114. -/
def Obligations.SpdmExchanges : Prop :=
  ∀ (s : State) (f : Nat), f ≤ 1025 → hostUp s f = true →
    let d := doeOf s f
    let answers := fun (t : State) => ∃ b, t.reply = .spdm b
    let stage := fun (e : Doe) (t : State) => answers t ∧ doeOf t f = e ∧ (∀ g, g ≠ f → doeOf t g = doeOf s g)
      ∧ t = { s with sec := { s.sec with does := t.sec.does }, reply := t.reply }
    let kept := fun (l : List Session) (t : State) => t = { s with sec := { s.sec with sessions := l }, reply := t.reply }
    after (.getVersion f) s (stage { version := true })
    ∧ (d.version = true → after (.getCapabilities f) s (stage { version := true, caps := true }))
    ∧ (∀ l, d.caps = true → after (.negotiateAlgorithms f l) s fun t =>
      if Config.offersAlgorithms l = true then stage { version := true, caps := true, algs := true } t else t = { s with reply := .spdmError })
    ∧ (d.version = false → after (.getCapabilities f) s fun t => t = { s with reply := .spdmError })
    ∧ (d.algs = true → (s.sec.lc = 1 ∨ s.sec.lc = 2) → after (.getDigests f) s fun t => answers t ∧ sameButReply s t)
    ∧ (∀ slot off len c, slot < 8 → d.algs = true → certChain s slot = some c →
      after (.getCertificate f slot off len) s fun t => t = { s with reply := .spdm ((c.drop off).take len) })
    ∧ (∀ i nonce b, i < 256 → d.algs = true → measured s f i = some b → after (.getMeasurements f i nonce) s fun t =>
      sameButReply s t ∧ ∃ sig, t.reply = .spdm (b ++ sig))
    ∧ (∀ own ex, d.algs = true → (s.sec.lc = 1 ∨ s.sec.lc = 2) → let o := own && f = 0 && s.sec.ownerKey.isSome
      (doeFull s f o = false → after (.keyExchange f own ex) s fun t => answers t
        ∧ (∃ k b, b ≤ 60 ∧ t.sec.sessions = s.sec.sessions ++ [{ fn := f, num := s.sec.nextSess + 1, owner := o, period := b, secret := k }])
        ∧ t = { s with sec := { s.sec with nextSess := s.sec.nextSess + 1, sessions := t.sec.sessions }, freeCtr := t.freeCtr, reply := t.reply })
      ∧ (doeFull s f o = true → after (.keyExchange f own ex) s fun t => t = { s with reply := .spdmBusy }))
    ∧ (∀ n x, anySession s f n = some x → x.finished = false →
      (after (.finish f n true) s fun t => answers t ∧ kept (s.sec.sessions.map fun y => if y = x then { y with finished := true } else y) t)
      ∧ after (.finish f n false) s fun t => t.reply = .spdmError ∧ kept (s.sec.sessions.filter fun y => y != x) t)
    ∧ (∀ n x, sessionOf s f n = some x →
      (after (.heartbeat f n) s fun t => answers t ∧ sameButReply s t)
      ∧ (after (.keyUpdate f n) s fun t => answers t
        ∧ kept (s.sec.sessions.map fun y => if y = x then { y with keyGen := y.keyGen + 1 } else y) t)
      ∧ (x.period = 0 → after (.spdmHeartbeatTimeout f n) s fun t => t = { s with reply := .notTaken })
      ∧ ∀ i, (i = .endSession f n ∨ (i = .spdmHeartbeatTimeout f n ∧ x.period ≠ 0)) →
        (x.bound = false → after i s (kept (s.sec.sessions.filter fun y => y != x)))
        ∧ (x.bound = true → (fnOf s f).enc = true → (fnOf s f).state = .enabled → after i s fun t =>
          (fnOf t f).state = .disabling ∧ (fnOf t f).writeRecords = false
            ∧ t.sec.sessions = s.sec.sessions.filter fun y => y != x))

/-- R509, R511, R512, R514, R517: CLM_CLAIM of a free pin with a function it offers gives the pin to the PF, and a claim that fails changes
CLM_RESULT only; CLM_RELEASE frees what the PF owns; the SMBus reads answer the bytes of the register
their code names, Block Read after the byte count 4, with the packet error code for a controller that asks for it, and are not acknowledged
for a code without a register.
Where it meets a choice of the model and not a rule, the choice is that of log 5. -/
def Obligations.ClaimsAndSmbusReads : Prop :=
  (∀ s : State, hostUp s 0 = true →
    (∀ id func : Nat, id < 8 → func < 16 → (pinFuncs id).contains func = true → (claimOf s id).owner = 0 → placedOn s id func = none →
      after (.clmClaim (BitVec.ofNat 32 (id + 256 * func))) s fun t => claimOf t id = { func := func, owner := 3 }
        ∧ (∀ k, k ≠ id → claimOf t k = claimOf s k) ∧ t.rst.clmResult = BitVec.ofNat 32 (id * 2 ^ 16 + 3 * 2 ^ 8)
        ∧ t = { s with rst := { s.rst with claims := t.rst.claims, clmResult := t.rst.clmResult }, reply := t.reply })
    ∧ (∀ id func : Nat, id < 256 → func < 16 → (∀ k, (claimOf s k).owner ≤ 4 ∧ (claimOf s k).part < 64) →
      (8 ≤ id ∨ (pinFuncs id).contains func = false ∨ (claimOf s id).owner ≠ 0 ∨ (placedOn s id func).isSome = true) →
      after (.clmClaim (BitVec.ofNat 32 (id + 256 * func))) s fun t =>
        t = { s with rst := { s.rst with clmResult := t.rst.clmResult }, reply := t.reply }
        ∧ (8 ≤ id → bits t.rst.clmResult.toNat 24 8 = 0x11)
        ∧ (id < 8 → (pinFuncs id).contains func = false → (claimOf s id).owner = 0 → placedOn s id func = none →
          bits t.rst.clmResult.toNat 24 8 = 0x13)
        ∧ (id < 8 → (pinFuncs id).contains func = true → bits t.rst.clmResult.toNat 24 8 = 0x31))
    ∧ (∀ id : Nat, id < 256 → (claimOf s id).owner = 3 → after (.clmRelease (BitVec.ofNat 32 id)) s fun t => claimOf t id = {}
        ∧ (∀ k, k ≠ id → claimOf t k = claimOf s k) ∧ t.rst.clmResult = BitVec.ofNat 32 (id * 2 ^ 16)
        ∧ t = { s with rst := { s.rst with claims := t.rst.claims, clmResult := t.rst.clmResult }, reply := t.reply })
    ∧ (∀ id : Nat, id < 256 → (claimOf s id).owner ≠ 3 → after (.clmRelease (BitVec.ofNat 32 id)) s fun t =>
        t = { s with rst := { s.rst with clmResult := t.rst.clmResult }, reply := t.reply }))
  ∧ ∀ (s : State) (code : Nat), code < 256 → s.rst.phase ≠ .off → s.rst.straps.getLsbD 2 = true →
    (∀ v, smbusValue s code = some v →
      (after (.smbusReadByte code) s fun t => t = { s with reply := smbusReply code (natLe 1 v) })
      ∧ (after (.smbusReadWord code) s fun t => t = { s with reply := smbusReply code (natLe 2 v) })
      ∧ after (.smbusBlockRead code) s fun t => t = { s with reply := smbusReply code (natLe 1 4 ++ natLe 4 v) })
    ∧ (smbusValue s code = none → ∀ i, (i = .smbusReadByte code ∨ i = .smbusReadWord code ∨ i = .smbusBlockRead code) →
      after i s fun t => t = { s with reply := .nack })
end

