-- ==== Sys2Proof/Laws/Exec.lean ====
section
/-!
SUPPORT. For each command: a command that names only what the part has answers the state its effect gives.
-/
namespace Sys2Proof.Machine

/-- The shape of every meaning: well-formed, it answers its effect on the state with an empty reply. -/
theorem take_next (c : Instr) (s : State) (f : State → State) (h : c.wf = true) : take c s f = .next (f (setReply .nothing s)) := by
  simp [take, h]

theorem take_ill (c : Instr) (s : State) (f : State → State) (h : c.wf = false) : take c s f = .next (notTaken s) := by
  simp [take, h]

theorem exec_registerWrite (f off width : Nat) (v : W64) (s : State) (h : Instr.wf (.registerWrite f off width v) = true) :
    exec (.registerWrite f off width v) s = .next ((registerWriteEffect f off width v) (setReply .nothing s)) := take_next _ _ _ h
theorem exec_badSizeAccess (f bar off size : Nat) (s : State) (h : Instr.wf (.badSizeAccess f bar off size) = true) :
    exec (.badSizeAccess f bar off size) s = .next ((badSizeEffect f bar off size) (setReply .nothing s)) := take_next _ _ _ h
theorem exec_halfReadLow (f : Nat) (off : ReadAt) (s : State) (h : Instr.wf (.halfReadLow f off) = true) :
    exec (.halfReadLow f off) s = .next ((halfReadLowEffect f off) (setReply .nothing s)) := take_next _ _ _ h
theorem exec_halfReadHigh (f off : Nat) (s : State) (h : Instr.wf (.halfReadHigh f off) = true) :
    exec (.halfReadHigh f off) s = .next ((halfReadHighEffect f off) (setReply .nothing s)) := take_next _ _ _ h
theorem exec_halfWriteLow (f off : Nat) (v : W32) (s : State) (h : Instr.wf (.halfWriteLow f off v) = true) :
    exec (.halfWriteLow f off v) s = .next ((halfWriteLowEffect f off v) (setReply .nothing s)) := take_next _ _ _ h
theorem exec_halfWriteHigh (f off : Nat) (v : W32) (s : State) (h : Instr.wf (.halfWriteHigh f off v) = true) :
    exec (.halfWriteHigh f off v) s = .next ((halfWriteHighEffect f off v) (setReply .nothing s)) := take_next _ _ _ h
theorem exec_readDroppedDb (f : Nat) (s : State) (h : Instr.wf (.readDroppedDb f) = true) :
    exec (.readDroppedDb f) s = .next ((readDroppedDbEffect f) (setReply .nothing s)) := take_next _ _ _ h
theorem exec_readBadAccess (f : Nat) (s : State) (h : Instr.wf (.readBadAccess f) = true) :
    exec (.readBadAccess f) s = .next ((readBadAccessEffect f) (setReply .nothing s)) := take_next _ _ _ h
theorem exec_fnEnable (f : Nat) (s : State) (h : Instr.wf (.fnEnable f) = true) :
    exec (.fnEnable f) s = .next ((fnEnableEffect f) (setReply .nothing s)) := take_next _ _ _ h
theorem exec_fnDisable (f : Nat) (s : State) (h : Instr.wf (.fnDisable f) = true) :
    exec (.fnDisable f) s = .next ((fnDisableEffect f) (setReply .nothing s)) := take_next _ _ _ h
theorem exec_flr (f : Nat) (s : State) (h : Instr.wf (.flr f) = true) :
    exec (.flr f) s = .next ((flrEffect f) (setReply .nothing s)) := take_next _ _ _ h
theorem exec_fnShutdownComplete (f : Nat) (s : State) (h : Instr.wf (.fnShutdownComplete f) = true) :
    exec (.fnShutdownComplete f) s = .next ((fnShutdownCompleteEffect f) (setReply .nothing s)) := take_next _ _ _ h
theorem exec_ringEnable (f r : Nat) (v : W32) (s : State) (h : Instr.wf (.ringEnable f r v) = true) :
    exec (.ringEnable f r v) s = .next ((ringEnableEffect f r v) (setReply .nothing s)) := take_next _ _ _ h
theorem exec_ringDisable (f r : Nat) (v : W32) (s : State) (h : Instr.wf (.ringDisable f r v) = true) :
    exec (.ringDisable f r v) s = .next ((ringDisableEffect f r v) (setReply .nothing s)) := take_next _ _ _ h
theorem exec_ringStopComplete (f r : Nat) (s : State) (h : Instr.wf (.ringStopComplete f r) = true) :
    exec (.ringStopComplete f r) s = .next ((ringStopCompleteEffect f r) (setReply .nothing s)) := take_next _ _ _ h
theorem exec_sqTailDoorbell (f r : Nat) (v : W32) (s : State) (h : Instr.wf (.sqTailDoorbell f r v) = true) :
    exec (.sqTailDoorbell f r v) s = .next ((sqTailEffect f r v) (setReply .nothing s)) := take_next _ _ _ h
theorem exec_cqHeadDoorbell (f r : Nat) (v : W32) (s : State) (h : Instr.wf (.cqHeadDoorbell f r v) = true) :
    exec (.cqHeadDoorbell f r v) s = .next ((cqHeadEffect f r v) (setReply .nothing s)) := take_next _ _ _ h
theorem exec_hostAccessFailed (f r : Nat) (write : Bool) (s : State) (h : Instr.wf (.hostAccessFailed f r write) = true) :
    exec (.hostAccessFailed f r write) s = .next ((hostAccessFailedEffect f r write) (setReply .nothing s)) := take_next _ _ _ h
theorem exec_bbRegister (f b : Nat) (v : W32) (s : State) (h : Instr.wf (.bbRegister f b v) = true) :
    exec (.bbRegister f b v) s = .next ((bbRegisterEffect f b v) (setReply .nothing s)) := take_next _ _ _ h
theorem exec_bbDeregister (f b : Nat) (v : W32) (s : State) (h : Instr.wf (.bbDeregister f b v) = true) :
    exec (.bbDeregister f b v) s = .next ((bbDeregisterEffect f b v) (setReply .nothing s)) := take_next _ _ _ h
theorem exec_ringSchedWrite (f r : Nat) (v : W32) (s : State) (h : Instr.wf (.ringSchedWrite f r v) = true) :
    exec (.ringSchedWrite f r v) s = .next ((ringSchedEffect f r v) (setReply .nothing s)) := take_next _ _ _ h
theorem exec_msixUnmask (f v : Nat) (s : State) (h : Instr.wf (.msixUnmask f v) = true) :
    exec (.msixUnmask f v) s = .next ((msixUnmaskEffect f v) (setReply .nothing s)) := take_next _ _ _ h
theorem exec_msixCoalesceTimeout (f r : Nat) (s : State) (h : Instr.wf (.msixCoalesceTimeout f r) = true) :
    exec (.msixCoalesceTimeout f r) s = .next ((msixCoalesceTimeoutEffect f r) (setReply .nothing s)) := take_next _ _ _ h
theorem exec_descriptorFetch (f r : Nat) (s : State) (h : Instr.wf (.descriptorFetch f r) = true) :
    exec (.descriptorFetch f r) s = .next ((descriptorFetchEffect f r) (setReply .nothing s)) := take_next _ _ _ h
theorem exec_commandStart (c : Nat) (s : State) (h : Instr.wf (.commandStart c) = true) :
    exec (.commandStart c) s = .next ((commandStartEffect c) (setReply .nothing s)) := take_next _ _ _ h
theorem exec_commandComplete (c : Nat) (s : State) (h : Instr.wf (.commandComplete c) = true) :
    exec (.commandComplete c) s = .next ((commandCompleteEffect c) (setReply .nothing s)) := take_next _ _ _ h
theorem exec_groupEnd (f r : Nat) (s : State) (h : Instr.wf (.groupEnd f r) = true) :
    exec (.groupEnd f r) s = .next ((groupEndEffect f r) (setReply .nothing s)) := take_next _ _ _ h
theorem exec_copy (c : Nat) (s : State) (h : Instr.wf (.copy c) = true) :
    exec (.copy c) s = .next ((copyEffect c) (setReply .nothing s)) := take_next _ _ _ h
theorem exec_run (c : Nat) (s : State) (h : Instr.wf (.run c) = true) :
    exec (.run c) s = .next ((runEffect c) (setReply .nothing s)) := take_next _ _ _ h
theorem exec_bankRun (c : Nat) (s : State) (h : Instr.wf (.bankRun c) = true) :
    exec (.bankRun c) s = .next ((bankRunEffect c) (setReply .nothing s)) := take_next _ _ _ h
theorem exec_step (c : Nat) (s : State) (h : Instr.wf (.step c) = true) :
    exec (.step c) s = .next ((stepEffect c) (setReply .nothing s)) := take_next _ _ _ h
theorem exec_kvAlloc (c : Nat) (s : State) (h : Instr.wf (.kvAlloc c) = true) :
    exec (.kvAlloc c) s = .next ((kvAllocEffect c) (setReply .nothing s)) := take_next _ _ _ h
theorem exec_kvFork (c : Nat) (s : State) (h : Instr.wf (.kvFork c) = true) :
    exec (.kvFork c) s = .next ((kvForkEffect c) (setReply .nothing s)) := take_next _ _ _ h
theorem exec_kvCommit (c : Nat) (s : State) (h : Instr.wf (.kvCommit c) = true) :
    exec (.kvCommit c) s = .next ((kvCommitEffect c) (setReply .nothing s)) := take_next _ _ _ h
theorem exec_kvFree (c : Nat) (s : State) (h : Instr.wf (.kvFree c) = true) :
    exec (.kvFree c) s = .next ((kvFreeEffect c) (setReply .nothing s)) := take_next _ _ _ h
theorem exec_adapterLoad (c : Nat) (s : State) (h : Instr.wf (.adapterLoad c) = true) :
    exec (.adapterLoad c) s = .next ((adapterLoadEffect c) (setReply .nothing s)) := take_next _ _ _ h
theorem exec_adapterEvict (c : Nat) (s : State) (h : Instr.wf (.adapterEvict c) = true) :
    exec (.adapterEvict c) s = .next ((adapterEvictEffect c) (setReply .nothing s)) := take_next _ _ _ h
theorem exec_modelSwap (c : Nat) (s : State) (h : Instr.wf (.modelSwap c) = true) :
    exec (.modelSwap c) s = .next ((modelSwapEffect c) (setReply .nothing s)) := take_next _ _ _ h
theorem exec_semSignal (c : Nat) (s : State) (h : Instr.wf (.semSignal c) = true) :
    exec (.semSignal c) s = .next ((semSignalEffect c) (setReply .nothing s)) := take_next _ _ _ h
theorem exec_semWait (c : Nat) (s : State) (h : Instr.wf (.semWait c) = true) :
    exec (.semWait c) s = .next ((semWaitEffect c) (setReply .nothing s)) := take_next _ _ _ h
theorem exec_fence (c : Nat) (s : State) (h : Instr.wf (.fence c) = true) :
    exec (.fence c) s = .next ((fenceEffect c) (setReply .nothing s)) := take_next _ _ _ h
theorem exec_fabricSend (c : Nat) (s : State) (h : Instr.wf (.fabricSend c) = true) :
    exec (.fabricSend c) s = .next ((fabricSendEffect c) (setReply .nothing s)) := take_next _ _ _ h
theorem exec_fabricRecv (c : Nat) (s : State) (h : Instr.wf (.fabricRecv c) = true) :
    exec (.fabricRecv c) s = .next ((fabricRecvEffect c) (setReply .nothing s)) := take_next _ _ _ h
theorem exec_fabricCollective (c : Nat) (s : State) (h : Instr.wf (.fabricCollective c) = true) :
    exec (.fabricCollective c) s = .next ((fabricCollectiveEffect c) (setReply .nothing s)) := take_next _ _ _ h
theorem exec_quotaSet (c : Nat) (s : State) (h : Instr.wf (.quotaSet c) = true) :
    exec (.quotaSet c) s = .next ((quotaSetEffect c) (setReply .nothing s)) := take_next _ _ _ h
theorem exec_evict (c : Nat) (s : State) (h : Instr.wf (.evict c) = true) :
    exec (.evict c) s = .next ((evictEffect c) (setReply .nothing s)) := take_next _ _ _ h
theorem exec_nop (n : Nat) (s : State) (h : Instr.wf (.nop n) = true) :
    exec (.nop n) s = .next ((nopEffect n) (setReply .nothing s)) := take_next _ _ _ h
theorem exec_agSet (n : Nat) (s : State) (h : Instr.wf (.agSet n) = true) :
    exec (.agSet n) s = .next ((agSetEffect n) (setReply .nothing s)) := take_next _ _ _ h
theorem exec_anchorLoad (n : Nat) (s : State) (h : Instr.wf (.anchorLoad n) = true) :
    exec (.anchorLoad n) s = .next ((anchorLoadEffect n) (setReply .nothing s)) := take_next _ _ _ h
theorem exec_tileMac (n : Nat) (s : State) (h : Instr.wf (.tileMac n) = true) :
    exec (.tileMac n) s = .next ((tileMacEffect n) (setReply .nothing s)) := take_next _ _ _ h
theorem exec_tileDrain (n : Nat) (s : State) (h : Instr.wf (.tileDrain n) = true) :
    exec (.tileDrain n) s = .next ((tileDrainEffect n) (setReply .nothing s)) := take_next _ _ _ h
theorem exec_tileLoad (n : Nat) (s : State) (h : Instr.wf (.tileLoad n) = true) :
    exec (.tileLoad n) s = .next ((tileLoadEffect n) (setReply .nothing s)) := take_next _ _ _ h
theorem exec_vec (n : Nat) (s : State) (h : Instr.wf (.vec n) = true) :
    exec (.vec n) s = .next ((vecEffect n) (setReply .nothing s)) := take_next _ _ _ h
theorem exec_signal (n : Nat) (s : State) (h : Instr.wf (.signal n) = true) :
    exec (.signal n) s = .next ((signalEffect n) (setReply .nothing s)) := take_next _ _ _ h
theorem exec_wait (n : Nat) (s : State) (h : Instr.wf (.wait n) = true) :
    exec (.wait n) s = .next ((waitEffect n) (setReply .nothing s)) := take_next _ _ _ h
theorem exec_acquire (n : Nat) (s : State) (h : Instr.wf (.acquire n) = true) :
    exec (.acquire n) s = .next ((acquireEffect n) (setReply .nothing s)) := take_next _ _ _ h
theorem exec_yieldPoint (n : Nat) (s : State) (h : Instr.wf (.yieldPoint n) = true) :
    exec (.yieldPoint n) s = .next ((yieldPointEffect n) (setReply .nothing s)) := take_next _ _ _ h
theorem exec_jump (n : Nat) (s : State) (h : Instr.wf (.jump n) = true) :
    exec (.jump n) s = .next ((jumpEffect n) (setReply .nothing s)) := take_next _ _ _ h
theorem exec_endWord (n : Nat) (s : State) (h : Instr.wf (.endWord n) = true) :
    exec (.endWord n) s = .next ((endWordEffect n) (setReply .nothing s)) := take_next _ _ _ h
theorem exec_streamFetch (n : Nat) (s : State) (h : Instr.wf (.streamFetch n) = true) :
    exec (.streamFetch n) s = .next ((streamFetchEffect n) (setReply .nothing s)) := take_next _ _ _ h
theorem exec_yieldGraceExpired (n : Nat) (s : State) (h : Instr.wf (.yieldGraceExpired n) = true) :
    exec (.yieldGraceExpired n) s = .next ((yieldGraceExpiredEffect n) (setReply .nothing s)) := take_next _ _ _ h
theorem exec_coreSaveComplete (n : Nat) (s : State) (h : Instr.wf (.coreSaveComplete n) = true) :
    exec (.coreSaveComplete n) s = .next ((coreSaveCompleteEffect n) (setReply .nothing s)) := take_next _ _ _ h
theorem exec_cloveScalarInstruction (g : Nat) (s : State) (h : Instr.wf (.cloveScalarInstruction g) = true) :
    exec (.cloveScalarInstruction g) s = .next ((cloveScalarInstructionEffect g) (setReply .nothing s)) := take_next _ _ _ h
theorem exec_cloveCsrWrite (g : Nat) (s : State) (h : Instr.wf (.cloveCsrWrite g) = true) :
    exec (.cloveCsrWrite g) s = .next ((cloveCsrWriteEffect g) (setReply .nothing s)) := take_next _ _ _ h
theorem exec_bvLd (g : Nat) (s : State) (h : Instr.wf (.bvLd g) = true) :
    exec (.bvLd g) s = .next ((bvLdEffect g) (setReply .nothing s)) := take_next _ _ _ h
theorem exec_bvSt (g : Nat) (s : State) (h : Instr.wf (.bvSt g) = true) :
    exec (.bvSt g) s = .next ((bvStEffect g) (setReply .nothing s)) := take_next _ _ _ h
theorem exec_bvLdm (g : Nat) (s : State) (h : Instr.wf (.bvLdm g) = true) :
    exec (.bvLdm g) s = .next ((bvLdmEffect g) (setReply .nothing s)) := take_next _ _ _ h
theorem exec_bvStm (g : Nat) (s : State) (h : Instr.wf (.bvStm g) = true) :
    exec (.bvStm g) s = .next ((bvStmEffect g) (setReply .nothing s)) := take_next _ _ _ h
theorem exec_bvPf (g : Nat) (s : State) (h : Instr.wf (.bvPf g) = true) :
    exec (.bvPf g) s = .next ((bvPfEffect g) (setReply .nothing s)) := take_next _ _ _ h
theorem exec_bvAcq (g : Nat) (s : State) (h : Instr.wf (.bvAcq g) = true) :
    exec (.bvAcq g) s = .next ((bvAcqEffect g) (setReply .nothing s)) := take_next _ _ _ h
theorem exec_bankLoadArrives (g : Nat) (s : State) (h : Instr.wf (.bankLoadArrives g) = true) :
    exec (.bankLoadArrives g) s = .next ((bankLoadArrivesEffect g) (setReply .nothing s)) := take_next _ _ _ h
theorem exec_bvAdd (g : Nat) (s : State) (h : Instr.wf (.bvAdd g) = true) :
    exec (.bvAdd g) s = .next ((bvAddEffect g) (setReply .nothing s)) := take_next _ _ _ h
theorem exec_bvSub (g : Nat) (s : State) (h : Instr.wf (.bvSub g) = true) :
    exec (.bvSub g) s = .next ((bvSubEffect g) (setReply .nothing s)) := take_next _ _ _ h
theorem exec_bvMul (g : Nat) (s : State) (h : Instr.wf (.bvMul g) = true) :
    exec (.bvMul g) s = .next ((bvMulEffect g) (setReply .nothing s)) := take_next _ _ _ h
theorem exec_bvMax (g : Nat) (s : State) (h : Instr.wf (.bvMax g) = true) :
    exec (.bvMax g) s = .next ((bvMaxEffect g) (setReply .nothing s)) := take_next _ _ _ h
theorem exec_bvMin (g : Nat) (s : State) (h : Instr.wf (.bvMin g) = true) :
    exec (.bvMin g) s = .next ((bvMinEffect g) (setReply .nothing s)) := take_next _ _ _ h
theorem exec_bvExp2 (g : Nat) (s : State) (h : Instr.wf (.bvExp2 g) = true) :
    exec (.bvExp2 g) s = .next ((bvExp2Effect g) (setReply .nothing s)) := take_next _ _ _ h
theorem exec_bvExp2sub (g : Nat) (s : State) (h : Instr.wf (.bvExp2sub g) = true) :
    exec (.bvExp2sub g) s = .next ((bvExp2subEffect g) (setReply .nothing s)) := take_next _ _ _ h
theorem exec_bvRcp (g : Nat) (s : State) (h : Instr.wf (.bvRcp g) = true) :
    exec (.bvRcp g) s = .next ((bvRcpEffect g) (setReply .nothing s)) := take_next _ _ _ h
theorem exec_bvMix2 (g : Nat) (s : State) (h : Instr.wf (.bvMix2 g) = true) :
    exec (.bvMix2 g) s = .next ((bvMix2Effect g) (setReply .nothing s)) := take_next _ _ _ h
theorem exec_bvCvt (g : Nat) (s : State) (h : Instr.wf (.bvCvt g) = true) :
    exec (.bvCvt g) s = .next ((bvCvtEffect g) (setReply .nothing s)) := take_next _ _ _ h
theorem exec_bvLimit (g : Nat) (s : State) (h : Instr.wf (.bvLimit g) = true) :
    exec (.bvLimit g) s = .next ((bvLimitEffect g) (setReply .nothing s)) := take_next _ _ _ h
theorem exec_bvMaskb (g : Nat) (s : State) (h : Instr.wf (.bvMaskb g) = true) :
    exec (.bvMaskb g) s = .next ((bvMaskbEffect g) (setReply .nothing s)) := take_next _ _ _ h
theorem exec_bvBcast (g : Nat) (s : State) (h : Instr.wf (.bvBcast g) = true) :
    exec (.bvBcast g) s = .next ((bvBcastEffect g) (setReply .nothing s)) := take_next _ _ _ h
theorem exec_bvExt (g : Nat) (s : State) (h : Instr.wf (.bvExt g) = true) :
    exec (.bvExt g) s = .next ((bvExtEffect g) (setReply .nothing s)) := take_next _ _ _ h
theorem exec_bvIns (g : Nat) (s : State) (h : Instr.wf (.bvIns g) = true) :
    exec (.bvIns g) s = .next ((bvInsEffect g) (setReply .nothing s)) := take_next _ _ _ h
theorem exec_bvRmax (g : Nat) (s : State) (h : Instr.wf (.bvRmax g) = true) :
    exec (.bvRmax g) s = .next ((bvRmaxEffect g) (setReply .nothing s)) := take_next _ _ _ h
theorem exec_bvEmax (g : Nat) (s : State) (h : Instr.wf (.bvEmax g) = true) :
    exec (.bvEmax g) s = .next ((bvEmaxEffect g) (setReply .nothing s)) := take_next _ _ _ h
theorem exec_bvEmaxl (g : Nat) (s : State) (h : Instr.wf (.bvEmaxl g) = true) :
    exec (.bvEmaxl g) s = .next ((bvEmaxlEffect g) (setReply .nothing s)) := take_next _ _ _ h
theorem exec_bvMv (g : Nat) (s : State) (h : Instr.wf (.bvMv g) = true) :
    exec (.bvMv g) s = .next ((bvMvEffect g) (setReply .nothing s)) := take_next _ _ _ h
theorem exec_bvDoth (g : Nat) (s : State) (h : Instr.wf (.bvDoth g) = true) :
    exec (.bvDoth g) s = .next ((bvDothEffect g) (setReply .nothing s)) := take_next _ _ _ h
theorem exec_bvMacl (g : Nat) (s : State) (h : Instr.wf (.bvMacl g) = true) :
    exec (.bvMacl g) s = .next ((bvMaclEffect g) (setReply .nothing s)) := take_next _ _ _ h
theorem exec_bvSumh (g : Nat) (s : State) (h : Instr.wf (.bvSumh g) = true) :
    exec (.bvSumh g) s = .next ((bvSumhEffect g) (setReply .nothing s)) := take_next _ _ _ h
theorem exec_bvAncset (g : Nat) (s : State) (h : Instr.wf (.bvAncset g) = true) :
    exec (.bvAncset g) s = .next ((bvAncsetEffect g) (setReply .nothing s)) := take_next _ _ _ h
theorem exec_bvAccrd (g : Nat) (s : State) (h : Instr.wf (.bvAccrd g) = true) :
    exec (.bvAccrd g) s = .next ((bvAccrdEffect g) (setReply .nothing s)) := take_next _ _ _ h
theorem exec_bvAccrdk (g : Nat) (s : State) (h : Instr.wf (.bvAccrdk g) = true) :
    exec (.bvAccrdk g) s = .next ((bvAccrdkEffect g) (setReply .nothing s)) := take_next _ _ _ h
theorem exec_bvAccrda (g : Nat) (s : State) (h : Instr.wf (.bvAccrda g) = true) :
    exec (.bvAccrda g) s = .next ((bvAccrdaEffect g) (setReply .nothing s)) := take_next _ _ _ h
theorem exec_bvAccclr (g : Nat) (s : State) (h : Instr.wf (.bvAccclr g) = true) :
    exec (.bvAccclr g) s = .next ((bvAccclrEffect g) (setReply .nothing s)) := take_next _ _ _ h
theorem exec_bvYield (g : Nat) (s : State) (h : Instr.wf (.bvYield g) = true) :
    exec (.bvYield g) s = .next ((bvYieldEffect g) (setReply .nothing s)) := take_next _ _ _ h
theorem exec_bvEnd (g : Nat) (s : State) (h : Instr.wf (.bvEnd g) = true) :
    exec (.bvEnd g) s = .next ((bvEndEffect g) (setReply .nothing s)) := take_next _ _ _ h
theorem exec_cloveForcedYield (g : Nat) (s : State) (h : Instr.wf (.cloveForcedYield g) = true) :
    exec (.cloveForcedYield g) s = .next ((cloveForcedYieldEffect g) (setReply .nothing s)) := take_next _ _ _ h
theorem exec_cloveProgramAdmit (g : Nat) (s : State) (h : Instr.wf (.cloveProgramAdmit g) = true) :
    exec (.cloveProgramAdmit g) s = .next ((cloveProgramAdmitEffect g) (setReply .nothing s)) := take_next _ _ _ h
theorem exec_cloveImageLoaded (c st : Nat) (s : State) (h : Instr.wf (.cloveImageLoaded c st) = true) :
    exec (.cloveImageLoaded c st) s = .next ((cloveImageLoadedEffect c st) (setReply .nothing s)) := take_next _ _ _ h
theorem exec_stackOrdinaryAccess (p g off : Nat) (write : Option (BitVec 512)) (s : State) (h : Instr.wf (.stackOrdinaryAccess p g off write) = true) :
    exec (.stackOrdinaryAccess p g off write) s = .next ((stackOrdinaryAccessEffect p g off write) (setReply .nothing s)) := take_next _ _ _ h
theorem exec_refreshOperation (g : Nat) (s : State) (h : Instr.wf (.refreshOperation g) = true) :
    exec (.refreshOperation g) s = .next ((refreshOperationEffect g) (setReply .nothing s)) := take_next _ _ _ h
theorem exec_scrubRead (g off : Nat) (s : State) (h : Instr.wf (.scrubRead g off) = true) :
    exec (.scrubRead g off) s = .next ((scrubReadEffect g off) (setReply .nothing s)) := take_next _ _ _ h
theorem exec_eccReadback (g off : Nat) (data : W64) (check : Byte) (s : State) (h : Instr.wf (.eccReadback g off data check) = true) :
    exec (.eccReadback g off data check) s = .next ((eccReadbackEffect g off data check) (setReply .nothing s)) := take_next _ _ _ h
theorem exec_retireMoveComplete (chunk : Nat) (s : State) (h : Instr.wf (.retireMoveComplete chunk) = true) :
    exec (.retireMoveComplete chunk) s = .next ((retireMoveCompleteEffect chunk) (setReply .nothing s)) := take_next _ _ _ h
theorem exec_bankLocalRetire (chunk : Nat) (s : State) (h : Instr.wf (.bankLocalRetire chunk) = true) :
    exec (.bankLocalRetire chunk) s = .next ((bankLocalRetireEffect chunk) (setReply .nothing s)) := take_next _ _ _ h
theorem exec_bwWindowRollover (st : Nat) (s : State) (h : Instr.wf (.bwWindowRollover st) = true) :
    exec (.bwWindowRollover st) s = .next ((bwWindowRolloverEffect st) (setReply .nothing s)) := take_next _ _ _ h
theorem exec_eccTestRawWrite (st : Nat) (v : W32) (s : State) (h : Instr.wf (.eccTestRawWrite st v) = true) :
    exec (.eccTestRawWrite st v) s = .next ((eccTestRawWriteEffect st v) (setReply .nothing s)) := take_next _ _ _ h
theorem exec_eccTestRawRead (st : Nat) (s : State) (h : Instr.wf (.eccTestRawRead st) = true) :
    exec (.eccTestRawRead st) s = .next ((eccTestRawReadEffect st) (setReply .nothing s)) := take_next _ _ _ h
theorem exec_farLinkDown (q : Nat) (s : State) (h : Instr.wf (.farLinkDown q) = true) :
    exec (.farLinkDown q) s = .next ((farLinkDownEffect q) (setReply .nothing s)) := take_next _ _ _ h
theorem exec_farLinkRestored (q : Nat) (wide : Bool) (s : State) (h : Instr.wf (.farLinkRestored q wide) = true) :
    exec (.farLinkRestored q wide) s = .next ((farLinkRestoredEffect q wide) (setReply .nothing s)) := take_next _ _ _ h
theorem exec_farRetrainTimeout (q : Nat) (s : State) (h : Instr.wf (.farRetrainTimeout q) = true) :
    exec (.farRetrainTimeout q) s = .next ((farRetrainTimeoutEffect q) (setReply .nothing s)) := take_next _ _ _ h
theorem exec_sliceExpired (p : Nat) (s : State) (h : Instr.wf (.sliceExpired p) = true) :
    exec (.sliceExpired p) s = .next ((sliceExpiredEffect p) (setReply .nothing s)) := take_next _ _ _ h
theorem exec_waitHoldTimeout (c : Nat) (s : State) (h : Instr.wf (.waitHoldTimeout c) = true) :
    exec (.waitHoldTimeout c) s = .next ((waitHoldTimeoutEffect c) (setReply .nothing s)) := take_next _ _ _ h
theorem exec_jobStopComplete (f r : Nat) (s : State) (h : Instr.wf (.jobStopComplete f r) = true) :
    exec (.jobStopComplete f r) s = .next ((jobStopCompleteEffect f r) (setReply .nothing s)) := take_next _ _ _ h
theorem exec_pendingStopTaken (p : Nat) (s : State) (h : Instr.wf (.pendingStopTaken p) = true) :
    exec (.pendingStopTaken p) s = .next ((pendingStopTakenEffect p) (setReply .nothing s)) := take_next _ _ _ h
theorem exec_jobResume (f r : Nat) (s : State) (h : Instr.wf (.jobResume f r) = true) :
    exec (.jobResume f r) s = .next ((jobResumeEffect f r) (setReply .nothing s)) := take_next _ _ _ h
theorem exec_inheritBudgetExpired (w : WaitName) (s : State) (h : Instr.wf (.inheritBudgetExpired w) = true) :
    exec (.inheritBudgetExpired w) s = .next ((budgetEffect w) (setReply .nothing s)) := take_next _ _ _ h
theorem exec_grantWaitTimeout (c : Nat) (s : State) (h : Instr.wf (.grantWaitTimeout c) = true) :
    exec (.grantWaitTimeout c) s = .next ((grantWaitTimeoutEffect c) (setReply .nothing s)) := take_next _ _ _ h
theorem exec_portTrained (pt rx tx : Nat) (s : State) (h : Instr.wf (.portTrained pt rx tx) = true) :
    exec (.portTrained pt rx tx) s = .next ((portTrainedEffect pt rx tx) (setReply .nothing s)) := take_next _ _ _ h
theorem exec_trainingAttemptTimeout (pt : Nat) (s : State) (h : Instr.wf (.trainingAttemptTimeout pt) = true) :
    exec (.trainingAttemptTimeout pt) s = .next ((trainingAttemptTimeoutEffect pt) (setReply .nothing s)) := take_next _ _ _ h
theorem exec_linkSessionEstablished (pt : Nat) (chainOk : Bool) (peerState peerBlock10 : Nat) (s : State) (h : Instr.wf (.linkSessionEstablished pt chainOk peerState peerBlock10) = true) :
    exec (.linkSessionEstablished pt chainOk peerState peerBlock10) s = .next ((linkSessionEstablishedEffect pt chainOk peerState peerBlock10) (setReply .nothing s)) := take_next _ _ _ h
theorem exec_laneFailure (pt lane : Nat) (s : State) (h : Instr.wf (.laneFailure pt lane) = true) :
    exec (.laneFailure pt lane) s = .next ((laneFailureEffect pt lane) (setReply .nothing s)) := take_next _ _ _ h
theorem exec_retrainComplete (pt : Nat) (txFail : Byte) (s : State) (h : Instr.wf (.retrainComplete pt txFail) = true) :
    exec (.retrainComplete pt txFail) s = .next ((retrainCompleteEffect pt txFail) (setReply .nothing s)) := take_next _ _ _ h
theorem exec_flitSend (pt : Nat) (s : State) (h : Instr.wf (.flitSend pt) = true) :
    exec (.flitSend pt) s = .next ((flitSendEffect pt) (setReply .nothing s)) := take_next _ _ _ h
theorem exec_flitRxSequenced (pt : Nat) (y : Flit) (s : State) (h : Instr.wf (.flitRxSequenced pt y) = true) :
    exec (.flitRxSequenced pt y) s = .next ((flitRxSequencedEffect pt y) (setReply .nothing s)) := take_next _ _ _ h
theorem exec_flitRxIdle (pt : Nat) (y : Flit) (s : State) (h : Instr.wf (.flitRxIdle pt y) = true) :
    exec (.flitRxIdle pt y) s = .next ((flitRxIdleEffect pt y) (setReply .nothing s)) := take_next _ _ _ h
theorem exec_flitRxNak (pt : Nat) (y : Flit) (s : State) (h : Instr.wf (.flitRxNak pt y) = true) :
    exec (.flitRxNak pt y) s = .next ((flitRxNakEffect pt y) (setReply .nothing s)) := take_next _ _ _ h
theorem exec_flitRxMgmt (pt : Nat) (y : Flit) (s : State) (h : Instr.wf (.flitRxMgmt pt y) = true) :
    exec (.flitRxMgmt pt y) s = .next ((flitRxMgmtEffect pt y) (setReply .nothing s)) := take_next _ _ _ h
theorem exec_replayTimeout (pt : Nat) (s : State) (h : Instr.wf (.replayTimeout pt) = true) :
    exec (.replayTimeout pt) s = .next ((replayTimeoutEffect pt) (setReply .nothing s)) := take_next _ _ _ h
theorem exec_linkKeyUpdate (pt : Nat) (s : State) (h : Instr.wf (.linkKeyUpdate pt) = true) :
    exec (.linkKeyUpdate pt) s = .next ((linkKeyUpdateEffect pt) (setReply .nothing s)) := take_next _ _ _ h
theorem exec_packetDataRx (s : State) (h : Instr.wf (.packetDataRx) = true) :
    exec .packetDataRx s = .next (packetDataRxEffect (setReply .nothing s)) := take_next _ _ _ h
theorem exec_packetReqRx (s : State) (h : Instr.wf (.packetReqRx) = true) :
    exec .packetReqRx s = .next (packetReqRxEffect (setReply .nothing s)) := take_next _ _ _ h
theorem exec_packetAckRx (s : State) (h : Instr.wf (.packetAckRx) = true) :
    exec .packetAckRx s = .next (packetAckRxEffect (setReply .nothing s)) := take_next _ _ _ h
theorem exec_packetRejectRx (s : State) (h : Instr.wf (.packetRejectRx) = true) :
    exec .packetRejectRx s = .next (packetRejectRxEffect (setReply .nothing s)) := take_next _ _ _ h
theorem exec_packetCollRx (s : State) (h : Instr.wf (.packetCollRx) = true) :
    exec .packetCollRx s = .next (packetCollRxEffect (setReply .nothing s)) := take_next _ _ _ h
theorem exec_packetBarrierRx (s : State) (h : Instr.wf (.packetBarrierRx) = true) :
    exec .packetBarrierRx s = .next (packetBarrierRxEffect (setReply .nothing s)) := take_next _ _ _ h
theorem exec_packetAbortRx (s : State) (h : Instr.wf (.packetAbortRx) = true) :
    exec .packetAbortRx s = .next (packetAbortRxEffect (setReply .nothing s)) := take_next _ _ _ h
theorem exec_packetAckTimeout (c off : Nat) (s : State) (h : Instr.wf (.packetAckTimeout c off) = true) :
    exec (.packetAckTimeout c off) s = .next ((packetAckTimeoutEffect c off) (setReply .nothing s)) := take_next _ _ _ h
theorem exec_powerSample (watts : Nat) (s : State) (h : Instr.wf (.powerSample watts) = true) :
    exec (.powerSample watts) s = .next ((powerSampleEffect watts) (setReply .nothing s)) := take_next _ _ _ h
theorem exec_energyInterval (total : Nat) (parts : List (Nat × Nat)) (rings : List (Nat × Nat × Nat)) (s : State) (h : Instr.wf (.energyInterval total parts rings) = true) :
    exec (.energyInterval total parts rings) s = .next ((energyIntervalEffect total parts rings) (setReply .nothing s)) := take_next _ _ _ h
theorem exec_powerControlStep (s : State) (h : Instr.wf (.powerControlStep) = true) :
    exec .powerControlStep s = .next (powerControlStepEffect (setReply .nothing s)) := take_next _ _ _ h
theorem exec_pwrCtrlWrite (v : W32) (s : State) (h : Instr.wf (.pwrCtrlWrite v) = true) :
    exec (.pwrCtrlWrite v) s = .next ((pwrCtrlWriteEffect v) (setReply .nothing s)) := take_next _ _ _ h
theorem exec_throttleStep (s : State) (h : Instr.wf (.throttleStep) = true) :
    exec .throttleStep s = .next (throttleStepEffect (setReply .nothing s)) := take_next _ _ _ h
theorem exec_throttleRecovery (s : State) (h : Instr.wf (.throttleRecovery) = true) :
    exec .throttleRecovery s = .next (throttleRecoveryEffect (setReply .nothing s)) := take_next _ _ _ h
theorem exec_sensorSample (n : Nat) (t : BitVec 16) (s : State) (h : Instr.wf (.sensorSample n t) = true) :
    exec (.sensorSample n t) s = .next ((sensorSampleEffect n t) (setReply .nothing s)) := take_next _ _ _ h
theorem exec_sensorSelfCheck (n : Nat) (ok : Bool) (s : State) (h : Instr.wf (.sensorSelfCheck n ok) = true) :
    exec (.sensorSelfCheck n ok) s = .next ((sensorSelfCheckEffect n ok) (setReply .nothing s)) := take_next _ _ _ h
theorem exec_sensorStaleTimeout (n : Nat) (s : State) (h : Instr.wf (.sensorStaleTimeout n) = true) :
    exec (.sensorStaleTimeout n) s = .next ((sensorStaleTimeoutEffect n) (setReply .nothing s)) := take_next _ _ _ h
theorem exec_coolantOkDeassert (s : State) (h : Instr.wf (.coolantOkDeassert) = true) :
    exec .coolantOkDeassert s = .next (coolantOkDeassertEffect (setReply .nothing s)) := take_next _ _ _ h
theorem exec_coolantOkTimeout (s : State) (h : Instr.wf (.coolantOkTimeout) = true) :
    exec .coolantOkTimeout s = .next (coolantOkTimeoutEffect (setReply .nothing s)) := take_next _ _ _ h
theorem exec_coolantOkAssert (s : State) (h : Instr.wf (.coolantOkAssert) = true) :
    exec .coolantOkAssert s = .next (coolantOkAssertEffect (setReply .nothing s)) := take_next _ _ _ h
theorem exec_stoppedSensorPoll (readings : List (Nat × Option (BitVec 16))) (s : State) (h : Instr.wf (.stoppedSensorPoll readings) = true) :
    exec (.stoppedSensorPoll readings) s = .next ((stoppedSensorPollEffect readings) (setReply .nothing s)) := take_next _ _ _ h
theorem exec_thermalRestart (s : State) (h : Instr.wf (.thermalRestart) = true) :
    exec .thermalRestart s = .next (thermalRestartEffect (setReply .nothing s)) := take_next _ _ _ h
theorem exec_powerOn (straps : BitVec 5) (readings : List (Nat × Option (BitVec 16))) (s : State) (h : Instr.wf (.powerOn straps readings) = true) :
    exec (.powerOn straps readings) s = .next ((powerOnEffect straps readings) (setReply .nothing s)) := take_next _ _ _ h
theorem exec_undervoltageStop (s : State) (h : Instr.wf (.undervoltageStop) = true) :
    exec .undervoltageStop s = .next (undervoltageStopEffect (setReply .nothing s)) := take_next _ _ _ h
theorem exec_powerLossClear (s : State) (h : Instr.wf (.powerLossClear) = true) :
    exec .powerLossClear s = .next (powerLossClearEffect (setReply .nothing s)) := take_next _ _ _ h
theorem exec_railsGood (s : State) (h : Instr.wf (.railsGood) = true) :
    exec .railsGood s = .next (railsGoodEffect (setReply .nothing s)) := take_next _ _ _ h
theorem exec_resetRelease (straps : BitVec 5) (s : State) (h : Instr.wf (.resetRelease straps) = true) :
    exec (.resetRelease straps) s = .next ((resetReleaseEffect straps) (setReply .nothing s)) := take_next _ _ _ h
theorem exec_perstAssert (second : Bool) (s : State) (h : Instr.wf (.perstAssert second) = true) :
    exec (.perstAssert second) s = .next ((perstAssertEffect second) (setReply .nothing s)) := take_next _ _ _ h
theorem exec_perstDeassert (second : Bool) (s : State) (h : Instr.wf (.perstDeassert second) = true) :
    exec (.perstDeassert second) s = .next ((perstDeassertEffect second) (setReply .nothing s)) := take_next _ _ _ h
theorem exec_idleStateEntry (s : State) (h : Instr.wf (.idleStateEntry) = true) :
    exec .idleStateEntry s = .next (idleStateEntryEffect (setReply .nothing s)) := take_next _ _ _ h
theorem exec_idleWake (w : WakeCause) (s : State) (h : Instr.wf (.idleWake w) = true) :
    exec (.idleWake w) s = .next ((idleWakeEffect w) (setReply .nothing s)) := take_next _ _ _ h
theorem exec_pwrIdleCtrlWrite (v : W32) (s : State) (h : Instr.wf (.pwrIdleCtrlWrite v) = true) :
    exec (.pwrIdleCtrlWrite v) s = .next ((pwrIdleCtrlWriteEffect v) (setReply .nothing s)) := take_next _ _ _ h
theorem exec_wakeInAssert (s : State) (h : Instr.wf (.wakeInAssert) = true) :
    exec .wakeInAssert s = .next (wakeInAssertEffect (setReply .nothing s)) := take_next _ _ _ h
theorem exec_evcPendSet (t k : Nat) (v : W32) (s : State) (h : Instr.wf (.evcPendSet t k v) = true) :
    exec (.evcPendSet t k v) s = .next ((evcPendSetEffect t k v) (setReply .nothing s)) := take_next _ _ _ h
theorem exec_evcPendClr (t k : Nat) (v : W32) (s : State) (h : Instr.wf (.evcPendClr t k v) = true) :
    exec (.evcPendClr t k v) s = .next ((evcPendClrEffect t k v) (setReply .nothing s)) := take_next _ _ _ h
theorem exec_evcMaskSet (t k : Nat) (v : W32) (s : State) (h : Instr.wf (.evcMaskSet t k v) = true) :
    exec (.evcMaskSet t k v) s = .next ((evcMaskSetEffect t k v) (setReply .nothing s)) := take_next _ _ _ h
theorem exec_evcMaskClr (t k : Nat) (v : W32) (s : State) (h : Instr.wf (.evcMaskClr t k v) = true) :
    exec (.evcMaskClr t k v) s = .next ((evcMaskClrEffect t k v) (setReply .nothing s)) := take_next _ _ _ h
theorem exec_evcClaim (t : Nat) (s : State) (h : Instr.wf (.evcClaim t) = true) :
    exec (.evcClaim t) s = .next ((evcClaimEffect t) (setReply .nothing s)) := take_next _ _ _ h
theorem exec_evcComplete (t : Nat) (v : W32) (s : State) (h : Instr.wf (.evcComplete t v) = true) :
    exec (.evcComplete t v) s = .next ((evcCompleteEffect t v) (setReply .nothing s)) := take_next _ _ _ h
theorem exec_evcSeqCountRead (t : Nat) (s : State) (h : Instr.wf (.evcSeqCountRead t) = true) :
    exec (.evcSeqCountRead t) s = .next ((evcSeqCountReadEffect t) (setReply .nothing s)) := take_next _ _ _ h
theorem exec_eventHoldoffExpired (k : Nat) (s : State) (h : Instr.wf (.eventHoldoffExpired k) = true) :
    exec (.eventHoldoffExpired k) s = .next ((eventHoldoffExpiredEffect k) (setReply .nothing s)) := take_next _ _ _ h
theorem exec_evcStateMismatch (k : Nat) (mask2 : W32) (target : Option Nat) (s : State) (h : Instr.wf (.evcStateMismatch k mask2 target) = true) :
    exec (.evcStateMismatch k mask2 target) s = .next ((evcStateMismatchEffect k mask2 target) (setReply .nothing s)) := take_next _ _ _ h
theorem exec_faultDetected (i : FaultInfo) (s : State) (h : Instr.wf (.faultDetected i) = true) :
    exec (.faultDetected i) s = .next ((faultDetectedEffect i) (setReply .nothing s)) := take_next _ _ _ h
theorem exec_saffronWatchdog (n : Nat) (s : State) (h : Instr.wf (.saffronWatchdog n) = true) :
    exec (.saffronWatchdog n) s = .next ((saffronWatchdogEffect n) (setReply .nothing s)) := take_next _ _ _ h
theorem exec_moverWatchdog (m : Nat) (s : State) (h : Instr.wf (.moverWatchdog m) = true) :
    exec (.moverWatchdog m) s = .next ((moverWatchdogEffect m) (setReply .nothing s)) := take_next _ _ _ h
theorem exec_stackControllerWatchdog (st : Nat) (s : State) (h : Instr.wf (.stackControllerWatchdog st) = true) :
    exec (.stackControllerWatchdog st) s = .next ((stackControllerWatchdogEffect st) (setReply .nothing s)) := take_next _ _ _ h
theorem exec_cloveHangWatchdog (g : Nat) (s : State) (h : Instr.wf (.cloveHangWatchdog g) = true) :
    exec (.cloveHangWatchdog g) s = .next ((cloveHangWatchdogEffect g) (setReply .nothing s)) := take_next _ _ _ h
theorem exec_heartbeatTimeout (ac p : Nat) (s : State) (h : Instr.wf (.heartbeatTimeout ac p) = true) :
    exec (.heartbeatTimeout ac p) s = .next ((heartbeatTimeoutEffect ac p) (setReply .nothing s)) := take_next _ _ _ h
theorem exec_groupRecovery (p : Nat) (s : State) (h : Instr.wf (.groupRecovery p) = true) :
    exec (.groupRecovery p) s = .next ((groupRecoveryEffect p) (setReply .nothing s)) := take_next _ _ _ h
theorem exec_sumacLockstepRestart (s : State) (h : Instr.wf (.sumacLockstepRestart) = true) :
    exec .sumacLockstepRestart s = .next (sumacLockstepRestartEffect (setReply .nothing s)) := take_next _ _ _ h
theorem exec_runtimeReady (p : Nat) (s : State) (h : Instr.wf (.runtimeReady p) = true) :
    exec (.runtimeReady p) s = .next ((runtimeReadyEffect p) (setReply .nothing s)) := take_next _ _ _ h
theorem exec_partCreate (q : Req) (a : PartParams) (s : State) (h : Instr.wf (.partCreate q a) = true) :
    exec (.partCreate q a) s = .next ((partCreateEffect q a) (setReply .nothing s)) := take_next _ _ _ h
theorem exec_partTeardown (q : Req) (p : Nat) (s : State) (h : Instr.wf (.partTeardown q p) = true) :
    exec (.partTeardown q p) s = .next ((partTeardownEffect q p) (setReply .nothing s)) := take_next _ _ _ h
theorem exec_partGrow (q : Req) (p : Nat) (cores : W64) (chunks saveSlots : Nat) (choice : List (Nat × Bool)) (s : State) (h : Instr.wf (.partGrow q p cores chunks saveSlots choice) = true) :
    exec (.partGrow q p cores chunks saveSlots choice) s = .next ((partGrowEffect q p cores chunks saveSlots choice) (setReply .nothing s)) := take_next _ _ _ h
theorem exec_partShrink (q : Req) (p : Nat) (cores : W64) (s : State) (h : Instr.wf (.partShrink q p cores) = true) :
    exec (.partShrink q p cores) s = .next ((partShrinkEffect q p cores) (setReply .nothing s)) := take_next _ _ _ h
theorem exec_fnAssign (q : Req) (p firstVf nvf : Nat) (pf pfb remove : Bool) (s : State) (h : Instr.wf (.fnAssign q p firstVf nvf pf pfb remove) = true) :
    exec (.fnAssign q p firstVf nvf pf pfb remove) s = .next ((fnAssignEffect q p firstVf nvf pf pfb remove) (setReply .nothing s)) := take_next _ _ _ h
theorem exec_planeMode (q : Req) (v : W64) (s : State) (h : Instr.wf (.planeMode q v) = true) :
    exec (.planeMode q v) s = .next ((planeModeEffect q v) (setReply .nothing s)) := take_next _ _ _ h
theorem exec_fabricCfg (q : Req) (a : FabricCfg) (s : State) (h : Instr.wf (.fabricCfg q a) = true) :
    exec (.fabricCfg q a) s = .next ((fabricCfgEffect q a) (setReply .nothing s)) := take_next _ _ _ h
theorem exec_eccTest (q : Req) (p st chunk : Nat) (opening : Bool) (s : State) (h : Instr.wf (.eccTest q p st chunk opening) = true) :
    exec (.eccTest q p st chunk opening) s = .next ((eccTestEffect q p st chunk opening) (setReply .nothing s)) := take_next _ _ _ h
theorem exec_fwUpdate (q : Req) (images : List Image) (s : State) (h : Instr.wf (.fwUpdate q images) = true) :
    exec (.fwUpdate q images) s = .next ((fwUpdateEffect q images) (setReply .nothing s)) := take_next _ _ _ h
theorem exec_fwActivate (q : Req) (slotB commit : Bool) (revoke : Option Nat) (s : State) (h : Instr.wf (.fwActivate q slotB commit revoke) = true) :
    exec (.fwActivate q slotB commit revoke) s = .next ((fwActivateEffect q slotB commit revoke) (setReply .nothing s)) := take_next _ _ _ h
theorem exec_lifecycle (q : Req) (target : Nat) (s : State) (h : Instr.wf (.lifecycle q target) = true) :
    exec (.lifecycle q target) s = .next ((lifecycleEffect q target) (setReply .nothing s)) := take_next _ _ _ h
theorem exec_reset (q : Req) (s : State) (h : Instr.wf (.reset q) = true) :
    exec (.reset q) s = .next ((resetEffect q) (setReply .nothing s)) := take_next _ _ _ h
theorem exec_ownerInstall (q : Req) (key : List Byte) (s : State) (h : Instr.wf (.ownerInstall q key) = true) :
    exec (.ownerInstall q key) s = .next ((ownerInstallEffect q key) (setReply .nothing s)) := take_next _ _ _ h
theorem exec_certInstall (q : Req) (chain : List Byte) (keyMatches : Bool) (s : State) (h : Instr.wf (.certInstall q chain keyMatches) = true) :
    exec (.certInstall q chain keyMatches) s = .next ((certInstallEffect q chain keyMatches) (setReply .nothing s)) := take_next _ _ _ h
theorem exec_bindFunction (q : Req) (f : Nat) (s : State) (h : Instr.wf (.bindFunction q f) = true) :
    exec (.bindFunction q f) s = .next ((bindFunctionEffect q f) (setReply .nothing s)) := take_next _ _ _ h
theorem exec_getVersion (f : Nat) (s : State) (h : Instr.wf (.getVersion f) = true) :
    exec (.getVersion f) s = .next ((getVersionEffect f) (setReply .nothing s)) := take_next _ _ _ h
theorem exec_getCapabilities (f : Nat) (s : State) (h : Instr.wf (.getCapabilities f) = true) :
    exec (.getCapabilities f) s = .next ((getCapabilitiesEffect f) (setReply .nothing s)) := take_next _ _ _ h
theorem exec_negotiateAlgorithms (f : Nat) (offered : List Byte) (s : State) (h : Instr.wf (.negotiateAlgorithms f offered) = true) :
    exec (.negotiateAlgorithms f offered) s = .next ((negotiateAlgorithmsEffect f offered) (setReply .nothing s)) := take_next _ _ _ h
theorem exec_getDigests (f : Nat) (s : State) (h : Instr.wf (.getDigests f) = true) :
    exec (.getDigests f) s = .next ((getDigestsEffect f) (setReply .nothing s)) := take_next _ _ _ h
theorem exec_getCertificate (f slot off len : Nat) (s : State) (h : Instr.wf (.getCertificate f slot off len) = true) :
    exec (.getCertificate f slot off len) s = .next ((getCertificateEffect f slot off len) (setReply .nothing s)) := take_next _ _ _ h
theorem exec_getMeasurements (f index : Nat) (nonce : List Byte) (s : State) (h : Instr.wf (.getMeasurements f index nonce) = true) :
    exec (.getMeasurements f index nonce) s = .next ((getMeasurementsEffect f index nonce) (setReply .nothing s)) := take_next _ _ _ h
theorem exec_keyExchange (f : Nat) (owner : Bool) (exchange : List Byte) (s : State) (h : Instr.wf (.keyExchange f owner exchange) = true) :
    exec (.keyExchange f owner exchange) s = .next ((keyExchangeEffect f owner exchange) (setReply .nothing s)) := take_next _ _ _ h
theorem exec_finish (f sess : Nat) (requesterOk : Bool) (s : State) (h : Instr.wf (.finish f sess requesterOk) = true) :
    exec (.finish f sess requesterOk) s = .next ((finishEffect f sess requesterOk) (setReply .nothing s)) := take_next _ _ _ h
theorem exec_heartbeat (f sess : Nat) (s : State) (h : Instr.wf (.heartbeat f sess) = true) :
    exec (.heartbeat f sess) s = .next ((heartbeatEffect f sess) (setReply .nothing s)) := take_next _ _ _ h
theorem exec_spdmHeartbeatTimeout (f sess : Nat) (s : State) (h : Instr.wf (.spdmHeartbeatTimeout f sess) = true) :
    exec (.spdmHeartbeatTimeout f sess) s = .next ((spdmHeartbeatTimeoutEffect f sess) (setReply .nothing s)) := take_next _ _ _ h
theorem exec_keyUpdate (f sess : Nat) (s : State) (h : Instr.wf (.keyUpdate f sess) = true) :
    exec (.keyUpdate f sess) s = .next ((keyUpdateEffect f sess) (setReply .nothing s)) := take_next _ _ _ h
theorem exec_endSession (f sess : Nat) (s : State) (h : Instr.wf (.endSession f sess) = true) :
    exec (.endSession f sess) s = .next ((endSessionEffect f sess) (setReply .nothing s)) := take_next _ _ _ h
theorem exec_clmClaim (v : W32) (s : State) (h : Instr.wf (.clmClaim v) = true) :
    exec (.clmClaim v) s = .next ((clmClaimEffect v) (setReply .nothing s)) := take_next _ _ _ h
theorem exec_clmRelease (v : W32) (s : State) (h : Instr.wf (.clmRelease v) = true) :
    exec (.clmRelease v) s = .next ((clmReleaseEffect v) (setReply .nothing s)) := take_next _ _ _ h
theorem exec_smbusReadByte (code : Nat) (s : State) (h : Instr.wf (.smbusReadByte code) = true) :
    exec (.smbusReadByte code) s = .next ((smbusReadByteEffect code) (setReply .nothing s)) := take_next _ _ _ h
theorem exec_smbusReadWord (code : Nat) (s : State) (h : Instr.wf (.smbusReadWord code) = true) :
    exec (.smbusReadWord code) s = .next ((smbusReadWordEffect code) (setReply .nothing s)) := take_next _ _ _ h
theorem exec_smbusBlockRead (code : Nat) (s : State) (h : Instr.wf (.smbusBlockRead code) = true) :
    exec (.smbusBlockRead code) s = .next ((smbusBlockReadEffect code) (setReply .nothing s)) := take_next _ _ _ h
theorem exec_reservedControlWord (n : Nat) (s : State) (h : Instr.wf (.reservedControlWord n) = true) :
    exec (.reservedControlWord n) s = .next ((reservedWordEffect n) (setReply .nothing s)) := take_next _ _ _ h
theorem exec_pfReady (s : State) (h : Instr.wf (.pfReady) = true) :
    exec .pfReady s = .next (pfReadyEffect (setReply .nothing s)) := take_next _ _ _ h
theorem exec_teardownComplete (p : Nat) (s : State) (h : Instr.wf (.teardownComplete p) = true) :
    exec (.teardownComplete p) s = .next ((teardownCompleteEffect p) (setReply .nothing s)) := take_next _ _ _ h
theorem exec_coolantOkQualified (s : State) (h : Instr.wf (.coolantOkQualified) = true) :
    exec .coolantOkQualified s = .next (coolantOkQualifiedEffect (setReply .nothing s)) := take_next _ _ _ h
theorem exec_referenceClockLoss (input : Nat) (s : State) (h : Instr.wf (.referenceClockLoss input) = true) :
    exec (.referenceClockLoss input) s = .next ((referenceClockLossEffect input) (setReply .nothing s)) := take_next _ _ _ h
theorem exec_idleFlitSend (pt : Nat) (s : State) (h : Instr.wf (.idleFlitSend pt) = true) :
    exec (.idleFlitSend pt) s = .next ((idleFlitSendEffect pt) (setReply .nothing s)) := take_next _ _ _ h
theorem exec_configurationRequest (f : Nat) (d3hot : Option Bool) (s : State) (h : Instr.wf (.configurationRequest f d3hot) = true) :
    exec (.configurationRequest f d3hot) s = .next ((configurationRequestEffect f d3hot) (setReply .nothing s)) := take_next _ _ _ h
theorem exec_coreAlternationTimeout (p : Nat) (s : State) (h : Instr.wf (.coreAlternationTimeout p) = true) :
    exec (.coreAlternationTimeout p) s = .next ((coreAlternationTimeoutEffect p) (setReply .nothing s)) := take_next _ _ _ h

end Sys2Proof.Machine
end

