-- ==== Sys2Proof/Laws/Tab.lean ====
section
/-!
SUPPORT. Laws of the sparse tables: a read after a write, and that every table operation keeps the canonical form.
-/
namespace Sys2Proof

variable {α : Type}

@[simp] theorem tabGet_nil (d : α) (k : Nat) : tabGet d [] k = d := rfl

theorem tabGet_tabErase (d : α) (t : Tab α) (k j : Nat) :
    tabGet d (tabErase t k) j = if j = k then d else tabGet d t j := by
  induction t with
  | nil => simp [tabErase]
  | cons e t ih =>
    obtain ⟨i, v⟩ := e
    simp only [tabErase]
    split <;> by_cases hj : j = k <;> simp_all [tabGet] <;> omega

theorem tabGet_tabPut (d : α) (t : Tab α) (k : Nat) (v : α) (j : Nat) :
    tabGet d (tabPut t k v) j = if j = k then v else tabGet d t j := by
  induction t with
  | nil =>
    simp only [tabPut, tabGet]
    by_cases h : j = k
    · simp [h]
    · rw [if_neg h, if_neg (fun e => h e.symm)]
  | cons e t ih =>
    obtain ⟨i, w⟩ := e
    simp only [tabPut]
    split
    · by_cases h : j = k
      · simp_all [tabGet]
      · have h' : ¬k = j := fun e => h e.symm
        simp_all [tabGet]
    · split
      · by_cases h : j = k
        · simp_all [tabGet]
        · have h' : ¬k = j := fun e => h e.symm
          simp [tabGet, h, h']
      · by_cases hj : i = j
        · by_cases h : j = k
          · exact absurd (hj.trans h) ‹_›
          · simp [tabGet, hj, h]
        · simp [tabGet, hj, ih]

/-- A read after a write: the key written holds the value, every other key what it held. -/
@[simp] theorem tabGet_tabSet [DecidableEq α] (d : α) (t : Tab α) (k : Nat) (v : α) (j : Nat) :
    tabGet d (tabSet d t k v) j = if j = k then v else tabGet d t j := by
  unfold tabSet
  split
  · rw [tabGet_tabErase, ‹v = d›]
  · rw [tabGet_tabPut]

@[simp] theorem tabGet_tabMod [DecidableEq α] (d : α) (t : Tab α) (k : Nat) (f : α → α) (j : Nat) :
    tabGet d (tabMod d t k f) j = if j = k then f (tabGet d t k) else tabGet d t j := by
  simp [tabMod]

theorem tabGet_tabDrop (d : α) (t : Tab α) (p : Nat → Bool) (j : Nat) :
    tabGet d (tabDrop t p) j = if p j then d else tabGet d t j := by
  induction t with
  | nil => simp [tabDrop]
  | cons e t ih =>
    obtain ⟨i, v⟩ := e
    simp only [tabDrop] at ih ⊢
    by_cases hp : p i
    · simp only [List.filter, hp, Bool.not_true]
      rw [ih]
      by_cases hj : i = j
      · subst hj; simp [hp]
      · simp [tabGet, hj]
    · simp only [List.filter, hp, Bool.not_false]
      by_cases hj : i = j
      · subst hj; simp [tabGet, hp]
      · simp [tabGet, hj, ih]

/-! ### The canonical form -/

theorem tabSorted_mono (t : Tab α) (a b : Nat) (h : a ≤ b) (hs : tabSorted b t = true) : tabSorted a t = true := by
  cases t with
  | nil => rfl
  | cons e t => simp only [tabSorted, Bool.and_eq_true, decide_eq_true_eq] at hs ⊢; exact ⟨by omega, hs.2⟩

theorem tabSorted_tabErase (t : Tab α) (a k : Nat) (hs : tabSorted a t = true) : tabSorted a (tabErase t k) = true := by
  induction t generalizing a with
  | nil => rfl
  | cons e t ih =>
    obtain ⟨i, v⟩ := e
    simp only [tabSorted, Bool.and_eq_true, decide_eq_true_eq] at hs
    simp only [tabErase]
    split
    · exact ih a (tabSorted_mono t a (i + 1) (by omega) hs.2)
    · simp only [tabSorted, Bool.and_eq_true, decide_eq_true_eq]; exact ⟨hs.1, ih _ hs.2⟩

theorem tabSorted_tabPut (t : Tab α) (a k : Nat) (v : α) (hk : a ≤ k) (hs : tabSorted a t = true) :
    tabSorted a (tabPut t k v) = true := by
  induction t generalizing a with
  | nil => simp [tabPut, tabSorted, hk]
  | cons e t ih =>
    obtain ⟨i, w⟩ := e
    simp only [tabSorted, Bool.and_eq_true, decide_eq_true_eq] at hs
    simp only [tabPut]
    split
    · simp only [tabSorted, Bool.and_eq_true, decide_eq_true_eq]; subst i; exact ⟨hk, hs.2⟩
    · split
      · simp only [tabSorted, Bool.and_eq_true, decide_eq_true_eq]; exact ⟨hk, by omega, hs.2⟩
      · simp only [tabSorted, Bool.and_eq_true, decide_eq_true_eq]; exact ⟨hs.1, ih _ (by omega) hs.2⟩

theorem tabSorted_filter (t : Tab α) (a : Nat) (p : Nat × α → Bool) (hs : tabSorted a t = true) :
    tabSorted a (t.filter p) = true := by
  induction t generalizing a with
  | nil => rfl
  | cons e t ih =>
    obtain ⟨i, v⟩ := e
    simp only [tabSorted, Bool.and_eq_true, decide_eq_true_eq] at hs
    simp only [List.filter]
    split
    · simp only [tabSorted, Bool.and_eq_true, decide_eq_true_eq]; exact ⟨hs.1, ih _ hs.2⟩
    · exact ih a (tabSorted_mono t a (i + 1) (by omega) hs.2)

theorem mem_tabErase (t : Tab α) (k : Nat) (e : Nat × α) (h : e ∈ tabErase t k) : e ∈ t := by
  induction t with
  | nil => exact h
  | cons a t ih =>
    obtain ⟨i, v⟩ := a
    simp only [tabErase] at h
    split at h
    · exact List.mem_cons_of_mem _ (ih h)
    · rcases List.mem_cons.1 h with h | h
      · exact h ▸ List.mem_cons_self
      · exact List.mem_cons_of_mem _ (ih h)

theorem mem_tabPut (t : Tab α) (k : Nat) (v : α) (e : Nat × α) (h : e ∈ tabPut t k v) : e = (k, v) ∨ e ∈ t := by
  induction t with
  | nil => simpa [tabPut] using h
  | cons a t ih =>
    obtain ⟨i, w⟩ := a
    simp only [tabPut] at h
    split at h
    · rcases List.mem_cons.1 h with h | h
      · exact .inl h
      · exact .inr (List.mem_cons_of_mem _ h)
    · split at h
      · rcases List.mem_cons.1 h with h | h
        · exact .inl h
        · exact .inr h
      · rcases List.mem_cons.1 h with h | h
        · exact .inr (h ▸ List.mem_cons_self)
        · rcases ih h with h | h
          · exact .inl h
          · exact .inr (List.mem_cons_of_mem _ h)

theorem tabWf_iff [DecidableEq α] (d : α) (t : Tab α) :
    tabWf d t = true ↔ tabSorted 0 t = true ∧ ∀ e ∈ t, e.2 ≠ d := by
  simp [tabWf]

@[simp] theorem tabWf_nil [DecidableEq α] (d : α) : tabWf d ([] : Tab α) = true := rfl

theorem tabWf_tabErase [DecidableEq α] (d : α) (t : Tab α) (k : Nat) (h : tabWf d t = true) : tabWf d (tabErase t k) = true := by
  rw [tabWf_iff] at h ⊢
  exact ⟨tabSorted_tabErase t 0 k h.1, fun e he => h.2 e (mem_tabErase t k e he)⟩

/-- A write keeps the canonical form. -/
theorem tabWf_tabSet [DecidableEq α] (d : α) (t : Tab α) (k : Nat) (v : α) (h : tabWf d t = true) : tabWf d (tabSet d t k v) = true := by
  unfold tabSet
  split
  · exact tabWf_tabErase d t k h
  · rw [tabWf_iff] at h ⊢
    refine ⟨tabSorted_tabPut t 0 k v (Nat.zero_le _) h.1, fun e he => ?_⟩
    rcases mem_tabPut t k v e he with h' | h'
    · rw [h']; assumption
    · exact h.2 e h'

theorem tabWf_tabMod [DecidableEq α] (d : α) (t : Tab α) (k : Nat) (f : α → α) (h : tabWf d t = true) :
    tabWf d (tabMod d t k f) = true := tabWf_tabSet d t k _ h

theorem tabWf_tabDrop [DecidableEq α] (d : α) (t : Tab α) (p : Nat → Bool) (h : tabWf d t = true) : tabWf d (tabDrop t p) = true := by
  rw [tabWf_iff] at h ⊢
  exact ⟨tabSorted_filter t 0 _ h.1, fun e he => h.2 e (List.mem_filter.1 he).1⟩

theorem tabWf_tabMap [DecidableEq α] (d : α) (t : Tab α) (f : Nat → α → α) (h : tabWf d t = true) :
    tabWf d (tabMap d t f) = true := by
  rw [tabWf_iff] at h ⊢
  constructor
  · have key : ∀ (t : Tab α) (a : Nat), tabSorted a t = true → tabSorted a (tabMap d t f) = true := by
      intro t
      induction t with
      | nil => intro a _; rfl
      | cons e t ih =>
        intro a hs
        obtain ⟨i, v⟩ := e
        simp only [tabSorted, Bool.and_eq_true, decide_eq_true_eq] at hs
        by_cases hd : f i v = d
        · simp only [tabMap, List.filterMap_cons, hd, ↓reduceIte]
          exact ih a (tabSorted_mono t a (i + 1) (by omega) hs.2)
        · simp only [tabMap, List.filterMap_cons, hd, ↓reduceIte, tabSorted, Bool.and_eq_true, decide_eq_true_eq]
          exact ⟨hs.1, ih _ hs.2⟩
    exact key t 0 h.1
  · intro e he
    simp only [tabMap, List.mem_filterMap] at he
    obtain ⟨a, _, ha⟩ := he
    split at ha
    · cases ha
    · cases ha; assumption

theorem tabWf_putBytes (d : Byte) (bs : List Byte) : ∀ (t : Tab Byte) (a : Nat), tabWf d t = true → tabWf d (putBytes d t a bs) = true := by
  induction bs with
  | nil => intro t a h; exact h
  | cons b bs ih => intro t a h; exact ih _ _ (tabWf_tabSet d t a b h)

/-- Bytes written do not touch the addresses outside them. -/
theorem tabGet_putBytes_outside (d : Byte) (bs : List Byte) : ∀ (t : Tab Byte) (a j : Nat), (j < a ∨ a + bs.length ≤ j) →
    tabGet d (putBytes d t a bs) j = tabGet d t j := by
  induction bs with
  | nil => intro t a j _; rfl
  | cons b bs ih =>
    intro t a j h
    simp only [List.length_cons] at h
    rw [putBytes, ih _ _ _ (by omega), tabGet_tabSet, if_neg (by omega)]

end Sys2Proof
end

