-- ==== Sys2Proof/Laws/Kept.lean ====
section
/-!
SUPPORT. What no operation of the model does: touch the queue of commands, turn a fuse back, or leave memory out of its canonical
form. One lemma per operation, each in a form that chains backwards.
-/
namespace Sys2Proof.Machine

/-- From `s` to `t` the queue is the same, the fuses have gone forward, and memory keeps its canonical form. -/
structure Kept (s t : State) : Prop where
  queue : t.pending = s.pending
  fuses : FusesForward s.sec t.sec
  mem : s.mem.wf = true → t.mem.wf = true

theorem FusesForward.refl (a : Sumac) : FusesForward a a :=
  ⟨id, Iff.rfl, Nat.le_refl _, fun h g => absurd (h.symm.trans g) (by decide), fun _ => id, fun _ => Nat.le_refl _⟩

theorem FusesForward.trans {a b c : Sumac} (h : FusesForward a b) (g : FusesForward b c) : FusesForward a c where
  returned x := g.returned (h.returned x)
  manufacture := g.manufacture.trans h.manufacture
  releases := Nat.le_trans g.releases h.releases
  release x y := by
    have hb : b.lc = 0 ∨ b.lc = 1 ∨ b.lc = 2 ∨ b.lc = 3 := by
      generalize b.lc = v; revert v; decide
    rcases hb with e | e | e | e
    · have := h.manufacture.1 e; exact absurd (x.symm.trans this) (by decide)
    · exact Nat.lt_of_le_of_lt g.releases (h.release x e)
    · exact Nat.lt_of_lt_of_le (g.release e y) h.releases
    · have := g.returned e; exact absurd (y.symm.trans this) (by decide)
  revoked k x := g.revoked k (h.revoked k x)
  svn t := Nat.le_trans (h.svn t) (g.svn t)

theorem FusesForward.of_eq {a b : Sumac} (h1 : b.lc = a.lc) (h2 : b.releases = a.releases) (h3 : b.revoked = a.revoked)
    (h4 : b.minSvn = a.minSvn) : FusesForward a b where
  returned x := h1.trans x
  manufacture := by rw [h1]
  releases := Nat.le_of_eq (by rw [h2])
  release x y := by exact absurd ((h1.trans x).symm.trans y) (by decide)
  revoked k x := by rw [h3]; exact x
  svn t := Nat.le_of_eq (by rw [h4])

theorem Kept.refl (s : State) : Kept s s := ⟨rfl, .refl _, id⟩
theorem Kept.trans {s t u : State} (h : Kept s t) (g : Kept t u) : Kept s u :=
  ⟨g.queue.trans h.queue, h.fuses.trans g.fuses, fun x => g.mem (h.mem x)⟩

/-- An update of anything else. -/
theorem Kept.same {s u t : State} (h1 : t.pending = u.pending) (h2 : t.sec.lc = u.sec.lc) (h3 : t.sec.releases = u.sec.releases)
    (h4 : t.sec.revoked = u.sec.revoked) (h5 : t.sec.minSvn = u.sec.minSvn) (h6 : t.mem = u.mem) (h : Kept s u) : Kept s t :=
  h.trans ⟨h1, .of_eq h2 h3 h4 h5, fun x => by rw [h6]; exact x⟩

theorem memwf_iff (m : Memory) : m.wf = true ↔ tabWf 0 m.dram = true ∧ tabWf 0 m.dramCheck = true ∧ tabWf 0 m.far = true
    ∧ tabWf 0 m.farWritten = true ∧ tabWf false m.farPoison = true ∧ tabWf {} m.ct = true := by
  simp [Memory.wf, Bool.and_eq_true, and_assoc]

/-- An update of memory outside the tables with a canonical form. -/
theorem Kept.sameMem {s u t : State} (h1 : t.pending = u.pending) (h2 : t.sec.lc = u.sec.lc) (h3 : t.sec.releases = u.sec.releases)
    (h4 : t.sec.revoked = u.sec.revoked) (h5 : t.sec.minSvn = u.sec.minSvn) (m1 : t.mem.dram = u.mem.dram)
    (m2 : t.mem.dramCheck = u.mem.dramCheck) (m3 : t.mem.far = u.mem.far) (m4 : t.mem.farWritten = u.mem.farWritten)
    (m5 : t.mem.farPoison = u.mem.farPoison) (m6 : t.mem.ct = u.mem.ct) (h : Kept s u) : Kept s t :=
  h.trans ⟨h1, .of_eq h2 h3 h4 h5, fun x => by rw [memwf_iff] at x ⊢; rw [m1, m2, m3, m4, m5, m6]; exact x⟩

/-- An update of memory that keeps each table's form. -/
theorem Kept.memWf {s u t : State} (h1 : t.pending = u.pending) (h2 : t.sec.lc = u.sec.lc) (h3 : t.sec.releases = u.sec.releases)
    (h4 : t.sec.revoked = u.sec.revoked) (h5 : t.sec.minSvn = u.sec.minSvn)
    (m1 : tabWf 0 u.mem.dram = true → tabWf 0 t.mem.dram = true) (m2 : tabWf 0 u.mem.dramCheck = true → tabWf 0 t.mem.dramCheck = true)
    (m3 : tabWf 0 u.mem.far = true → tabWf 0 t.mem.far = true)
    (m4 : tabWf 0 u.mem.farWritten = true → tabWf 0 t.mem.farWritten = true)
    (m5 : tabWf false u.mem.farPoison = true → tabWf false t.mem.farPoison = true) (m6 : tabWf {} u.mem.ct = true → tabWf {} t.mem.ct = true)
    (h : Kept s u) : Kept s t :=
  h.trans ⟨h1, .of_eq h2 h3 h4 h5, fun x => by
    rw [memwf_iff] at x ⊢
    exact ⟨m1 x.1, m2 x.2.1, m3 x.2.2.1, m4 x.2.2.2.1, m5 x.2.2.2.2.1, m6 x.2.2.2.2.2⟩⟩

/-- The two in the form of a state written out. -/
theorem Kept.lit {s u : State} {hif : HostIf} {mem : Memory} {sem : Sems} {saf : Saffron} {app : AppCaches} {mov : Tab Mover} {staging : Space}
    {clv : Cloves} {kvt : FrameTable} {parts : Tab Part} {stw : Fabric} {pwr : Power} {thm : Thermal} {evc : Events} {sec : Sumac}
    {rst : ResetBlk} {reply : Reply} {freeCtr : Nat} {pending : List Instr} (h1 : pending = u.pending) (h2 : sec.lc = u.sec.lc)
    (h3 : sec.releases = u.sec.releases) (h4 : sec.revoked = u.sec.revoked) (h5 : sec.minSvn = u.sec.minSvn) (h6 : mem = u.mem)
    (h : Kept s u) :
    Kept s ⟨hif, mem, sem, saf, app, mov, staging, clv, kvt, parts, stw, pwr, thm, evc, sec, rst, reply, freeCtr, pending⟩ :=
  .same (u := u) h1 h2 h3 h4 h5 h6 h

theorem Kept.litMem {s u : State} {hif : HostIf} {mem : Memory} {sem : Sems} {saf : Saffron} {app : AppCaches} {mov : Tab Mover} {staging : Space}
    {clv : Cloves} {kvt : FrameTable} {parts : Tab Part} {stw : Fabric} {pwr : Power} {thm : Thermal} {evc : Events} {sec : Sumac}
    {rst : ResetBlk} {reply : Reply} {freeCtr : Nat} {pending : List Instr} (h1 : pending = u.pending) (h2 : sec.lc = u.sec.lc)
    (h3 : sec.releases = u.sec.releases) (h4 : sec.revoked = u.sec.revoked) (h5 : sec.minSvn = u.sec.minSvn)
    (m1 : mem.dram = u.mem.dram) (m2 : mem.dramCheck = u.mem.dramCheck) (m3 : mem.far = u.mem.far)
    (m4 : mem.farWritten = u.mem.farWritten) (m5 : mem.farPoison = u.mem.farPoison) (m6 : mem.ct = u.mem.ct) (h : Kept s u) :
    Kept s ⟨hif, mem, sem, saf, app, mov, staging, clv, kvt, parts, stw, pwr, thm, evc, sec, rst, reply, freeCtr, pending⟩ :=
  .sameMem (u := u) h1 h2 h3 h4 h5 m1 m2 m3 m4 m5 m6 h

theorem foldState_kept {α : Type} (l : List α) (f : α → State → State) {s u : State} (hf : ∀ a t, Kept s t → Kept s (f a t))
    (h : Kept s u) : Kept s (foldState l f u) := by
  unfold foldState
  induction l generalizing u with
  | nil => exact h
  | cons a l ih => exact ih (hf a u h)

theorem iter_kept (f : Nat → State → State) {s : State} (hf : ∀ a t, Kept s t → Kept s (f a t)) :
    ∀ (n lo : Nat) (u : State), Kept s u → Kept s (iter f lo n u) := by
  intro n
  induction n with
  | zero => intro lo u h; exact h
  | succ n ih => intro lo u h; exact ih (lo + 1) _ (hf lo u h)

theorem when_kept (b : Bool) {s u v : State} (h : Kept s u) (g : Kept s v) : Kept s (when b u v) := by
  unfold when; split
  · exact g
  · exact .same (u := u) rfl rfl rfl rfl rfl rfl h

/-- A fold whose accumulator carries a state. -/
theorem foldl_kept {α β : Type} (g : β → State) (f : β → α → β) {s : State} (hf : ∀ b a, Kept s (g b) → Kept s (g (f b a)))
    (l : List α) : ∀ b : β, Kept s (g b) → Kept s (g (l.foldl f b)) := by
  induction l with
  | nil => intro b h; exact h
  | cons a l ih => intro b h; exact ih _ (hf b a h)

theorem iter_carry {β : Type} (g : β → State) (f : Nat → β → β) {s : State} (hf : ∀ i b, Kept s (g b) → Kept s (g (f i b))) :
    ∀ (n lo : Nat) (b : β), Kept s (g b) → Kept s (g (iter f lo n b)) := by
  intro n
  induction n with
  | zero => intro lo b h; exact h
  | succ n ih => intro lo b h; exact ih (lo + 1) _ (hf lo b h)

theorem iter_kv (f : Nat → Kv → Kv) {n lo : Nat} {z : Kv} {s : State} (hf : ∀ i z, Kept s z.s → Kept s (f i z).s) (h : Kept s z.s) :
    Kept s (iter f lo n z).s := iter_carry Kv.s f hf n lo z h

theorem iter_kv2 {β : Type} (f : Nat → β × Kv → β × Kv) {n lo : Nat} {z : β × Kv} {s : State}
    (hf : ∀ i z, Kept s z.2.s → Kept s (f i z).2.s) (h : Kept s z.2.s) : Kept s (iter f lo n z).2.s :=
  iter_carry (fun x => x.2.s) f hf n lo z h

theorem foldl_kv {α : Type} (f : Kv → α → Kv) {l : List α} {z : Kv} {s : State} (hf : ∀ z a, Kept s z.s → Kept s (f z a).s)
    (h : Kept s z.s) : Kept s (l.foldl f z).s := foldl_kept Kv.s f hf l z h

theorem ite_kept {c : Prop} [Decidable c] {s u v : State} (h : Kept s u) (g : Kept s v) : Kept s (if c then u else v) := by
  split
  · exact h
  · exact g

theorem getD_kept {o : Option State} {s u : State} (h : ∀ t, o = some t → Kept s t) (g : Kept s u) : Kept s (o.getD u) := by
  cases o with
  | none => exact g
  | some t => exact h t rfl

theorem foldl_verdict {α : Type} (f : Verdict → α → Verdict) {l : List α} {z : Verdict} {s : State}
    (hf : ∀ z a, Kept s z.s → Kept s (f z a).s) (h : Kept s z.s) : Kept s (l.foldl f z).s := foldl_kept Verdict.s f hf l z h

theorem foldl_admit {α : Type} (f : Admit → α → Admit) {l : List α} {z : Admit} {s : State}
    (hf : ∀ z a, Kept s z.z.s → Kept s (f z a).z.s) (h : Kept s z.z.s) : Kept s (l.foldl f z).z.s :=
  foldl_kept (fun x => x.z.s) f hf l z h

theorem setReply_kept (r : Reply) (s : State) {b0 : State} (h0s : Kept b0 s) : Kept b0 (setReply r s) := by
  dsimp only [setReply]
  repeat' first
    | with_reducible assumption
    | intro _
    | with_reducible apply ite_kept
    | split
    | (refine Kept.lit rfl rfl rfl rfl rfl rfl ?_)

theorem notTaken_kept (s : State) {b0 : State} (h0s : Kept b0 s) : Kept b0 (notTaken s) := by
  dsimp only [notTaken]
  repeat' first
    | with_reducible assumption
    | intro _
    | with_reducible apply setReply_kept

theorem draw_kept {s t b0 : State} {k : Nat} (e : draw s = (k, t)) (h0 : Kept b0 s) : Kept b0 t := by
  cases e; exact .lit rfl rfl rfl rfl rfl rfl h0

theorem modFn_kept (f : Nat) (g : Fn → Fn) (s : State) {b0 : State} (h0s : Kept b0 s) : Kept b0 (modFn f g s) := by
  dsimp only [modFn]
  repeat' first
    | with_reducible assumption
    | intro _
    | with_reducible apply ite_kept
    | split
    | (refine Kept.lit rfl rfl rfl rfl rfl rfl ?_)

theorem modRing_kept (f r : Nat) (g : Ring → Ring) (s : State) {b0 : State} (h0s : Kept b0 s) : Kept b0 (modRing f r g s) := by
  dsimp only [modRing]
  repeat' first
    | with_reducible assumption
    | intro _
    | with_reducible apply modFn_kept

theorem modBuf_kept (f b : Nat) (g : Buffer → Buffer) (s : State) {b0 : State} (h0s : Kept b0 s) : Kept b0 (modBuf f b g s) := by
  dsimp only [modBuf]
  repeat' first
    | with_reducible assumption
    | intro _
    | with_reducible apply modFn_kept

theorem modVec_kept (f v : Nat) (g : Vector16 → Vector16) (s : State) {b0 : State} (h0s : Kept b0 s) : Kept b0 (modVec f v g s) := by
  dsimp only [modVec]
  repeat' first
    | with_reducible assumption
    | intro _
    | with_reducible apply modFn_kept

theorem modCmd_kept (c : Nat) (g : Cmd → Cmd) (s : State) {b0 : State} (h0s : Kept b0 s) : Kept b0 (modCmd c g s) := by
  dsimp only [modCmd]
  repeat' first
    | with_reducible assumption
    | intro _
    | with_reducible apply ite_kept
    | split
    | (refine Kept.lit rfl rfl rfl rfl rfl rfl ?_)

theorem modPart_kept (p : Nat) (g : Part → Part) (s : State) {b0 : State} (h0s : Kept b0 s) : Kept b0 (modPart p g s) := by
  dsimp only [modPart]
  repeat' first
    | with_reducible assumption
    | intro _
    | with_reducible apply ite_kept
    | split
    | (refine Kept.lit rfl rfl rfl rfl rfl rfl ?_)

theorem modCore_kept (n : Nat) (g : Core → Core) (s : State) {b0 : State} (h0s : Kept b0 s) : Kept b0 (modCore n g s) := by
  dsimp only [modCore]
  repeat' first
    | with_reducible assumption
    | intro _
    | with_reducible apply ite_kept
    | split
    | (refine Kept.lit rfl rfl rfl rfl rfl rfl ?_)

theorem modSpad_kept (n : Nat) (g : Space → Space) (s : State) {b0 : State} (h0s : Kept b0 s) : Kept b0 (modSpad n g s) := by
  dsimp only [modSpad]
  repeat' first
    | with_reducible assumption
    | intro _
    | with_reducible apply ite_kept
    | split
    | (refine Kept.lit rfl rfl rfl rfl rfl rfl ?_)

theorem modMover_kept (m : Nat) (g : Mover → Mover) (s : State) {b0 : State} (h0s : Kept b0 s) : Kept b0 (modMover m g s) := by
  dsimp only [modMover]
  repeat' first
    | with_reducible assumption
    | intro _
    | with_reducible apply ite_kept
    | split
    | (refine Kept.lit rfl rfl rfl rfl rfl rfl ?_)

theorem modClove_kept (g : Nat) (h : Clove → Clove) (s : State) {b0 : State} (h0s : Kept b0 s) : Kept b0 (modClove g h s) := by
  dsimp only [modClove]
  repeat' first
    | with_reducible assumption
    | intro _
    | with_reducible apply ite_kept
    | split
    | (refine Kept.lit rfl rfl rfl rfl rfl rfl ?_)

theorem modFrame_kept (n : Nat) (g : Frame → Frame) (s : State) {b0 : State} (h0s : Kept b0 s) : Kept b0 (modFrame n g s) := by
  dsimp only [modFrame]
  repeat' first
    | with_reducible assumption
    | intro _
    | with_reducible apply ite_kept
    | split
    | (refine Kept.lit rfl rfl rfl rfl rfl rfl ?_)

theorem modPort_kept (pt : Nat) (g : Port → Port) (s : State) {b0 : State} (h0s : Kept b0 s) : Kept b0 (modPort pt g s) := by
  dsimp only [modPort]
  repeat' first
    | with_reducible assumption
    | intro _
    | with_reducible apply ite_kept
    | split
    | (refine Kept.lit rfl rfl rfl rfl rfl rfl ?_)

theorem modGroup_kept (k : Nat) (g : EvGroup → EvGroup) (s : State) {b0 : State} (h0s : Kept b0 s) : Kept b0 (modGroup k g s) := by
  dsimp only [modGroup]
  repeat' first
    | with_reducible assumption
    | intro _
    | with_reducible apply ite_kept
    | split
    | (refine Kept.lit rfl rfl rfl rfl rfl rfl ?_)

theorem modTarget_kept (t : Nat) (g : EvTarget → EvTarget) (s : State) {b0 : State} (h0s : Kept b0 s) : Kept b0 (modTarget t g s) := by
  dsimp only [modTarget]
  repeat' first
    | with_reducible assumption
    | intro _
    | with_reducible apply ite_kept
    | split
    | (refine Kept.lit rfl rfl rfl rfl rfl rfl ?_)

theorem setEvRoute_kept (k : Nat) (v : Nat) (s : State) {b0 : State} (h0s : Kept b0 s) : Kept b0 (setEvRoute k v s) := by
  dsimp only [setEvRoute]
  repeat' first
    | with_reducible assumption
    | intro _
    | with_reducible apply ite_kept
    | split
    | (refine Kept.lit rfl rfl rfl rfl rfl rfl ?_)

theorem modSensor_kept (n : Nat) (g : Sensor → Sensor) (s : State) {b0 : State} (h0s : Kept b0 s) : Kept b0 (modSensor n g s) := by
  dsimp only [modSensor]
  repeat' first
    | with_reducible assumption
    | intro _
    | with_reducible apply ite_kept
    | split
    | (refine Kept.lit rfl rfl rfl rfl rfl rfl ?_)

theorem modFarPort_kept (q : Nat) (g : FarPort → FarPort) (s : State) {b0 : State} (h0s : Kept b0 s) : Kept b0 (modFarPort q g s) := by
  dsimp only [modFarPort]
  repeat' first
    | with_reducible assumption
    | intro _
    | with_reducible apply ite_kept
    | split
    | (refine Kept.lit rfl rfl rfl rfl rfl rfl ?_)
    | (refine Kept.litMem rfl rfl rfl rfl rfl rfl rfl rfl rfl rfl rfl ?_)

theorem modEcc_kept (st : Nat) (g : EccTest → EccTest) (s : State) {b0 : State} (h0s : Kept b0 s) : Kept b0 (modEcc st g s) := by
  dsimp only [modEcc]
  repeat' first
    | with_reducible assumption
    | intro _
    | with_reducible apply ite_kept
    | split
    | (refine Kept.lit rfl rfl rfl rfl rfl rfl ?_)
    | (refine Kept.litMem rfl rfl rfl rfl rfl rfl rfl rfl rfl rfl rfl ?_)

theorem setClaim_kept (id : Nat) (c : Claim) (s : State) {b0 : State} (h0s : Kept b0 s) : Kept b0 (setClaim id c s) := by
  dsimp only [setClaim]
  repeat' first
    | with_reducible assumption
    | intro _
    | (show Kept _ _; assumption)
    | with_reducible apply ite_kept
    | split
    | (refine Kept.lit rfl rfl rfl rfl rfl rfl ?_)

theorem raise_kept (k : Nat) (s : State) {b0 : State} (h0s : Kept b0 s) : Kept b0 (raise k s) := by
  dsimp only [raise]
  repeat' first
    | with_reducible assumption
    | intro _
    | with_reducible apply modGroup_kept
    | with_reducible apply ite_kept

theorem startRecovery_kept (hard : Bool) (p : Nat) (s : State) {b0 : State} (h0s : Kept b0 s) : Kept b0 (startRecovery hard p s) := by
  dsimp only [startRecovery]
  repeat' first
    | with_reducible assumption
    | intro _
    | with_reducible apply modRing_kept
    | with_reducible apply raise_kept
    | with_reducible apply ite_kept
    | split

theorem loseWord_kept (p g off : Nat) (consumed : Bool) (s : State) {b0 : State} (h0s : Kept b0 s) : Kept b0 (loseWord p g off consumed s) := by
  dsimp only [loseWord]
  repeat' first
    | with_reducible assumption
    | intro _
    | with_reducible apply modRing_kept
    | with_reducible apply ite_kept
    | split

theorem lostTo_kept (c : Nat) (s : State) {b0 : State} (h0s : Kept b0 s) : Kept b0 (lostTo c s) := by
  dsimp only [lostTo]
  repeat' first
    | with_reducible assumption
    | intro _
    | with_reducible apply modRing_kept

theorem writeRecordOf_kept (r : FaultRec) (s : State) {b0 : State} (h0s : Kept b0 s) : Kept b0 (writeRecordOf r s) := by
  dsimp only [writeRecordOf, draw]
  repeat' first
    | with_reducible assumption
    | intro _
    | (with_reducible refine draw_kept (by assumption) ?_)
    | with_reducible apply raise_kept
    | with_reducible apply ite_kept
    | split
    | (refine Kept.lit rfl rfl rfl rfl rfl rfl ?_)

theorem faultAffects_kept (kind source unit : Nat) (detail : W64) (ps : List Nat) (s : State) {b0 : State} (h0s : Kept b0 s) : Kept b0 (faultAffects kind source unit detail ps s) := by
  dsimp only [faultAffects]
  repeat' first
    | with_reducible assumption
    | intro _
    | with_reducible apply foldState_kept
    | with_reducible apply startRecovery_kept
    | with_reducible apply writeRecordOf_kept

theorem faultSettled_kept (kind source unit : Nat) (detail : W64) (outcome : Nat) (s : State) {b0 : State} (h0s : Kept b0 s) : Kept b0 (faultSettled kind source unit detail outcome s) := by
  dsimp only [faultSettled]
  repeat' first
    | with_reducible assumption
    | intro _
    | with_reducible apply writeRecordOf_kept

theorem settleRecord_kept (k out : Nat) (s : State) {b0 : State} (h0s : Kept b0 s) : Kept b0 (settleRecord k out s) := by
  dsimp only [settleRecord]
  repeat' first
    | with_reducible assumption
    | intro _
    | with_reducible apply ite_kept
    | split
    | (refine Kept.lit rfl rfl rfl rfl rfl rfl ?_)

theorem settleRecords_kept (j : Nat × Nat) (out : Nat) (s : State) {b0 : State} (h0s : Kept b0 s) : Kept b0 (settleRecords j out s) := by
  dsimp only [settleRecords]
  repeat' first
    | with_reducible assumption
    | intro _
    | with_reducible apply ite_kept
    | split
    | (refine Kept.lit rfl rfl rfl rfl rfl rfl ?_)

theorem endRecovery_kept (j : Nat × Nat) (out : Nat) (s : State) {b0 : State} (h0s : Kept b0 s) : Kept b0 (endRecovery j out s) := by
  dsimp only [endRecovery]
  repeat' first
    | with_reducible assumption
    | intro _
    | with_reducible apply modRing_kept
    | with_reducible apply settleRecords_kept

theorem putRaw_kept (g off x check : Nat) (s : State) {b0 : State} (h0 : Kept b0 s) : Kept b0 (putRaw g off x check s) :=
  .memWf (u := s) rfl rfl rfl rfl rfl (tabWf_putBytes _ _ _ _) (tabWf_tabSet _ _ _ _) id id id id h0

theorem putWord_kept (g off x : Nat) (s : State) {b0 : State} (h0s : Kept b0 s) : Kept b0 (putWord g off x s) := by
  dsimp only [putWord]
  repeat' first
    | with_reducible assumption
    | intro _
    | with_reducible apply putRaw_kept

theorem putPoison_kept (g off x : Nat) (s : State) {b0 : State} (h0s : Kept b0 s) : Kept b0 (putPoison g off x s) := by
  dsimp only [putPoison]
  repeat' first
    | with_reducible assumption
    | intro _
    | with_reducible apply putRaw_kept

theorem noteWord_kept (part : Nat) (g off : Nat) (s : State) {b0 : State} (h0s : Kept b0 s) : Kept b0 (noteWord part g off s) := by
  dsimp only [noteWord]
  repeat' first
    | with_reducible assumption
    | intro _
    | with_reducible apply modEcc_kept
    | with_reducible apply raise_kept
    | with_reducible apply startRecovery_kept
    | with_reducible apply loseWord_kept
    | with_reducible apply faultAffects_kept
    | with_reducible apply putWord_kept
    | with_reducible apply putPoison_kept
    | with_reducible apply ite_kept
    | split
    | (refine Kept.lit rfl rfl rfl rfl rfl rfl ?_)
    | (refine Kept.litMem rfl rfl rfl rfl rfl rfl rfl rfl rfl rfl rfl ?_)

theorem writeWord_kept (g off lo : Nat) (bs : List Byte) (s : State) {b0 : State} (h0s : Kept b0 s) : Kept b0 (writeWord g off lo bs s) := by
  dsimp only [writeWord]
  repeat' first
    | with_reducible assumption
    | intro _
    | with_reducible apply putWord_kept
    | with_reducible apply putPoison_kept
    | with_reducible apply noteWord_kept
    | with_reducible apply ite_kept
    | split
    | (refine Kept.lit rfl rfl rfl rfl rfl rfl ?_)
    | (refine Kept.litMem rfl rfl rfl rfl rfl rfl rfl rfl rfl rfl rfl ?_)

theorem writeSector_kept (g off : Nat) (v : BitVec 512) (s : State) {b0 : State} (h0s : Kept b0 s) : Kept b0 (writeSector g off v s) := by
  dsimp only [writeSector]
  repeat' first
    | with_reducible assumption
    | intro _
    | with_reducible apply foldState_kept
    | with_reducible apply writeWord_kept

theorem readSectorNote_kept (part g off : Nat) (s : State) {b0 : State} (h0s : Kept b0 s) : Kept b0 (readSectorNote part g off s) := by
  dsimp only [readSectorNote]
  repeat' first
    | with_reducible assumption
    | intro _
    | with_reducible apply foldState_kept
    | with_reducible apply noteWord_kept

theorem writeWordPoison_kept (g off lo : Nat) (bs : List Byte) (s : State) {b0 : State} (h0s : Kept b0 s) : Kept b0 (writeWordPoison g off lo bs s) := by
  dsimp only [writeWordPoison]
  repeat' first
    | with_reducible assumption
    | intro _
    | with_reducible apply putPoison_kept

theorem setCt_kept (n : Nat) (e : CtEntry) (s : State) {b0 : State} (h0 : Kept b0 s) : Kept b0 (setCt n e s) :=
  .memWf (u := s) rfl rfl rfl rfl rfl id id id id id (tabWf_tabSet _ _ _ _) h0

theorem countSectors_kept (p st k : Nat) (s : State) {b0 : State} (h0s : Kept b0 s) : Kept b0 (countSectors p st k s) := by
  dsimp only [countSectors]
  repeat' first
    | with_reducible assumption
    | intro _
    | with_reducible apply ite_kept
    | split
    | (refine Kept.lit rfl rfl rfl rfl rfl rfl ?_)
    | (refine Kept.litMem rfl rfl rfl rfl rfl rfl rfl rfl rfl rfl rfl ?_)

theorem countAt_kept (p : Nat) (l : List Nat) (s : State) {b0 : State} (h0s : Kept b0 s) : Kept b0 (countAt p l s) := by
  dsimp only [countAt]
  repeat' first
    | with_reducible assumption
    | intro _
    | with_reducible apply foldState_kept
    | with_reducible apply countSectors_kept

theorem devReport_kept (p x n : Nat) (s : State) {b0 : State} (h0s : Kept b0 s) : Kept b0 (devReport p x n s) := by
  dsimp only [devReport]
  repeat' first
    | with_reducible assumption
    | intro _
    | with_reducible apply foldState_kept
    | with_reducible apply noteWord_kept
    | with_reducible apply ite_kept
    | split

theorem devNote_kept (p x n : Nat) (s : State) {b0 : State} (h0s : Kept b0 s) : Kept b0 (devNote p x n s) := by
  dsimp only [devNote]
  repeat' first
    | with_reducible assumption
    | intro _
    | with_reducible apply countAt_kept
    | with_reducible apply devReport_kept

theorem noteWrote_kept (p kind a n : Nat) (s : State) {b0 : State} (h0s : Kept b0 s) : Kept b0 (noteWrote p kind a n s) := by
  dsimp only [noteWrote]
  repeat' first
    | with_reducible assumption
    | intro _
    | with_reducible apply modRing_kept
    | with_reducible apply ite_kept
    | split

theorem devStore_kept (p x : Nat) (bs : List Byte) (s : State) {b0 : State} (h0s : Kept b0 s) : Kept b0 (devStore p x bs s) := by
  dsimp only [devStore]
  repeat' first
    | with_reducible assumption
    | intro _
    | with_reducible apply foldState_kept
    | with_reducible apply writeWord_kept
    | with_reducible apply noteWrote_kept
    | with_reducible apply ite_kept
    | split

theorem devPut_kept (p x : Nat) (bs : List Byte) (s : State) {b0 : State} (h0s : Kept b0 s) : Kept b0 (devPut p x bs s) := by
  dsimp only [devPut]
  repeat' first
    | with_reducible assumption
    | intro _
    | with_reducible apply countAt_kept
    | with_reducible apply devStore_kept

theorem devPoisonSector_kept (p x : Nat) (s : State) {b0 : State} (h0s : Kept b0 s) : Kept b0 (devPoisonSector p x s) := by
  dsimp only [devPoisonSector]
  repeat' first
    | with_reducible assumption
    | intro _
    | with_reducible apply foldState_kept
    | with_reducible apply putPoison_kept
    | with_reducible apply noteWrote_kept
    | with_reducible apply ite_kept
    | split

theorem wipeRange_kept (g off n : Nat) (s : State) {b0 : State} (h0 : Kept b0 s) : Kept b0 (wipeRange g off n s) := by
  dsimp only [wipeRange]
  refine .memWf (u := s) rfl rfl rfl rfl rfl ?_ ?_ id id id id h0 <;> (intro w; dsimp only; exact tabWf_tabDrop _ _ _ w)

theorem wipeChunk_kept (l : Bool) (k : Nat) (s : State) {b0 : State} (h0 : Kept b0 s) : Kept b0 (wipeChunk l k s) := by
  dsimp only [wipeChunk]
  split
  · exact wipeRange_kept _ _ _ _ h0
  · refine .memWf (u := s) rfl rfl rfl rfl rfl ?_ ?_ id id id id h0 <;> (intro w; dsimp only; exact tabWf_tabDrop _ _ _ w)

theorem emptyStaging_kept (p : Nat) (s : State) {b0 : State} (h0s : Kept b0 s) : Kept b0 (emptyStaging p s) := by
  dsimp only [emptyStaging]
  repeat' first
    | with_reducible assumption
    | intro _
    | with_reducible apply foldState_kept
    | with_reducible apply ite_kept
    | split
    | (refine Kept.lit rfl rfl rfl rfl rfl rfl ?_)

theorem settleFarRecord_kept (q out : Nat) (s : State) {b0 : State} (h0s : Kept b0 s) : Kept b0 (settleFarRecord q out s) := by
  dsimp only [settleFarRecord]
  repeat' first
    | with_reducible assumption
    | intro _
    | with_reducible apply settleRecord_kept
    | with_reducible apply ite_kept
    | split

theorem farRetry_kept (a : Nat) (s : State) {b0 : State} (h0s : Kept b0 s) : Kept b0 (farRetry a s) := by
  dsimp only [farRetry]
  repeat' first
    | with_reducible assumption
    | intro _
    | with_reducible apply modFarPort_kept
    | with_reducible apply ite_kept
    | split
    | (refine Kept.lit rfl rfl rfl rfl rfl rfl ?_)

theorem farNote_kept (p x n : Nat) (s : State) {b0 : State} (h0s : Kept b0 s) : Kept b0 (farNote p x n s) := by
  dsimp only [farNote]
  repeat' first
    | with_reducible assumption
    | intro _
    | with_reducible apply foldState_kept
    | with_reducible apply modFarPort_kept
    | with_reducible apply loseWord_kept
    | with_reducible apply faultAffects_kept
    | with_reducible apply farRetry_kept
    | with_reducible apply ite_kept
    | split

theorem farPut_kept (p x : Nat) (bs : List Byte) (s : State) {b0 : State} (h0 : Kept b0 s) : Kept b0 (farPut p x bs s) := by
  dsimp only [farPut]
  refine noteWrote_kept _ _ _ _ _ (farRetry_kept _ _ (foldState_kept _ _ ?_ h0))
  intro a t h
  refine ite_kept h (.memWf (u := t) rfl rfl rfl rfl rfl id id ?_ ?_ ?_ id h)
  case refine_2 => intro w; dsimp only; exact tabWf_tabSet _ _ _ _ w
  case refine_3 => intro w; dsimp only; exact tabWf_tabSet _ _ _ _ w
  intro w
  refine tabWf_putBytes _ _ _ _ ?_
  split
  · exact w
  · exact tabWf_putBytes _ _ _ _ w

theorem farPoisonSector_kept (p x : Nat) (s : State) {b0 : State} (h0 : Kept b0 s) : Kept b0 (farPoisonSector p x s) := by
  dsimp only [farPoisonSector]
  refine noteWrote_kept _ _ _ _ _ (.memWf (u := s) rfl rfl rfl rfl rfl id id id ?_ ?_ id h0) <;> (intro w; dsimp only; exact tabWf_tabSet _ _ _ _ w)

theorem hostPutRaw_kept (f a : Nat) (bs : List Byte) (s : State) {b0 : State} (h0s : Kept b0 s) : Kept b0 (hostPutRaw f a bs s) := by
  dsimp only [hostPutRaw]
  repeat' first
    | with_reducible assumption
    | intro _
    | with_reducible apply ite_kept
    | split
    | (refine Kept.lit rfl rfl rfl rfl rfl rfl ?_)

theorem sealSegment_kept (f b k : Nat) (plain : List Byte) (s : State) {b0 : State} (h0s : Kept b0 s) : Kept b0 (sealSegment f b k plain s) := by
  dsimp only [sealSegment]
  repeat' first
    | with_reducible assumption
    | intro _
    | with_reducible apply modFn_kept
    | with_reducible apply hostPutRaw_kept

theorem sealedPut_kept (f b a : Nat) (bs : List Byte) (s : State) {b0 : State} (h0s : Kept b0 s) : Kept b0 (sealedPut f b a bs s) := by
  dsimp only [sealedPut]
  repeat' first
    | with_reducible assumption
    | intro _
    | with_reducible apply foldState_kept
    | with_reducible apply sealSegment_kept
    | with_reducible apply ite_kept

theorem hostPut_kept (f a : Nat) (bs : List Byte) (s : State) {b0 : State} (h0s : Kept b0 s) : Kept b0 (hostPut f a bs s) := by
  dsimp only [hostPut]
  repeat' first
    | with_reducible assumption
    | intro _
    | with_reducible apply foldState_kept
    | with_reducible apply hostPutRaw_kept
    | with_reducible apply sealedPut_kept
    | with_reducible apply ite_kept

theorem countNoRoute_kept (s : State) {b0 : State} (h0s : Kept b0 s) : Kept b0 (countNoRoute s) := by
  dsimp only [countNoRoute]
  repeat' first
    | with_reducible assumption
    | intro _
    | with_reducible apply ite_kept
    | split
    | (refine Kept.lit rfl rfl rfl rfl rfl rfl ?_)

theorem sendTagged_kept (tag : Nat) (k : Packet) (s : State) {b0 : State} (h0s : Kept b0 s) : Kept b0 (sendTagged tag k s) := by
  dsimp only [sendTagged]
  repeat' first
    | with_reducible assumption
    | intro _
    | with_reducible apply modPort_kept
    | with_reducible apply countNoRoute_kept
    | with_reducible apply ite_kept
    | split

theorem sendPacket_kept (k : Packet) (s : State) {b0 : State} (h0s : Kept b0 s) : Kept b0 (sendPacket k s) := by
  dsimp only [sendPacket]
  repeat' first
    | with_reducible assumption
    | intro _
    | with_reducible apply sendTagged_kept

theorem sendAbort_kept (k : Packet) (s : State) {b0 : State} (h0s : Kept b0 s) : Kept b0 (sendAbort k s) := by
  dsimp only [sendAbort]
  repeat' first
    | with_reducible assumption
    | intro _
    | with_reducible apply sendPacket_kept
    | with_reducible apply ite_kept

theorem modSend_kept (x : SendCtx) (g : SendCtx → SendCtx) (s : State) {b0 : State} (h0s : Kept b0 s) : Kept b0 (modSend x g s) := by
  dsimp only [modSend]
  repeat' first
    | with_reducible assumption
    | intro _
    | with_reducible apply ite_kept
    | split
    | (refine Kept.lit rfl rfl rfl rfl rfl rfl ?_)

theorem sendOne_kept (x : SendCtx) (e : Nat × List Byte) (s : State) {b0 : State} (h0s : Kept b0 s) : Kept b0 (sendOne x e s) := by
  dsimp only [sendOne]
  repeat' first
    | with_reducible assumption
    | intro _
    | with_reducible apply sendTagged_kept
    | with_reducible apply modSend_kept

theorem pushReq_kept (x : SendCtx) (s : State) {b0 : State} (h0s : Kept b0 s) : Kept b0 (pushReq x s) := by
  dsimp only [pushReq]
  repeat' first
    | with_reducible assumption
    | intro _
    | with_reducible apply sendTagged_kept
    | with_reducible apply modSend_kept
    | with_reducible apply ite_kept

theorem pushSend_kept (x : SendCtx) (s : State) {b0 : State} (h0s : Kept b0 s) : Kept b0 (pushSend x s) := by
  dsimp only [pushSend]
  repeat' first
    | with_reducible assumption
    | intro _
    | with_reducible apply foldState_kept
    | with_reducible apply sendOne_kept
    | with_reducible apply pushReq_kept

theorem modRecv_kept (c : Nat) (g : RecvCtx → RecvCtx) (s : State) {b0 : State} (h0s : Kept b0 s) : Kept b0 (modRecv c g s) := by
  dsimp only [modRecv]
  repeat' first
    | with_reducible assumption
    | intro _
    | with_reducible apply ite_kept
    | split
    | (refine Kept.lit rfl rfl rfl rfl rfl rfl ?_)

theorem modColl_kept (c : Nat) (g : CollCtx → CollCtx) (s : State) {b0 : State} (h0s : Kept b0 s) : Kept b0 (modColl c g s) := by
  dsimp only [modColl]
  repeat' first
    | with_reducible assumption
    | intro _
    | with_reducible apply ite_kept
    | split
    | (refine Kept.lit rfl rfl rfl rfl rfl rfl ?_)

theorem grantRecv_kept (x : RecvCtx) (s : State) {b0 : State} (h0s : Kept b0 s) : Kept b0 (grantRecv x s) := by
  dsimp only [grantRecv]
  repeat' first
    | with_reducible assumption
    | intro _
    | with_reducible apply sendPacket_kept
    | with_reducible apply modRecv_kept
    | with_reducible apply ite_kept
    | split

theorem wakeColl_kept (x : CollCtx) (s : State) {b0 : State} (h0s : Kept b0 s) : Kept b0 (wakeColl x s) := by
  dsimp only [wakeColl]
  repeat' first
    | with_reducible assumption
    | intro _
    | with_reducible apply ite_kept
    | split
    | (refine Kept.lit rfl rfl rfl rfl rfl rfl ?_)

theorem fabricStop_kept (j : Nat × Nat) (s : State) {b0 : State} (h0s : Kept b0 s) : Kept b0 (fabricStop j s) := by
  dsimp only [fabricStop]
  repeat' first
    | with_reducible assumption
    | intro _
    | with_reducible apply foldState_kept
    | with_reducible apply modSend_kept
    | with_reducible apply ite_kept
    | split
    | (refine Kept.lit rfl rfl rfl rfl rfl rfl ?_)

theorem endFabric_kept (c info : Nat) (s : State) {b0 : State} (h0s : Kept b0 s) : Kept b0 (endFabric c info s) := by
  dsimp only [endFabric]
  repeat' first
    | with_reducible assumption
    | intro _
    | with_reducible apply foldState_kept
    | with_reducible apply sendPacket_kept
    | with_reducible apply sendAbort_kept
    | with_reducible apply ite_kept
    | split
    | (refine Kept.lit rfl rfl rfl rfl rfl rfl ?_)

theorem noteMoved_kept (n : Nat) (s : State) {b0 : State} (h0s : Kept b0 s) : Kept b0 (noteMoved n s) := by
  dsimp only [noteMoved, draw]
  repeat' first
    | with_reducible assumption
    | intro _
    | (with_reducible refine draw_kept (by assumption) ?_)
    | with_reducible apply modMover_kept
    | with_reducible apply ite_kept
    | split
    | (refine Kept.lit rfl rfl rfl rfl rfl rfl ?_)

theorem startMover_kept (x : Cmd) (s : State) {b0 : State} (h0s : Kept b0 s) : Kept b0 (startMover x s) := by
  dsimp only [startMover]
  repeat' first
    | with_reducible assumption
    | intro _
    | with_reducible apply modMover_kept
    | with_reducible apply ite_kept
    | split

theorem markDone_kept (c : Nat) (st : Status) (cause result index : Nat) (flags : BitVec 4) (s : State) {b0 : State} (h0s : Kept b0 s) : Kept b0 (markDone c st cause result index flags s) := by
  dsimp only [markDone]
  repeat' first
    | with_reducible assumption
    | intro _
    | with_reducible apply modRing_kept
    | with_reducible apply modCmd_kept
    | with_reducible apply lostTo_kept
    | with_reducible apply ite_kept

theorem dropAsk_kept (key : Nat) (s : State) {b0 : State} (h0s : Kept b0 s) : Kept b0 (dropAsk key s) := by
  dsimp only [dropAsk]
  repeat' first
    | with_reducible assumption
    | intro _
    | with_reducible apply ite_kept
    | split
    | (refine Kept.lit rfl rfl rfl rfl rfl rfl ?_)
    | (refine Kept.litMem rfl rfl rfl rfl rfl rfl rfl rfl rfl rfl rfl ?_)

theorem spendCycles_kept (n : Nat) (s : State) {b0 : State} (h0s : Kept b0 s) : Kept b0 (spendCycles n s) := by
  dsimp only [spendCycles, draw]
  repeat' first
    | with_reducible assumption
    | intro _
    | (with_reducible refine draw_kept (by assumption) ?_)
    | with_reducible apply modCore_kept
    | with_reducible apply ite_kept
    | split
    | (refine Kept.lit rfl rfl rfl rfl rfl rfl ?_)

theorem leaveCore_kept (st n : Nat) (s : State) {b0 : State} (h0s : Kept b0 s) : Kept b0 (leaveCore st n s) := by
  dsimp only [leaveCore]
  repeat' first
    | with_reducible assumption
    | intro _
    | with_reducible apply modCore_kept
    | with_reducible apply dropAsk_kept
    | with_reducible apply spendCycles_kept
    | with_reducible apply ite_kept

theorem serveWaiting_kept (g : Nat) (d : Deferred) (s : State) {b0 : State} (h0s : Kept b0 s) : Kept b0 (serveWaiting g d s) := by
  dsimp only [serveWaiting]
  repeat' first
    | with_reducible assumption
    | intro _
    | with_reducible apply noteWord_kept
    | with_reducible apply writeSector_kept
    | with_reducible apply readSectorNote_kept
    | with_reducible apply countSectors_kept
    | with_reducible apply ite_kept
    | split
    | (refine Kept.lit rfl rfl rfl rfl rfl rfl ?_)
    | (refine Kept.litMem rfl rfl rfl rfl rfl rfl rfl rfl rfl rfl rfl ?_)

theorem rawAccess_kept (st : Nat) (write read : Bool) (s : State) {b0 : State} (h0s : Kept b0 s) : Kept b0 (rawAccess st write read s) := by
  dsimp only [rawAccess]
  repeat' first
    | with_reducible assumption
    | intro _
    | with_reducible apply modEcc_kept
    | with_reducible apply putRaw_kept
    | with_reducible apply ite_kept

theorem serveRaw_kept (g : Nat) (s : State) {b0 : State} (h0s : Kept b0 s) : Kept b0 (serveRaw g s) := by
  dsimp only [serveRaw]
  repeat' first
    | with_reducible assumption
    | intro _
    | with_reducible apply rawAccess_kept
    | with_reducible apply ite_kept

theorem serveDeferred_kept (g : Nat) (s : State) {b0 : State} (h0s : Kept b0 s) : Kept b0 (serveDeferred g s) := by
  dsimp only [serveDeferred]
  repeat' first
    | with_reducible assumption
    | intro _
    | with_reducible apply foldState_kept
    | with_reducible apply serveWaiting_kept
    | with_reducible apply serveRaw_kept
    | with_reducible apply ite_kept
    | split
    | (refine Kept.lit rfl rfl rfl rfl rfl rfl ?_)
    | (refine Kept.litMem rfl rfl rfl rfl rfl rfl rfl rfl rfl rfl rfl ?_)

theorem withAccess_kept (key p : Nat) (l far : List (Nat × Nat)) (go : State → State) (s : State) {b0 : State} (h0s : Kept b0 s) (h_go : ∀ (t : State), Kept b0 t → Kept b0 (go t)) : Kept b0 (withAccess key p l far go s) := by
  dsimp only [withAccess]
  repeat' first
    | with_reducible assumption
    | intro _
    | with_reducible apply foldState_kept
    | with_reducible apply notTaken_kept
    | with_reducible apply modClove_kept
    | with_reducible apply dropAsk_kept
    | with_reducible apply h_go
    | with_reducible apply ite_kept
    | split
    | (refine Kept.lit rfl rfl rfl rfl rfl rfl ?_)
    | (refine Kept.litMem rfl rfl rfl rfl rfl rfl rfl rfl rfl rfl rfl ?_)

theorem goOn_kept (f : State → State) (s : State) {b0 : State} (h0s : Kept b0 s) (h_f : ∀ (t : State), Kept b0 t → Kept b0 (f t)) : Kept b0 (goOn f s) := by
  dsimp only [goOn]
  repeat' first
    | with_reducible assumption
    | intro _
    | with_reducible apply notTaken_kept
    | with_reducible apply h_f
    | with_reducible apply ite_kept

theorem switchIn_kept (g : Nat) (s : State) {b0 : State} (h0s : Kept b0 s) : Kept b0 (switchIn g s) := by
  dsimp only [switchIn]
  repeat' first
    | with_reducible assumption
    | intro _
    | with_reducible apply foldState_kept
    | with_reducible apply modClove_kept
    | with_reducible apply noteWord_kept
    | with_reducible apply ite_kept
    | split

theorem freeBank_kept (g off n : Nat) (s : State) {b0 : State} (h0s : Kept b0 s) : Kept b0 (freeBank g off n s) := by
  dsimp only [freeBank]
  repeat' first
    | with_reducible assumption
    | intro _
    | with_reducible apply foldState_kept
    | with_reducible apply writeWord_kept
    | with_reducible apply ite_kept
    | split
    | (refine Kept.lit rfl rfl rfl rfl rfl rfl ?_)

theorem freeProgram_kept (g : Nat) (q : CloveProg) (s : State) {b0 : State} (h0s : Kept b0 s) : Kept b0 (freeProgram g q s) := by
  dsimp only [freeProgram]
  repeat' first
    | with_reducible assumption
    | intro _
    | with_reducible apply freeBank_kept

theorem discardPrograms_kept (st : Status) (c : Nat) (s : State) {b0 : State} (h0s : Kept b0 s) : Kept b0 (discardPrograms st c s) := by
  dsimp only [discardPrograms]
  repeat' first
    | with_reducible assumption
    | intro _
    | with_reducible apply foldState_kept
    | with_reducible apply modClove_kept
    | with_reducible apply serveDeferred_kept
    | with_reducible apply switchIn_kept
    | with_reducible apply freeProgram_kept
    | with_reducible apply ite_kept

theorem leaveKept_kept (c : Nat) (s : State) {b0 : State} (h0s : Kept b0 s) : Kept b0 (leaveKept c s) := by
  dsimp only [leaveKept]
  repeat' first
    | with_reducible assumption
    | intro _
    | with_reducible apply modPart_kept
    | with_reducible apply ite_kept

theorem stopCores_kept (st : Status) (c : Nat) (s : State) {b0 : State} (h0s : Kept b0 s) : Kept b0 (stopCores st c s) := by
  dsimp only [stopCores]
  repeat' first
    | with_reducible assumption
    | intro _
    | with_reducible apply foldState_kept
    | with_reducible apply modCore_kept
    | with_reducible apply leaveCore_kept
    | with_reducible apply leaveKept_kept

theorem stopMover_kept (st : Status) (c : Nat) (s : State) {b0 : State} (h0s : Kept b0 s) : Kept b0 (stopMover st c s) := by
  dsimp only [stopMover]
  repeat' first
    | with_reducible assumption
    | intro _
    | with_reducible apply modMover_kept
    | with_reducible apply ite_kept
    | split

theorem stopCmd_kept (st : Status) (c : Nat) (s : State) {b0 : State} (h0s : Kept b0 s) : Kept b0 (stopCmd st c s) := by
  dsimp only [stopCmd]
  repeat' first
    | with_reducible assumption
    | intro _
    | with_reducible apply endFabric_kept
    | with_reducible apply dropAsk_kept
    | with_reducible apply discardPrograms_kept
    | with_reducible apply stopCores_kept
    | with_reducible apply stopMover_kept
    | with_reducible apply ite_kept
    | split
    | (refine Kept.lit rfl rfl rfl rfl rfl rfl ?_)

theorem discardCmd_kept (st : Status) (c : Nat) (s : State) {b0 : State} (h0s : Kept b0 s) : Kept b0 (discardCmd st c s) := by
  dsimp only [discardCmd]
  repeat' first
    | with_reducible assumption
    | intro _
    | with_reducible apply markDone_kept
    | with_reducible apply stopCmd_kept

theorem dropImage_kept (f r : Nat) (s : State) {b0 : State} (h0s : Kept b0 s) : Kept b0 (dropImage f r s) := by
  dsimp only [dropImage]
  repeat' first
    | with_reducible assumption
    | intro _
    | with_reducible apply modRing_kept
    | with_reducible apply modPart_kept

theorem cancelGroup_kept (f r g : Nat) (s : State) {b0 : State} (h0s : Kept b0 s) : Kept b0 (cancelGroup f r g s) := by
  dsimp only [cancelGroup]
  repeat' first
    | with_reducible assumption
    | intro _
    | with_reducible apply foldState_kept
    | with_reducible apply discardCmd_kept
    | with_reducible apply dropImage_kept
    | with_reducible apply ite_kept

theorem drainEngines_kept (p : Nat) (s : State) {b0 : State} (h0s : Kept b0 s) : Kept b0 (drainEngines p s) := by
  dsimp only [drainEngines]
  repeat' first
    | with_reducible assumption
    | intro _
    | with_reducible apply foldState_kept
    | with_reducible apply modPart_kept
    | with_reducible apply modCore_kept
    | with_reducible apply modSpad_kept
    | with_reducible apply emptyStaging_kept

theorem modJob_kept (j : Nat × Nat) (g : Ring → Ring) (s : State) {b0 : State} (h0s : Kept b0 s) : Kept b0 (modJob j g s) := by
  dsimp only [modJob]
  repeat' first
    | with_reducible assumption
    | intro _
    | with_reducible apply modRing_kept

theorem noteRun_kept (p : Nat) (j : Nat × Nat) (s : State) {b0 : State} (h0s : Kept b0 s) : Kept b0 (noteRun p j s) := by
  dsimp only [noteRun]
  repeat' first
    | with_reducible assumption
    | intro _
    | with_reducible apply modPart_kept

theorem startNext_kept (p : Nat) (s : State) {b0 : State} (h0s : Kept b0 s) : Kept b0 (startNext p s) := by
  dsimp only [startNext]
  repeat' first
    | with_reducible assumption
    | intro _
    | with_reducible apply modPart_kept
    | with_reducible apply modJob_kept
    | with_reducible apply noteRun_kept
    | with_reducible apply ite_kept
    | split

theorem holdPrograms_kept (c : Nat) (s : State) {b0 : State} (h0s : Kept b0 s) : Kept b0 (holdPrograms c s) := by
  dsimp only [holdPrograms]
  repeat' first
    | with_reducible assumption
    | intro _
    | with_reducible apply ite_kept
    | split
    | (refine Kept.lit rfl rfl rfl rfl rfl rfl ?_)

theorem beginStop_kept (p reason : Nat) (j : Nat × Nat) (s : State) {b0 : State} (h0s : Kept b0 s) : Kept b0 (beginStop p reason j s) := by
  dsimp only [beginStop]
  repeat' first
    | with_reducible assumption
    | intro _
    | with_reducible apply foldState_kept
    | with_reducible apply modPart_kept
    | with_reducible apply modCore_kept
    | with_reducible apply fabricStop_kept
    | with_reducible apply modJob_kept
    | with_reducible apply holdPrograms_kept

theorem requestStop_kept (p reason : Nat) (s : State) {b0 : State} (h0s : Kept b0 s) : Kept b0 (requestStop p reason s) := by
  dsimp only [requestStop]
  repeat' first
    | with_reducible assumption
    | intro _
    | with_reducible apply modPart_kept
    | with_reducible apply modJob_kept
    | with_reducible apply startNext_kept
    | with_reducible apply beginStop_kept
    | with_reducible apply ite_kept
    | split

theorem schedule_kept (p : Nat) (s : State) {b0 : State} (h0s : Kept b0 s) : Kept b0 (schedule p s) := by
  dsimp only [schedule]
  repeat' first
    | with_reducible assumption
    | intro _
    | with_reducible apply startNext_kept
    | with_reducible apply requestStop_kept
    | with_reducible apply ite_kept
    | split

theorem wakeJob_kept (j : Nat × Nat) (s : State) {b0 : State} (h0s : Kept b0 s) : Kept b0 (wakeJob j s) := by
  dsimp only [wakeJob]
  repeat' first
    | with_reducible assumption
    | intro _
    | with_reducible apply modPart_kept
    | with_reducible apply modJob_kept
    | with_reducible apply schedule_kept
    | with_reducible apply ite_kept
    | split

theorem inheritOnce_kept (p : Nat) (s0 : State) {b0 : State} (h0s0 : Kept b0 s0) : Kept b0 (inheritOnce p s0) := by
  dsimp only [inheritOnce]
  repeat' first
    | with_reducible assumption
    | intro _
    | with_reducible apply foldState_kept
    | with_reducible apply modRing_kept

theorem reinherit_kept (p : Nat) (s : State) {b0 : State} (h0s : Kept b0 s) : Kept b0 (reinherit p s) := by
  dsimp only [reinherit]
  repeat' first
    | with_reducible assumption
    | intro _
    | with_reducible apply foldState_kept
    | with_reducible apply iter_kept
    | with_reducible apply modJob_kept
    | with_reducible apply schedule_kept
    | with_reducible apply inheritOnce_kept

theorem setSem_kept (n v : Nat) (s : State) {b0 : State} (h0s : Kept b0 s) : Kept b0 (setSem n v s) := by
  dsimp only [setSem]
  repeat' first
    | with_reducible assumption
    | intro _
    | with_reducible apply ite_kept
    | split
    | (refine Kept.lit rfl rfl rfl rfl rfl rfl ?_)

theorem noteSemOp_kept (c i : Nat) (s : State) {b0 : State} (h0s : Kept b0 s) : Kept b0 (noteSemOp c i s) := by
  dsimp only [noteSemOp]
  repeat' first
    | with_reducible assumption
    | intro _
    | with_reducible apply modCmd_kept

theorem satisfy_kept (w : Waiter) (s : State) {b0 : State} (h0s : Kept b0 s) : Kept b0 (satisfy w s) := by
  dsimp only [satisfy]
  repeat' first
    | with_reducible assumption
    | intro _
    | with_reducible apply modCmd_kept
    | with_reducible apply modPart_kept
    | with_reducible apply modCore_kept
    | with_reducible apply raise_kept
    | with_reducible apply markDone_kept
    | with_reducible apply spendCycles_kept
    | with_reducible apply wakeJob_kept
    | with_reducible apply noteSemOp_kept
    | with_reducible apply ite_kept
    | split
    | (refine Kept.lit rfl rfl rfl rfl rfl rfl ?_)

theorem settleSem_kept (n : Nat) (s : State) {b0 : State} (h0 : Kept b0 s) : Kept b0 (settleSem n s) := by
  unfold settleSem
  refine foldl_kept (fun x : State × Bool => x.1) _ ?_ _ _ (foldState_kept _ _ (fun a t h => satisfy_kept _ _ h) h0)
  intro b a h
  split
  · exact satisfy_kept _ _ (setSem_kept _ _ _ h)
  · exact h

theorem settleWaits_kept (p : Nat) (s0 s : State) {b0 : State} (h0s0 : Kept b0 s0) (h0s : Kept b0 s) : Kept b0 (settleWaits p s0 s) := by
  dsimp only [settleWaits]
  repeat' first
    | with_reducible assumption
    | intro _
    | with_reducible apply foldState_kept
    | with_reducible apply reinherit_kept
    | with_reducible apply settleSem_kept
    | with_reducible apply ite_kept

theorem semAdd_kept (n v : Nat) (j : Nat × Nat) (s : State) {b0 : State} (h0s : Kept b0 s) : Kept b0 (semAdd n v j s) := by
  dsimp only [semAdd]
  repeat' first
    | with_reducible assumption
    | intro _
    | with_reducible apply reinherit_kept
    | with_reducible apply setSem_kept
    | with_reducible apply settleSem_kept
    | with_reducible apply ite_kept
    | split
    | (refine Kept.lit rfl rfl rfl rfl rfl rfl ?_)

theorem inheritNew_kept (w : Waiter) (s : State) {b0 : State} (h0s : Kept b0 s) : Kept b0 (inheritNew w s) := by
  dsimp only [inheritNew]
  repeat' first
    | with_reducible assumption
    | intro _
    | with_reducible apply reinherit_kept
    | with_reducible apply ite_kept

theorem semWaitNow_kept2 (w : Waiter) (s : State) {b0 : State} (h0 : Kept b0 s) : Kept b0 (semWaitNow w s).2 := by
  dsimp only [semWaitNow]
  split
  · dsimp only
    apply inheritNew_kept
    refine .lit rfl rfl rfl rfl rfl rfl ?_
    split
    · exact setSem_kept _ _ _ h0
    · exact h0
  · exact .lit rfl rfl rfl rfl rfl rfl h0

theorem semWaitNow_kept {w : Waiter} {s t b0 : State} {k : Bool} (e : semWaitNow w s = (k, t)) (h0 : Kept b0 s) : Kept b0 t := by
  have h := semWaitNow_kept2 w s h0
  rw [e] at h
  exact h

theorem settleFences_kept : ∀ (n : Nat) (s : State) {b0 : State}, Kept b0 s → Kept b0 (settleFences n s) := by
  intro n
  induction n with
  | zero => intro s b0 h; exact h
  | succ n ih =>
    intro s b0 h
    unfold settleFences
    split
    · exact h
    · exact ih _ (wakeJob_kept _ _ (markDone_kept _ _ _ _ _ _ _ h))

theorem finish_kept (c : Nat) (st : Status) (cause result index : Nat) (flags : BitVec 4) (s : State) {b0 : State} (h0s : Kept b0 s) : Kept b0 (finish c st cause result index flags s) := by
  dsimp only [finish]
  repeat' first
    | with_reducible assumption
    | intro _
    | with_reducible apply markDone_kept
    | with_reducible apply settleFences_kept

theorem finishOk_kept (c result : Nat) (s : State) {b0 : State} (h0s : Kept b0 s) : Kept b0 (finishOk c result s) := by
  dsimp only [finishOk]
  repeat' first
    | with_reducible assumption
    | intro _
    | with_reducible apply finish_kept

theorem fail_kept (c : Nat) (st : Status) (cause : Nat) (s : State) {b0 : State} (h0s : Kept b0 s) : Kept b0 (fail c st cause s) := by
  dsimp only [fail]
  repeat' first
    | with_reducible assumption
    | intro _
    | with_reducible apply finish_kept

theorem fabEnd_kept (c : Nat) (st : Status) (cause : Nat) (flags : BitVec 4) (s : State) {b0 : State} (h0s : Kept b0 s) : Kept b0 (fabEnd c st cause flags s) := by
  dsimp only [fabEnd]
  repeat' first
    | with_reducible assumption
    | intro _
    | with_reducible apply endFabric_kept
    | with_reducible apply wakeJob_kept
    | with_reducible apply finish_kept

theorem pushOrFail_kept (x : SendCtx) (s : State) {b0 : State} (h0s : Kept b0 s) : Kept b0 (pushOrFail x s) := by
  dsimp only [pushOrFail]
  repeat' first
    | with_reducible assumption
    | intro _
    | with_reducible apply pushSend_kept
    | with_reducible apply fabEnd_kept
    | with_reducible apply ite_kept

theorem fabricResume_kept (j : Nat × Nat) (s : State) {b0 : State} (h0s : Kept b0 s) : Kept b0 (fabricResume j s) := by
  dsimp only [fabricResume]
  repeat' first
    | with_reducible assumption
    | intro _
    | with_reducible apply foldState_kept
    | with_reducible apply grantRecv_kept
    | with_reducible apply pushOrFail_kept
    | with_reducible apply ite_kept
    | split
    | (refine Kept.lit rfl rfl rfl rfl rfl rfl ?_)

theorem endGroup_kept (f r : Nat) (s : State) {b0 : State} (h0s : Kept b0 s) : Kept b0 (endGroup f r s) := by
  dsimp only [endGroup]
  repeat' first
    | with_reducible assumption
    | intro _
    | with_reducible apply modRing_kept
    | with_reducible apply modPart_kept
    | with_reducible apply endRecovery_kept
    | with_reducible apply startNext_kept
    | with_reducible apply ite_kept
    | split
    | (refine Kept.lit rfl rfl rfl rfl rfl rfl ?_)

theorem dropJob_kept (f r : Nat) (s : State) {b0 : State} (h0s : Kept b0 s) : Kept b0 (dropJob f r s) := by
  dsimp only [dropJob]
  repeat' first
    | with_reducible assumption
    | intro _
    | with_reducible apply modRing_kept
    | with_reducible apply modPart_kept
    | with_reducible apply endRecovery_kept
    | with_reducible apply drainEngines_kept
    | with_reducible apply startNext_kept
    | with_reducible apply ite_kept
    | split
    | (refine Kept.lit rfl rfl rfl rfl rfl rfl ?_)

theorem noteIdle_kept (s : State) {b0 : State} (h0s : Kept b0 s) : Kept b0 (noteIdle s) := by
  dsimp only [noteIdle, draw]
  repeat' first
    | with_reducible assumption
    | intro _
    | (with_reducible refine draw_kept (by assumption) ?_)
    | with_reducible apply ite_kept
    | split
    | (refine Kept.lit rfl rfl rfl rfl rfl rfl ?_)

theorem leaveIdle_kept (next : IdleState) (s : State) {b0 : State} (h0s : Kept b0 s) : Kept b0 (leaveIdle next s) := by
  dsimp only [leaveIdle]
  repeat' first
    | with_reducible assumption
    | intro _
    | with_reducible apply noteIdle_kept
    | with_reducible apply ite_kept
    | split
    | (refine Kept.lit rfl rfl rfl rfl rfl rfl ?_)

theorem settleIdle_kept (s : State) {b0 : State} (h0s : Kept b0 s) : Kept b0 (settleIdle s) := by
  dsimp only [settleIdle]
  repeat' first
    | with_reducible assumption
    | intro _
    | with_reducible apply leaveIdle_kept
    | with_reducible apply ite_kept

theorem coldState_kept (s : State) {b0 : State} (h0 : Kept b0 s) : Kept b0 (coldState s) :=
  .memWf (u := s) rfl rfl rfl rfl rfl (fun _ => rfl) (fun _ => rfl) (fun _ => rfl) (fun _ => rfl) (fun _ => rfl) (fun _ => rfl) h0

theorem setPhase_kept (ph : ModulePhase) (s : State) {b0 : State} (h0s : Kept b0 s) : Kept b0 (setPhase ph s) := by
  dsimp only [setPhase]
  repeat' first
    | with_reducible assumption
    | intro _
    | with_reducible apply ite_kept
    | split
    | (refine Kept.lit rfl rfl rfl rfl rfl rfl ?_)

theorem moduleStop_kept (cause : Nat) (sensor : Nat) (s : State) {b0 : State} (h0s : Kept b0 s) : Kept b0 (moduleStop cause sensor s) := by
  dsimp only [moduleStop]
  repeat' first
    | with_reducible assumption
    | intro _
    | with_reducible apply coldState_kept
    | with_reducible apply ite_kept
    | split
    | (refine Kept.lit rfl rfl rfl rfl rfl rfl ?_)

theorem powerUp_kept (s : State) {b0 : State} (h0s : Kept b0 s) : Kept b0 (powerUp s) := by
  dsimp only [powerUp, draw]
  repeat' first
    | with_reducible assumption
    | intro _
    | (with_reducible refine draw_kept (by assumption) ?_)
    | with_reducible apply ite_kept
    | split
    | (refine Kept.lit rfl rfl rfl rfl rfl rfl ?_)

theorem beginReset_kept (cause : Nat) (s : State) {b0 : State} (h0s : Kept b0 s) : Kept b0 (beginReset cause s) := by
  dsimp only [beginReset]
  repeat' first
    | with_reducible assumption
    | intro _
    | with_reducible apply coldState_kept
    | with_reducible apply setPhase_kept
    | with_reducible apply powerUp_kept
    | with_reducible apply ite_kept
    | split
    | (refine Kept.lit rfl rfl rfl rfl rfl rfl ?_)

theorem badAccess_kept (f : Nat) (s : State) {b0 : State} (h0s : Kept b0 s) : Kept b0 (badAccess f s) := by
  dsimp only [badAccess]
  repeat' first
    | with_reducible assumption
    | intro _
    | with_reducible apply modFn_kept

theorem dropDb_kept (f : Nat) (s : State) {b0 : State} (h0s : Kept b0 s) : Kept b0 (dropDb f s) := by
  dsimp only [dropDb]
  repeat' first
    | with_reducible assumption
    | intro _
    | with_reducible apply modFn_kept

theorem sendMsg_kept (f v : Nat) (s : State) {b0 : State} (h0s : Kept b0 s) : Kept b0 (sendMsg f v s) := by
  dsimp only [sendMsg]
  repeat' first
    | with_reducible assumption
    | intro _
    | with_reducible apply modVec_kept
    | with_reducible apply ite_kept
    | split
    | (refine Kept.lit rfl rfl rfl rfl rfl rfl ?_)

theorem ringError_kept (f r : Nat) (err : Byte) (s : State) {b0 : State} (h0s : Kept b0 s) : Kept b0 (ringError f r err s) := by
  dsimp only [ringError]
  repeat' first
    | with_reducible assumption
    | intro _
    | with_reducible apply modRing_kept
    | with_reducible apply sendMsg_kept

theorem resetDone_kept (c : Nat) (s : State) {b0 : State} (h0s : Kept b0 s) : Kept b0 (resetDone c s) := by
  dsimp only [resetDone]
  repeat' first
    | with_reducible assumption
    | intro _
    | with_reducible apply modCmd_kept
    | with_reducible apply ite_kept

theorem endRingCmds_kept (f r : Nat) (st : Status) (records : Bool) (s : State) {b0 : State} (h0s : Kept b0 s) : Kept b0 (endRingCmds f r st records s) := by
  dsimp only [endRingCmds]
  repeat' first
    | with_reducible assumption
    | intro _
    | with_reducible apply foldState_kept
    | with_reducible apply modPart_kept
    | with_reducible apply discardCmd_kept
    | with_reducible apply resetDone_kept
    | with_reducible apply ite_kept
    | split
    | (refine Kept.lit rfl rfl rfl rfl rfl rfl ?_)

theorem beginShutdown_kept (f : Nat) (records : Bool) (s : State) {b0 : State} (h0s : Kept b0 s) : Kept b0 (beginShutdown f records s) := by
  dsimp only [beginShutdown]
  repeat' first
    | with_reducible assumption
    | intro _
    | with_reducible apply foldState_kept
    | with_reducible apply modFn_kept
    | with_reducible apply settleWaits_kept
    | with_reducible apply settleFences_kept
    | with_reducible apply dropJob_kept
    | with_reducible apply sendMsg_kept
    | with_reducible apply endRingCmds_kept

theorem releaseFrames_kept (q : Frame → Bool) (s : State) {b0 : State} (h0s : Kept b0 s) : Kept b0 (releaseFrames q s) := by
  dsimp only [releaseFrames]
  repeat' first
    | with_reducible assumption
    | intro _
    | with_reducible apply foldState_kept
    | with_reducible apply modFrame_kept
    | with_reducible apply wipeRange_kept

theorem clearFn_kept (f : Nat) (s : State) {b0 : State} (h0s : Kept b0 s) : Kept b0 (clearFn f s) := by
  dsimp only [clearFn]
  repeat' first
    | with_reducible assumption
    | intro _
    | with_reducible apply modFn_kept
    | with_reducible apply ite_kept
    | split
    | (refine Kept.lit rfl rfl rfl rfl rfl rfl ?_)

theorem endShutdown_kept (f : Nat) (s : State) {b0 : State} (h0s : Kept b0 s) : Kept b0 (endShutdown f s) := by
  dsimp only [endShutdown]
  repeat' first
    | with_reducible assumption
    | intro _
    | with_reducible apply modFn_kept
    | with_reducible apply sendMsg_kept
    | with_reducible apply releaseFrames_kept
    | with_reducible apply clearFn_kept

theorem beginRingStop_kept (f r : Nat) (s : State) {b0 : State} (h0s : Kept b0 s) : Kept b0 (beginRingStop f r s) := by
  dsimp only [beginRingStop]
  repeat' first
    | with_reducible assumption
    | intro _
    | with_reducible apply modRing_kept
    | with_reducible apply settleWaits_kept
    | with_reducible apply settleFences_kept
    | with_reducible apply dropJob_kept
    | with_reducible apply endRingCmds_kept

theorem endRingStop_kept (f r : Nat) (s : State) {b0 : State} (h0s : Kept b0 s) : Kept b0 (endRingStop f r s) := by
  dsimp only [endRingStop]
  repeat' first
    | with_reducible assumption
    | intro _
    | with_reducible apply modRing_kept
    | with_reducible apply ite_kept
    | split
    | (refine Kept.lit rfl rfl rfl rfl rfl rfl ?_)

theorem writeRecord_kept (f r : Nat) (x : Cmd) (s : State) {b0 : State} (h0s : Kept b0 s) : Kept b0 (writeRecord f r x s) := by
  dsimp only [writeRecord]
  repeat' first
    | with_reducible assumption
    | intro _
    | with_reducible apply modRing_kept
    | with_reducible apply hostPutRaw_kept
    | with_reducible apply ite_kept

theorem coalesce_kept (f r : Nat) (s : State) {b0 : State} (h0s : Kept b0 s) : Kept b0 (coalesce f r s) := by
  dsimp only [coalesce]
  repeat' first
    | with_reducible assumption
    | intro _
    | with_reducible apply modRing_kept
    | with_reducible apply sendMsg_kept
    | with_reducible apply ite_kept

theorem noteStop_kept (p : Nat) (hinted : Bool) (s : State) {b0 : State} (h0s : Kept b0 s) : Kept b0 (noteStop p hinted s) := by
  dsimp only [noteStop]
  repeat' first
    | with_reducible assumption
    | intro _
    | with_reducible apply modPart_kept

theorem setWaiters_kept (l : List Waiter) (s : State) {b0 : State} (h0s : Kept b0 s) : Kept b0 (setWaiters l s) := by
  dsimp only [setWaiters]
  repeat' first
    | with_reducible assumption
    | intro _
    | with_reducible apply ite_kept
    | split
    | (refine Kept.lit rfl rfl rfl rfl rfl rfl ?_)

theorem stopWait_kept (n : Nat) (keep : Bool) (s : State) {b0 : State} (h0s : Kept b0 s) : Kept b0 (stopWait n keep s) := by
  dsimp only [stopWait]
  repeat' first
    | with_reducible assumption
    | intro _
    | with_reducible apply modCore_kept
    | with_reducible apply setWaiters_kept
    | with_reducible apply ite_kept

theorem coreSuspend_kept (n : Nat) (s : State) {b0 : State} (h0s : Kept b0 s) : Kept b0 (coreSuspend n s) := by
  dsimp only [coreSuspend]
  repeat' first
    | with_reducible assumption
    | intro _
    | with_reducible apply modCore_kept
    | with_reducible apply modSpad_kept
    | with_reducible apply raise_kept
    | with_reducible apply settleWaits_kept
    | with_reducible apply noteStop_kept
    | with_reducible apply stopWait_kept
    | with_reducible apply ite_kept

theorem setAside_kept (p i : Nat) (img : CoreImage) (s : State) {b0 : State} (h0s : Kept b0 s) : Kept b0 (setAside p i img s) := by
  dsimp only [setAside]
  repeat' first
    | with_reducible assumption
    | intro _
    | with_reducible apply modPart_kept

theorem jobStopCompleteEffect_kept (f r : Nat) (s : State) {b0 : State} (h0s : Kept b0 s) : Kept b0 (jobStopCompleteEffect f r s) := by
  dsimp only [jobStopCompleteEffect]
  repeat' first
    | with_reducible assumption
    | intro _
    | with_reducible apply foldState_kept
    | with_reducible apply notTaken_kept
    | with_reducible apply modRing_kept
    | with_reducible apply modPart_kept
    | with_reducible apply modCore_kept
    | with_reducible apply modSpad_kept
    | with_reducible apply emptyStaging_kept
    | with_reducible apply startNext_kept
    | with_reducible apply settleWaits_kept
    | with_reducible apply setWaiters_kept
    | with_reducible apply ite_kept

theorem placeImage_kept (p : Nat) (img : CoreImage) (s : State) {b0 : State} (h0s : Kept b0 s) : Kept b0 (placeImage p img s) := by
  dsimp only [placeImage]
  repeat' first
    | with_reducible assumption
    | intro _
    | with_reducible apply modCore_kept
    | with_reducible apply modSpad_kept
    | with_reducible apply dropAsk_kept
    | with_reducible apply setAside_kept
    | with_reducible apply ite_kept
    | split

theorem releasePrograms_kept (c : Nat) (s : State) {b0 : State} (h0s : Kept b0 s) : Kept b0 (releasePrograms c s) := by
  dsimp only [releasePrograms]
  repeat' first
    | with_reducible assumption
    | intro _
    | with_reducible apply foldState_kept
    | with_reducible apply switchIn_kept
    | with_reducible apply ite_kept
    | split
    | (refine Kept.lit rfl rfl rfl rfl rfl rfl ?_)

theorem jobResumeEffect_kept (f r : Nat) (s : State) {b0 : State} (h0s : Kept b0 s) : Kept b0 (jobResumeEffect f r s) := by
  dsimp only [jobResumeEffect]
  repeat' first
    | with_reducible assumption
    | intro _
    | with_reducible apply foldState_kept
    | with_reducible apply notTaken_kept
    | with_reducible apply modRing_kept
    | with_reducible apply modPart_kept
    | with_reducible apply noteRun_kept
    | with_reducible apply fabricResume_kept
    | with_reducible apply placeImage_kept
    | with_reducible apply releasePrograms_kept
    | with_reducible apply ite_kept
    | split
    | (refine Kept.lit rfl rfl rfl rfl rfl rfl ?_)

theorem sliceExpiredEffect_kept (p : Nat) (s : State) {b0 : State} (h0s : Kept b0 s) : Kept b0 (sliceExpiredEffect p s) := by
  dsimp only [sliceExpiredEffect]
  repeat' first
    | with_reducible assumption
    | intro _
    | with_reducible apply notTaken_kept
    | with_reducible apply requestStop_kept
    | with_reducible apply ite_kept
    | split

theorem waitHoldTimeoutEffect_kept (c : Nat) (s : State) {b0 : State} (h0s : Kept b0 s) : Kept b0 (waitHoldTimeoutEffect c s) := by
  dsimp only [waitHoldTimeoutEffect]
  repeat' first
    | with_reducible assumption
    | intro _
    | with_reducible apply when_kept
    | with_reducible apply requestStop_kept

theorem pendingStopTakenEffect_kept (p : Nat) (s : State) {b0 : State} (h0s : Kept b0 s) : Kept b0 (pendingStopTakenEffect p s) := by
  dsimp only [pendingStopTakenEffect]
  repeat' first
    | with_reducible assumption
    | intro _
    | with_reducible apply notTaken_kept
    | with_reducible apply modPart_kept
    | with_reducible apply requestStop_kept
    | with_reducible apply ite_kept
    | split

theorem fnEnableEffect_kept (f : Nat) (s : State) {b0 : State} (h0s : Kept b0 s) : Kept b0 (fnEnableEffect f s) := by
  dsimp only [fnEnableEffect]
  repeat' first
    | with_reducible assumption
    | intro _
    | with_reducible apply notTaken_kept
    | with_reducible apply modFn_kept
    | with_reducible apply sendMsg_kept
    | with_reducible apply ite_kept
    | split

theorem fnDisableEffect_kept (f : Nat) (s : State) {b0 : State} (h0s : Kept b0 s) : Kept b0 (fnDisableEffect f s) := by
  dsimp only [fnDisableEffect]
  repeat' first
    | with_reducible assumption
    | intro _
    | with_reducible apply notTaken_kept
    | with_reducible apply beginShutdown_kept
    | with_reducible apply ite_kept
    | split

theorem flrEffect_kept (f : Nat) (s : State) {b0 : State} (h0s : Kept b0 s) : Kept b0 (flrEffect f s) := by
  dsimp only [flrEffect]
  repeat' first
    | with_reducible assumption
    | intro _
    | with_reducible apply notTaken_kept
    | with_reducible apply modFn_kept
    | with_reducible apply beginShutdown_kept
    | with_reducible apply clearFn_kept
    | with_reducible apply ite_kept
    | split

theorem fnShutdownCompleteEffect_kept (f : Nat) (s : State) {b0 : State} (h0s : Kept b0 s) : Kept b0 (fnShutdownCompleteEffect f s) := by
  dsimp only [fnShutdownCompleteEffect]
  repeat' first
    | with_reducible assumption
    | intro _
    | with_reducible apply when_kept
    | with_reducible apply endShutdown_kept

theorem ringEnableEffect_kept (f r : Nat) (v : W32) (s : State) {b0 : State} (h0s : Kept b0 s) : Kept b0 (ringEnableEffect f r v s) := by
  dsimp only [ringEnableEffect]
  repeat' first
    | with_reducible assumption
    | intro _
    | with_reducible apply notTaken_kept
    | with_reducible apply modRing_kept
    | with_reducible apply badAccess_kept
    | with_reducible apply ite_kept
    | split

theorem ringDisableEffect_kept (f r : Nat) (v : W32) (s : State) {b0 : State} (h0s : Kept b0 s) : Kept b0 (ringDisableEffect f r v s) := by
  dsimp only [ringDisableEffect]
  repeat' first
    | with_reducible assumption
    | intro _
    | with_reducible apply notTaken_kept
    | with_reducible apply modRing_kept
    | with_reducible apply badAccess_kept
    | with_reducible apply beginRingStop_kept
    | with_reducible apply ite_kept
    | split

theorem ringStopCompleteEffect_kept (f r : Nat) (s : State) {b0 : State} (h0s : Kept b0 s) : Kept b0 (ringStopCompleteEffect f r s) := by
  dsimp only [ringStopCompleteEffect]
  repeat' first
    | with_reducible assumption
    | intro _
    | with_reducible apply when_kept
    | with_reducible apply endRingStop_kept

theorem raiseDoorbell_kept (f : Nat) (s : State) {b0 : State} (h0s : Kept b0 s) : Kept b0 (raiseDoorbell f s) := by
  dsimp only [raiseDoorbell]
  repeat' first
    | with_reducible assumption
    | intro _
    | with_reducible apply raise_kept
    | with_reducible apply ite_kept

theorem sqTailEffect_kept (f r : Nat) (v : W32) (s : State) {b0 : State} (h0s : Kept b0 s) : Kept b0 (sqTailEffect f r v s) := by
  dsimp only [sqTailEffect]
  repeat' first
    | with_reducible assumption
    | intro _
    | with_reducible apply notTaken_kept
    | with_reducible apply modRing_kept
    | with_reducible apply dropDb_kept
    | with_reducible apply ringError_kept
    | with_reducible apply raiseDoorbell_kept
    | with_reducible apply ite_kept

theorem cqHeadEffect_kept (f r : Nat) (v : W32) (s : State) {b0 : State} (h0s : Kept b0 s) : Kept b0 (cqHeadEffect f r v s) := by
  dsimp only [cqHeadEffect]
  repeat' first
    | with_reducible assumption
    | intro _
    | with_reducible apply notTaken_kept
    | with_reducible apply modRing_kept
    | with_reducible apply dropDb_kept
    | with_reducible apply ringError_kept
    | with_reducible apply raiseDoorbell_kept
    | with_reducible apply ite_kept

theorem hostAccessFailedEffect_kept (f r : Nat) (write : Bool) (s : State) {b0 : State} (h0s : Kept b0 s) : Kept b0 (hostAccessFailedEffect f r write s) := by
  dsimp only [hostAccessFailedEffect]
  repeat' first
    | with_reducible assumption
    | intro _
    | with_reducible apply notTaken_kept
    | with_reducible apply modRing_kept
    | with_reducible apply sendMsg_kept
    | with_reducible apply ringError_kept
    | with_reducible apply ite_kept
    | split

theorem bbRegisterEffect_kept (f b : Nat) (v : W32) (s : State) {b0 : State} (h0s : Kept b0 s) : Kept b0 (bbRegisterEffect f b v s) := by
  dsimp only [bbRegisterEffect]
  repeat' first
    | with_reducible assumption
    | intro _
    | with_reducible apply notTaken_kept
    | with_reducible apply modBuf_kept
    | with_reducible apply badAccess_kept
    | with_reducible apply ite_kept

theorem bbDeregisterEffect_kept (f b : Nat) (v : W32) (s : State) {b0 : State} (h0s : Kept b0 s) : Kept b0 (bbDeregisterEffect f b v s) := by
  dsimp only [bbDeregisterEffect]
  repeat' first
    | with_reducible assumption
    | intro _
    | with_reducible apply when_kept
    | with_reducible apply modBuf_kept

theorem ringSchedEffect_kept (f r : Nat) (v : W32) (s : State) {b0 : State} (h0s : Kept b0 s) : Kept b0 (ringSchedEffect f r v s) := by
  dsimp only [ringSchedEffect]
  repeat' first
    | with_reducible assumption
    | intro _
    | with_reducible apply notTaken_kept
    | with_reducible apply modRing_kept
    | with_reducible apply badAccess_kept
    | with_reducible apply ite_kept

theorem msixUnmaskEffect_kept (f v : Nat) (s : State) {b0 : State} (h0s : Kept b0 s) : Kept b0 (msixUnmaskEffect f v s) := by
  dsimp only [msixUnmaskEffect]
  repeat' first
    | with_reducible assumption
    | intro _
    | with_reducible apply notTaken_kept
    | with_reducible apply modRing_kept
    | with_reducible apply modVec_kept
    | with_reducible apply sendMsg_kept
    | with_reducible apply ite_kept

theorem msixCoalesceTimeoutEffect_kept (f r : Nat) (s : State) {b0 : State} (h0s : Kept b0 s) : Kept b0 (msixCoalesceTimeoutEffect f r s) := by
  dsimp only [msixCoalesceTimeoutEffect]
  repeat' first
    | with_reducible assumption
    | intro _
    | with_reducible apply when_kept
    | with_reducible apply modRing_kept
    | with_reducible apply sendMsg_kept

theorem descriptorFetchEffect_kept (f r : Nat) (s : State) {b0 : State} (h0s : Kept b0 s) : Kept b0 (descriptorFetchEffect f r s) := by
  dsimp only [descriptorFetchEffect]
  repeat' first
    | with_reducible assumption
    | intro _
    | with_reducible apply notTaken_kept
    | with_reducible apply modRing_kept
    | with_reducible apply markDone_kept
    | with_reducible apply schedule_kept
    | with_reducible apply ite_kept
    | split
    | (refine Kept.lit rfl rfl rfl rfl rfl rfl ?_)

theorem noteStart_kept (c : Nat) (s : State) {b0 : State} (h0s : Kept b0 s) : Kept b0 (noteStart c s) := by
  dsimp only [noteStart]
  repeat' first
    | with_reducible assumption
    | intro _
    | with_reducible apply modCmd_kept
    | with_reducible apply ite_kept
    | split
    | (refine Kept.lit rfl rfl rfl rfl rfl rfl ?_)

theorem commandStartEffect_kept (c : Nat) (s : State) {b0 : State} (h0s : Kept b0 s) : Kept b0 (commandStartEffect c s) := by
  dsimp only [commandStartEffect]
  repeat' first
    | with_reducible assumption
    | intro _
    | with_reducible apply notTaken_kept
    | with_reducible apply startMover_kept
    | with_reducible apply fail_kept
    | with_reducible apply noteStart_kept
    | with_reducible apply ite_kept
    | split

theorem commandCompleteEffect_kept (c : Nat) (s : State) {b0 : State} (h0s : Kept b0 s) : Kept b0 (commandCompleteEffect c s) := by
  dsimp only [commandCompleteEffect]
  repeat' first
    | with_reducible assumption
    | intro _
    | with_reducible apply notTaken_kept
    | with_reducible apply modRing_kept
    | with_reducible apply modCmd_kept
    | with_reducible apply modPart_kept
    | with_reducible apply raise_kept
    | with_reducible apply endFabric_kept
    | with_reducible apply cancelGroup_kept
    | with_reducible apply settleWaits_kept
    | with_reducible apply settleFences_kept
    | with_reducible apply endGroup_kept
    | with_reducible apply writeRecord_kept
    | with_reducible apply coalesce_kept
    | with_reducible apply ite_kept

theorem groupEndEffect_kept (f r : Nat) (s : State) {b0 : State} (h0s : Kept b0 s) : Kept b0 (groupEndEffect f r s) := by
  dsimp only [groupEndEffect]
  repeat' first
    | with_reducible assumption
    | intro _
    | with_reducible apply notTaken_kept
    | with_reducible apply modRing_kept
    | with_reducible apply dropImage_kept
    | with_reducible apply drainEngines_kept
    | with_reducible apply ite_kept

theorem deferAccess_kept (g : Nat) (d : Deferred) (s : State) {b0 : State} (h0s : Kept b0 s) : Kept b0 (deferAccess g d s) := by
  dsimp only [deferAccess]
  repeat' first
    | with_reducible assumption
    | intro _
    | with_reducible apply notTaken_kept
    | with_reducible apply modClove_kept
    | with_reducible apply ite_kept
    | split
    | (refine Kept.lit rfl rfl rfl rfl rfl rfl ?_)
    | (refine Kept.litMem rfl rfl rfl rfl rfl rfl rfl rfl rfl rfl rfl ?_)

theorem holdAccess_kept (g : Nat) (d : Deferred) (s : State) {b0 : State} (h0s : Kept b0 s) : Kept b0 (holdAccess g d s) := by
  dsimp only [holdAccess]
  repeat' first
    | with_reducible assumption
    | intro _
    | with_reducible apply ite_kept
    | split
    | (refine Kept.lit rfl rfl rfl rfl rfl rfl ?_)
    | (refine Kept.litMem rfl rfl rfl rfl rfl rfl rfl rfl rfl rfl rfl ?_)

theorem stackOrdinaryAccessEffect_kept (p g off : Nat) (write : Option (BitVec 512)) (s : State) {b0 : State} (h0s : Kept b0 s) : Kept b0 (stackOrdinaryAccessEffect p g off write s) := by
  dsimp only [stackOrdinaryAccessEffect]
  repeat' first
    | with_reducible assumption
    | intro _
    | with_reducible apply setReply_kept
    | with_reducible apply notTaken_kept
    | with_reducible apply writeSector_kept
    | with_reducible apply readSectorNote_kept
    | with_reducible apply countSectors_kept
    | with_reducible apply deferAccess_kept
    | with_reducible apply holdAccess_kept
    | with_reducible apply ite_kept
    | split

theorem refreshOperationEffect_kept (g : Nat) (s : State) {b0 : State} (h0s : Kept b0 s) : Kept b0 (refreshOperationEffect g s) := by
  dsimp only [refreshOperationEffect]
  repeat' first
    | with_reducible assumption
    | intro _
    | with_reducible apply when_kept
    | with_reducible apply ite_kept
    | split
    | (refine Kept.lit rfl rfl rfl rfl rfl rfl ?_)
    | (refine Kept.litMem rfl rfl rfl rfl rfl rfl rfl rfl rfl rfl rfl ?_)

theorem serveHeld_kept (st p : Nat) (s : State) {b0 : State} (h0s : Kept b0 s) : Kept b0 (serveHeld st p s) := by
  dsimp only [serveHeld]
  repeat' first
    | with_reducible assumption
    | intro _
    | with_reducible apply serveWaiting_kept
    | with_reducible apply deferAccess_kept
    | with_reducible apply ite_kept
    | split
    | (refine Kept.lit rfl rfl rfl rfl rfl rfl ?_)
    | (refine Kept.litMem rfl rfl rfl rfl rfl rfl rfl rfl rfl rfl rfl ?_)

theorem serveWindow_kept (st : Nat) (s : State) {b0 : State} (h0s : Kept b0 s) : Kept b0 (serveWindow st s) := by
  dsimp only [serveWindow]
  repeat' first
    | with_reducible assumption
    | intro _
    | with_reducible apply foldState_kept
    | with_reducible apply iter_kept
    | with_reducible apply serveHeld_kept

theorem scrubReadEffect_kept (g off : Nat) (s : State) {b0 : State} (h0s : Kept b0 s) : Kept b0 (scrubReadEffect g off s) := by
  dsimp only [scrubReadEffect]
  repeat' first
    | with_reducible assumption
    | intro _
    | with_reducible apply notTaken_kept
    | with_reducible apply noteWord_kept
    | with_reducible apply deferAccess_kept
    | with_reducible apply ite_kept

theorem addRetired_kept (u : RetUnit) (s : State) {b0 : State} (h0s : Kept b0 s) : Kept b0 (addRetired u s) := by
  dsimp only [addRetired]
  repeat' first
    | with_reducible assumption
    | intro _
    | with_reducible apply raise_kept
    | with_reducible apply ite_kept
    | split
    | (refine Kept.lit rfl rfl rfl rfl rfl rfl ?_)
    | (refine Kept.litMem rfl rfl rfl rfl rfl rfl rfl rfl rfl rfl rfl ?_)

theorem retireFrames_kept (k : Nat) (s : State) {b0 : State} (h0s : Kept b0 s) : Kept b0 (retireFrames k s) := by
  dsimp only [retireFrames]
  repeat' first
    | with_reducible assumption
    | intro _
    | with_reducible apply foldState_kept
    | with_reducible apply modFrame_kept
    | with_reducible apply ite_kept

theorem retireEntry_kept (n : Nat) (s : State) {b0 : State} (h0s : Kept b0 s) : Kept b0 (retireEntry n s) := by
  dsimp only [retireEntry]
  repeat' first
    | with_reducible assumption
    | intro _
    | with_reducible apply setCt_kept

theorem beginMove_kept (k n : Nat) (s : State) {b0 : State} (h0s : Kept b0 s) : Kept b0 (beginMove k n s) := by
  dsimp only [beginMove]
  repeat' first
    | with_reducible assumption
    | intro _
    | with_reducible apply retireEntry_kept
    | with_reducible apply ite_kept
    | split
    | (refine Kept.lit rfl rfl rfl rfl rfl rfl ?_)
    | (refine Kept.litMem rfl rfl rfl rfl rfl rfl rfl rfl rfl rfl rfl ?_)

theorem retireInterleaved_kept (k : Nat) (s : State) {b0 : State} (h0s : Kept b0 s) : Kept b0 (retireInterleaved k s) := by
  dsimp only [retireInterleaved]
  repeat' first
    | with_reducible assumption
    | intro _
    | with_reducible apply addRetired_kept
    | with_reducible apply beginMove_kept
    | with_reducible apply ite_kept
    | split
    | (refine Kept.lit rfl rfl rfl rfl rfl rfl ?_)
    | (refine Kept.litMem rfl rfl rfl rfl rfl rfl rfl rfl rfl rfl rfl ?_)

theorem retireAt_kept (g off : Nat) (s : State) {b0 : State} (h0s : Kept b0 s) : Kept b0 (retireAt g off s) := by
  dsimp only [retireAt]
  repeat' first
    | with_reducible assumption
    | intro _
    | with_reducible apply modFrame_kept
    | with_reducible apply addRetired_kept
    | with_reducible apply retireInterleaved_kept
    | with_reducible apply ite_kept
    | split
    | (refine Kept.lit rfl rfl rfl rfl rfl rfl ?_)
    | (refine Kept.litMem rfl rfl rfl rfl rfl rfl rfl rfl rfl rfl rfl ?_)

theorem eccReadbackEffect_kept (g off : Nat) (data : W64) (check : Byte) (s : State) {b0 : State} (h0s : Kept b0 s) : Kept b0 (eccReadbackEffect g off data check s) := by
  dsimp only [eccReadbackEffect]
  repeat' first
    | with_reducible assumption
    | intro _
    | with_reducible apply foldState_kept
    | with_reducible apply notTaken_kept
    | with_reducible apply loseWord_kept
    | with_reducible apply writeRecordOf_kept
    | with_reducible apply faultAffects_kept
    | with_reducible apply putRaw_kept
    | with_reducible apply retireAt_kept
    | with_reducible apply ite_kept
    | split
    | (refine Kept.lit rfl rfl rfl rfl rfl rfl ?_)
    | (refine Kept.litMem rfl rfl rfl rfl rfl rfl rfl rfl rfl rfl rfl ?_)

theorem moveWord_kept (a b : Nat) (i : Nat) (s : State) {b0 : State} (h0s : Kept b0 s) : Kept b0 (moveWord a b i s) := by
  dsimp only [moveWord]
  repeat' first
    | with_reducible assumption
    | intro _
    | with_reducible apply putWord_kept
    | with_reducible apply putPoison_kept
    | with_reducible apply noteWord_kept
    | with_reducible apply ite_kept

theorem moveWords_kept (chunk target n : Nat) (s : State) {b0 : State} (h0s : Kept b0 s) : Kept b0 (moveWords chunk target n s) := by
  dsimp only [moveWords]
  repeat' first
    | with_reducible assumption
    | intro _
    | with_reducible apply iter_kept
    | with_reducible apply moveWord_kept

theorem endMove_kept (m : ChunkMove) (n : Nat) (s : State) {b0 : State} (h0s : Kept b0 s) : Kept b0 (endMove m n s) := by
  dsimp only [endMove]
  repeat' first
    | with_reducible assumption
    | intro _
    | with_reducible apply setCt_kept
    | with_reducible apply moveWords_kept
    | with_reducible apply ite_kept
    | split
    | (refine Kept.lit rfl rfl rfl rfl rfl rfl ?_)
    | (refine Kept.litMem rfl rfl rfl rfl rfl rfl rfl rfl rfl rfl rfl ?_)

theorem retireMoveCompleteEffect_kept (chunk : Nat) (s : State) {b0 : State} (h0s : Kept b0 s) : Kept b0 (retireMoveCompleteEffect chunk s) := by
  dsimp only [retireMoveCompleteEffect]
  repeat' first
    | with_reducible assumption
    | intro _
    | with_reducible apply notTaken_kept
    | with_reducible apply endMove_kept
    | with_reducible apply ite_kept
    | split

theorem rawBegin_kept (st : Nat) (write read : Bool) (s : State) {b0 : State} (h0s : Kept b0 s) : Kept b0 (rawBegin st write read s) := by
  dsimp only [rawBegin]
  repeat' first
    | with_reducible assumption
    | intro _
    | with_reducible apply modEcc_kept
    | with_reducible apply rawAccess_kept
    | with_reducible apply ite_kept

theorem eccTestRawWriteEffect_kept (st : Nat) (v : W32) (s : State) {b0 : State} (h0s : Kept b0 s) : Kept b0 (eccTestRawWriteEffect st v s) := by
  dsimp only [eccTestRawWriteEffect]
  repeat' first
    | with_reducible assumption
    | intro _
    | with_reducible apply when_kept
    | with_reducible apply rawBegin_kept

theorem eccTestRawReadEffect_kept (st : Nat) (s : State) {b0 : State} (h0s : Kept b0 s) : Kept b0 (eccTestRawReadEffect st s) := by
  dsimp only [eccTestRawReadEffect]
  repeat' first
    | with_reducible assumption
    | intro _
    | with_reducible apply when_kept
    | with_reducible apply rawBegin_kept

theorem farLinkDownEffect_kept (q : Nat) (s : State) {b0 : State} (h0s : Kept b0 s) : Kept b0 (farLinkDownEffect q s) := by
  dsimp only [farLinkDownEffect]
  repeat' first
    | with_reducible assumption
    | intro _
    | with_reducible apply when_kept
    | with_reducible apply modFarPort_kept
    | with_reducible apply faultSettled_kept

theorem farLinkRestoredEffect_kept (q : Nat) (wide : Bool) (s : State) {b0 : State} (h0s : Kept b0 s) : Kept b0 (farLinkRestoredEffect q wide s) := by
  dsimp only [farLinkRestoredEffect]
  repeat' first
    | with_reducible assumption
    | intro _
    | with_reducible apply when_kept
    | with_reducible apply modFarPort_kept
    | with_reducible apply raise_kept
    | with_reducible apply settleFarRecord_kept

theorem farRetrainTimeoutEffect_kept (q : Nat) (s : State) {b0 : State} (h0s : Kept b0 s) : Kept b0 (farRetrainTimeoutEffect q s) := by
  dsimp only [farRetrainTimeoutEffect]
  repeat' first
    | with_reducible assumption
    | intro _
    | with_reducible apply when_kept
    | with_reducible apply modFarPort_kept
    | with_reducible apply settleFarRecord_kept

theorem semSignalEffect_kept (c : Nat) (s : State) {b0 : State} (h0s : Kept b0 s) : Kept b0 (semSignalEffect c s) := by
  dsimp only [semSignalEffect]
  repeat' first
    | with_reducible assumption
    | intro _
    | with_reducible apply notTaken_kept
    | with_reducible apply modCmd_kept
    | with_reducible apply semAdd_kept
    | with_reducible apply finishOk_kept
    | with_reducible apply fail_kept
    | with_reducible apply ite_kept
    | split

theorem semWaitEffect_kept (c : Nat) (s : State) {b0 : State} (h0s : Kept b0 s) : Kept b0 (semWaitEffect c s) := by
  dsimp only [semWaitEffect]
  repeat' first
    | with_reducible assumption
    | intro _
    | with_reducible apply notTaken_kept
    | with_reducible apply modCmd_kept
    | with_reducible apply requestStop_kept
    | with_reducible apply reinherit_kept
    | with_reducible apply semWaitNow_kept2
    | (with_reducible refine semWaitNow_kept (by assumption) ?_)
    | with_reducible apply finishOk_kept
    | with_reducible apply fail_kept
    | with_reducible apply ite_kept
    | split

theorem fenceEffect_kept (c : Nat) (s : State) {b0 : State} (h0s : Kept b0 s) : Kept b0 (fenceEffect c s) := by
  dsimp only [fenceEffect]
  repeat' first
    | with_reducible assumption
    | intro _
    | with_reducible apply notTaken_kept
    | with_reducible apply modCmd_kept
    | with_reducible apply requestStop_kept
    | with_reducible apply finishOk_kept
    | with_reducible apply ite_kept

theorem quotaApply_kept (p kind v : Nat) (s : State) {b0 : State} (h0s : Kept b0 s) : Kept b0 (quotaApply p kind v s) := by
  dsimp only [quotaApply]
  repeat' first
    | with_reducible assumption
    | intro _
    | with_reducible apply modPart_kept

theorem quotaSetEffect_kept (c : Nat) (s : State) {b0 : State} (h0s : Kept b0 s) : Kept b0 (quotaSetEffect c s) := by
  dsimp only [quotaSetEffect]
  repeat' first
    | with_reducible assumption
    | intro _
    | with_reducible apply notTaken_kept
    | with_reducible apply modCmd_kept
    | with_reducible apply finishOk_kept
    | with_reducible apply fail_kept
    | with_reducible apply quotaApply_kept
    | with_reducible apply ite_kept

theorem bwWindowRolloverEffect_kept (st : Nat) (s : State) {b0 : State} (h0s : Kept b0 s) : Kept b0 (bwWindowRolloverEffect st s) := by
  dsimp only [bwWindowRolloverEffect]
  repeat' first
    | with_reducible assumption
    | intro _
    | with_reducible apply foldState_kept
    | with_reducible apply iter_kept
    | with_reducible apply notTaken_kept
    | with_reducible apply modCmd_kept
    | with_reducible apply finishOk_kept
    | with_reducible apply serveWindow_kept
    | with_reducible apply ite_kept
    | split
    | (refine Kept.lit rfl rfl rfl rfl rfl rfl ?_)
    | (refine Kept.litMem rfl rfl rfl rfl rfl rfl rfl rfl rfl rfl rfl ?_)

theorem haltRun_kept (st : Status) (c : Nat) (s : State) {b0 : State} (h0s : Kept b0 s) : Kept b0 (haltRun st c s) := by
  dsimp only [haltRun]
  repeat' first
    | with_reducible assumption
    | intro _
    | with_reducible apply foldState_kept
    | with_reducible apply raise_kept
    | with_reducible apply stopCores_kept
    | with_reducible apply setWaiters_kept

theorem failRun_kept (c i : Nat) (st : Status) (cause : Nat) (s : State) {b0 : State} (h0s : Kept b0 s) : Kept b0 (failRun c i st cause s) := by
  dsimp only [failRun]
  repeat' first
    | with_reducible assumption
    | intro _
    | with_reducible apply settleWaits_kept
    | with_reducible apply finish_kept
    | with_reducible apply haltRun_kept

theorem coreFault_kept (n op pos : Nat) (f : Flt) (s : State) {b0 : State} (h0s : Kept b0 s) : Kept b0 (coreFault n op pos f s) := by
  dsimp only [coreFault]
  repeat' first
    | with_reducible assumption
    | intro _
    | with_reducible apply modCore_kept
    | with_reducible apply failRun_kept

theorem settleRun_kept (c : Nat) (s : State) {b0 : State} (h0s : Kept b0 s) : Kept b0 (settleRun c s) := by
  dsimp only [settleRun]
  repeat' first
    | with_reducible assumption
    | intro _
    | with_reducible apply foldState_kept
    | with_reducible apply modCore_kept
    | with_reducible apply leaveKept_kept
    | with_reducible apply finish_kept
    | with_reducible apply ite_kept

theorem bodyNote_kept (x : Cmd) (host : Bool) (a n : Nat) (s : State) {b0 : State} (h0s : Kept b0 s) : Kept b0 (bodyNote x host a n s) := by
  dsimp only [bodyNote]
  repeat' first
    | with_reducible assumption
    | intro _
    | with_reducible apply devNote_kept
    | with_reducible apply ite_kept

theorem startEntry_kept (c p : Nat) (x : Cmd) (e : CoreEntry) (s : State) {b0 : State} (h0s : Kept b0 s) : Kept b0 (startEntry c p x e s) := by
  dsimp only [startEntry]
  repeat' first
    | with_reducible assumption
    | intro _
    | with_reducible apply modCore_kept
    | with_reducible apply dropAsk_kept
    | with_reducible apply setAside_kept
    | with_reducible apply ite_kept
    | split

theorem runServed_kept (c : Nat) (x : Cmd) (s : State) {b0 : State} (h0s : Kept b0 s) : Kept b0 (runServed c x s) := by
  dsimp only [runServed]
  repeat' first
    | with_reducible assumption
    | intro _
    | with_reducible apply foldState_kept
    | with_reducible apply modCmd_kept
    | with_reducible apply fail_kept
    | with_reducible apply bodyNote_kept
    | with_reducible apply startEntry_kept
    | with_reducible apply ite_kept
    | split

theorem runEffect_kept (c : Nat) (s : State) {b0 : State} (h0s : Kept b0 s) : Kept b0 (runEffect c s) := by
  dsimp only [runEffect]
  repeat' first
    | with_reducible assumption
    | intro _
    | with_reducible apply notTaken_kept
    | with_reducible apply withAccess_kept
    | with_reducible apply runServed_kept
    | with_reducible apply ite_kept

theorem fetchBlock_kept (n k : Nat) (s : State) {b0 : State} (h0s : Kept b0 s) : Kept b0 (fetchBlock n k s) := by
  dsimp only [fetchBlock]
  repeat' first
    | with_reducible assumption
    | intro _
    | with_reducible apply notTaken_kept
    | with_reducible apply modCore_kept
    | with_reducible apply coreFault_kept
    | with_reducible apply bodyNote_kept
    | with_reducible apply ite_kept
    | split

theorem streamFetchEffect_kept (n : Nat) (s : State) {b0 : State} (h0s : Kept b0 s) : Kept b0 (streamFetchEffect n s) := by
  dsimp only [streamFetchEffect]
  repeat' first
    | with_reducible assumption
    | intro _
    | with_reducible apply notTaken_kept
    | with_reducible apply withAccess_kept
    | with_reducible apply coreFault_kept
    | with_reducible apply fetchBlock_kept
    | with_reducible apply ite_kept

theorem retire_kept (n : Nat) (s : State) {b0 : State} (h0s : Kept b0 s) : Kept b0 (retire n s) := by
  dsimp only [retire]
  repeat' first
    | with_reducible assumption
    | intro _
    | with_reducible apply modCore_kept
    | with_reducible apply spendCycles_kept

theorem onWord_kept (n op : Nat) (f : QWord → State → State) (s : State) {b0 : State} (h0s : Kept b0 s) (h_f : ∀ a0 (t : State), Kept b0 t → Kept b0 (f a0 t)) : Kept b0 (onWord n op f s) := by
  dsimp only [onWord]
  repeat' first
    | with_reducible assumption
    | intro _
    | with_reducible apply notTaken_kept
    | with_reducible apply coreFault_kept
    | with_reducible apply h_f
    | with_reducible apply ite_kept
    | split

theorem datapath_kept (n op k : Nat) (step : Nat → Saf → Except Flt Saf) (q : QWord) (s : State) {b0 : State} (h0s : Kept b0 s) : Kept b0 (datapath n op k step q s) := by
  dsimp only [datapath]
  repeat' first
    | with_reducible assumption
    | intro _
    | with_reducible apply modCore_kept
    | with_reducible apply modSpad_kept
    | with_reducible apply coreFault_kept
    | with_reducible apply retire_kept
    | with_reducible apply ite_kept
    | split

theorem nopEffect_kept (n : Nat) (s : State) {b0 : State} (h0s : Kept b0 s) : Kept b0 (nopEffect n s) := by
  dsimp only [nopEffect]
  repeat' first
    | with_reducible assumption
    | intro _
    | with_reducible apply retire_kept
    | with_reducible apply onWord_kept

theorem agSetEffect_kept (n : Nat) (s : State) {b0 : State} (h0s : Kept b0 s) : Kept b0 (agSetEffect n s) := by
  dsimp only [agSetEffect]
  repeat' first
    | with_reducible assumption
    | intro _
    | with_reducible apply modCore_kept
    | with_reducible apply retire_kept
    | with_reducible apply onWord_kept

theorem anchorLoadEffect_kept (n : Nat) (s : State) {b0 : State} (h0s : Kept b0 s) : Kept b0 (anchorLoadEffect n s) := by
  dsimp only [anchorLoadEffect]
  repeat' first
    | with_reducible assumption
    | intro _
    | with_reducible apply onWord_kept
    | with_reducible apply datapath_kept

theorem tileMacEffect_kept (n : Nat) (s : State) {b0 : State} (h0s : Kept b0 s) : Kept b0 (tileMacEffect n s) := by
  dsimp only [tileMacEffect]
  repeat' first
    | with_reducible assumption
    | intro _
    | with_reducible apply onWord_kept
    | with_reducible apply datapath_kept

theorem tileDrainEffect_kept (n : Nat) (s : State) {b0 : State} (h0s : Kept b0 s) : Kept b0 (tileDrainEffect n s) := by
  dsimp only [tileDrainEffect]
  repeat' first
    | with_reducible assumption
    | intro _
    | with_reducible apply onWord_kept
    | with_reducible apply datapath_kept

theorem tileLoadEffect_kept (n : Nat) (s : State) {b0 : State} (h0s : Kept b0 s) : Kept b0 (tileLoadEffect n s) := by
  dsimp only [tileLoadEffect]
  repeat' first
    | with_reducible assumption
    | intro _
    | with_reducible apply onWord_kept
    | with_reducible apply datapath_kept

theorem vecEffect_kept (n : Nat) (s : State) {b0 : State} (h0s : Kept b0 s) : Kept b0 (vecEffect n s) := by
  dsimp only [vecEffect]
  repeat' first
    | with_reducible assumption
    | intro _
    | with_reducible apply onWord_kept
    | with_reducible apply datapath_kept

theorem passSem_kept (n : Nat) (s : State) {b0 : State} (h0s : Kept b0 s) : Kept b0 (passSem n s) := by
  dsimp only [passSem]
  repeat' first
    | with_reducible assumption
    | intro _
    | with_reducible apply modCore_kept
    | with_reducible apply retire_kept

theorem signalWord_kept (n : Nat) (q : QWord) (s : State) {b0 : State} (h0s : Kept b0 s) : Kept b0 (signalWord n q s) := by
  dsimp only [signalWord]
  repeat' first
    | with_reducible assumption
    | intro _
    | with_reducible apply notTaken_kept
    | with_reducible apply noteSemOp_kept
    | with_reducible apply semAdd_kept
    | with_reducible apply passSem_kept
    | with_reducible apply ite_kept
    | split

theorem signalEffect_kept (n : Nat) (s : State) {b0 : State} (h0s : Kept b0 s) : Kept b0 (signalEffect n s) := by
  dsimp only [signalEffect]
  repeat' first
    | with_reducible assumption
    | intro _
    | with_reducible apply onWord_kept
    | with_reducible apply signalWord_kept

theorem waitWord_kept (n : Nat) (q : QWord) (s : State) {b0 : State} (h0s : Kept b0 s) : Kept b0 (waitWord n q s) := by
  dsimp only [waitWord]
  repeat' first
    | with_reducible assumption
    | intro _
    | with_reducible apply notTaken_kept
    | with_reducible apply modCore_kept
    | with_reducible apply reinherit_kept
    | with_reducible apply noteSemOp_kept
    | with_reducible apply semWaitNow_kept2
    | (with_reducible refine semWaitNow_kept (by assumption) ?_)
    | with_reducible apply passSem_kept
    | with_reducible apply ite_kept
    | split

theorem waitEffect_kept (n : Nat) (s : State) {b0 : State} (h0s : Kept b0 s) : Kept b0 (waitEffect n s) := by
  dsimp only [waitEffect]
  repeat' first
    | with_reducible assumption
    | intro _
    | with_reducible apply onWord_kept
    | with_reducible apply waitWord_kept

theorem acquireWord_kept (n : Nat) (q : QWord) (s : State) {b0 : State} (h0s : Kept b0 s) : Kept b0 (acquireWord n q s) := by
  dsimp only [acquireWord]
  repeat' first
    | with_reducible assumption
    | intro _
    | with_reducible apply modCore_kept
    | with_reducible apply retire_kept
    | with_reducible apply ite_kept

theorem acquireEffect_kept (n : Nat) (s : State) {b0 : State} (h0s : Kept b0 s) : Kept b0 (acquireEffect n s) := by
  dsimp only [acquireEffect]
  repeat' first
    | with_reducible assumption
    | intro _
    | with_reducible apply onWord_kept
    | with_reducible apply acquireWord_kept

theorem yieldWord_kept (n : Nat) (s : State) {b0 : State} (h0s : Kept b0 s) : Kept b0 (yieldWord n s) := by
  dsimp only [yieldWord]
  repeat' first
    | with_reducible assumption
    | intro _
    | with_reducible apply coreSuspend_kept
    | with_reducible apply retire_kept
    | with_reducible apply ite_kept

theorem yieldPointEffect_kept (n : Nat) (s : State) {b0 : State} (h0s : Kept b0 s) : Kept b0 (yieldPointEffect n s) := by
  dsimp only [yieldPointEffect]
  repeat' first
    | with_reducible assumption
    | intro _
    | with_reducible apply onWord_kept
    | with_reducible apply yieldWord_kept

theorem jumpWord_kept (n : Nat) (q : QWord) (s : State) {b0 : State} (h0s : Kept b0 s) : Kept b0 (jumpWord n q s) := by
  dsimp only [jumpWord]
  repeat' first
    | with_reducible assumption
    | intro _
    | with_reducible apply modCore_kept
    | with_reducible apply retire_kept

theorem jumpEffect_kept (n : Nat) (s : State) {b0 : State} (h0s : Kept b0 s) : Kept b0 (jumpEffect n s) := by
  dsimp only [jumpEffect]
  repeat' first
    | with_reducible assumption
    | intro _
    | with_reducible apply onWord_kept
    | with_reducible apply jumpWord_kept

theorem endWordDo_kept (n : Nat) (s : State) {b0 : State} (h0s : Kept b0 s) : Kept b0 (endWordDo n s) := by
  dsimp only [endWordDo]
  repeat' first
    | with_reducible assumption
    | intro _
    | with_reducible apply modCore_kept
    | with_reducible apply raise_kept
    | with_reducible apply settleRun_kept
    | with_reducible apply retire_kept

theorem endWordEffect_kept (n : Nat) (s : State) {b0 : State} (h0s : Kept b0 s) : Kept b0 (endWordEffect n s) := by
  dsimp only [endWordEffect]
  repeat' first
    | with_reducible assumption
    | intro _
    | with_reducible apply onWord_kept
    | with_reducible apply endWordDo_kept

theorem reservedWordEffect_kept (n : Nat) (s : State) {b0 : State} (h0s : Kept b0 s) : Kept b0 (reservedWordEffect n s) := by
  dsimp only [reservedWordEffect]
  repeat' first
    | with_reducible assumption
    | intro _
    | with_reducible apply notTaken_kept
    | with_reducible apply coreFault_kept
    | with_reducible apply ite_kept
    | split

theorem partWord_kept (n k : Nat) (s : State) {b0 : State} (h0s : Kept b0 s) : Kept b0 (partWord n k s) := by
  dsimp only [partWord]
  repeat' first
    | with_reducible assumption
    | intro _
    | with_reducible apply modCore_kept
    | with_reducible apply modSpad_kept
    | with_reducible apply spendCycles_kept
    | with_reducible apply coreFault_kept
    | with_reducible apply ite_kept
    | split

theorem yieldGraceExpiredEffect_kept (n : Nat) (s : State) {b0 : State} (h0s : Kept b0 s) : Kept b0 (yieldGraceExpiredEffect n s) := by
  dsimp only [yieldGraceExpiredEffect, draw]
  repeat' first
    | with_reducible assumption
    | intro _
    | with_reducible apply when_kept
    | (with_reducible refine draw_kept (by assumption) ?_)
    | with_reducible apply coreSuspend_kept
    | with_reducible apply partWord_kept
    | with_reducible apply ite_kept
    | split
    | (refine Kept.lit rfl rfl rfl rfl rfl rfl ?_)

theorem coreSaveCompleteEffect_kept (n : Nat) (s : State) {b0 : State} (h0s : Kept b0 s) : Kept b0 (coreSaveCompleteEffect n s) := by
  dsimp only [coreSaveCompleteEffect]
  repeat' first
    | with_reducible assumption
    | intro _
    | with_reducible apply when_kept
    | with_reducible apply modCore_kept

theorem budgetEffect_kept (who : WaitName) (s : State) {b0 : State} (h0s : Kept b0 s) : Kept b0 (budgetEffect who s) := by
  dsimp only [budgetEffect]
  repeat' first
    | with_reducible assumption
    | intro _
    | with_reducible apply notTaken_kept
    | with_reducible apply modCore_kept
    | with_reducible apply wakeJob_kept
    | with_reducible apply settleWaits_kept
    | with_reducible apply fail_kept
    | with_reducible apply setWaiters_kept
    | with_reducible apply failRun_kept
    | with_reducible apply ite_kept
    | split

theorem modIndexSpad_kept (p i : Nat) (g : Space → Space) (s : State) {b0 : State} (h0s : Kept b0 s) : Kept b0 (modIndexSpad p i g s) := by
  dsimp only [modIndexSpad]
  repeat' first
    | with_reducible assumption
    | intro _
    | with_reducible apply modSpad_kept
    | with_reducible apply setAside_kept
    | with_reducible apply ite_kept
    | split

theorem spWrite_kept (x : Cmd) (t : TDesc) (a : Nat) (bs : List Byte) (s : State) {b0 : State} (h0s : Kept b0 s) : Kept b0 (spWrite x t a bs s) := by
  dsimp only [spWrite]
  repeat' first
    | with_reducible assumption
    | intro _
    | with_reducible apply devPut_kept
    | with_reducible apply farPut_kept
    | with_reducible apply hostPut_kept
    | with_reducible apply modIndexSpad_kept
    | with_reducible apply ite_kept
    | split
    | (refine Kept.lit rfl rfl rfl rfl rfl rfl ?_)

theorem spPoison_kept (x : Cmd) (t : TDesc) (a : Nat) (s : State) {b0 : State} (h0s : Kept b0 s) : Kept b0 (spPoison x t a s) := by
  dsimp only [spPoison]
  repeat' first
    | with_reducible assumption
    | intro _
    | with_reducible apply devPoisonSector_kept
    | with_reducible apply farPoisonSector_kept
    | with_reducible apply modIndexSpad_kept
    | with_reducible apply ite_kept
    | split
    | (refine Kept.lit rfl rfl rfl rfl rfl rfl ?_)

theorem spNote_kept (x : Cmd) (t : TDesc) (l : List (Nat × Nat)) (s : State) {b0 : State} (h0s : Kept b0 s) : Kept b0 (spNote x t l s) := by
  dsimp only [spNote]
  repeat' first
    | with_reducible assumption
    | intro _
    | with_reducible apply foldState_kept
    | with_reducible apply countAt_kept
    | with_reducible apply devReport_kept
    | with_reducible apply farNote_kept
    | with_reducible apply ite_kept
    | split

theorem storeOut_kept (x : Cmd) (dst : TDesc) (o : Out) (s : State) {b0 : State} (h0s : Kept b0 s) : Kept b0 (storeOut x dst o s) := by
  dsimp only [storeOut]
  repeat' first
    | with_reducible assumption
    | intro _
    | with_reducible apply foldState_kept
    | with_reducible apply spWrite_kept
    | with_reducible apply spPoison_kept
    | with_reducible apply ite_kept
    | split
    | (refine Kept.lit rfl rfl rfl rfl rfl rfl ?_)

theorem scatterFree_kept (x : Cmd) (dst : TDesc) (items : List Item) (s : State) {b0 : State} (h0s : Kept b0 s) : Kept b0 (scatterFree x dst items s) := by
  dsimp only [scatterFree]
  repeat' first
    | with_reducible assumption
    | intro _
    | with_reducible apply foldState_kept
    | with_reducible apply spWrite_kept
    | with_reducible apply ite_kept
    | split
    | (refine Kept.lit rfl rfl rfl rfl rfl rfl ?_)

theorem noteMover_kept (st : Status) (f : Option SideFlt) (elem bytes : Nat) (s : State) {b0 : State} (h0s : Kept b0 s) : Kept b0 (noteMover st f elem bytes s) := by
  dsimp only [noteMover, draw]
  repeat' first
    | with_reducible assumption
    | intro _
    | (with_reducible refine draw_kept (by assumption) ?_)
    | with_reducible apply modMover_kept
    | with_reducible apply ite_kept
    | split
    | (refine Kept.lit rfl rfl rfl rfl rfl rfl ?_)

theorem failCopy_kept (c : Nat) (f : SideFlt) (elem bytes : Nat) (flags : BitVec 4) (s : State) {b0 : State} (h0s : Kept b0 s) : Kept b0 (failCopy c f elem bytes flags s) := by
  dsimp only [failCopy]
  repeat' first
    | with_reducible assumption
    | intro _
    | with_reducible apply finish_kept
    | with_reducible apply noteMover_kept

theorem noteReads_kept (x : Cmd) (src dst : TDesc) (items kept : List Item) (s : State) {b0 : State} (h0s : Kept b0 s) : Kept b0 (noteReads x src dst items kept s) := by
  dsimp only [noteReads]
  repeat' first
    | with_reducible assumption
    | intro _
    | with_reducible apply spNote_kept
    | with_reducible apply ite_kept

theorem noteDeadPorts_kept (x : Cmd) (dst : TDesc) (items : List Item) (o : Out) (s : State) {b0 : State} (h0s : Kept b0 s) : Kept b0 (noteDeadPorts x dst items o s) := by
  dsimp only [noteDeadPorts]
  repeat' first
    | with_reducible assumption
    | intro _
    | with_reducible apply foldState_kept
    | with_reducible apply settleFarRecord_kept

theorem farFailed_kept (c k : Nat) (x : Cmd) (dst : TDesc) (every : List Item) (flags : BitVec 4) (s : State) {b0 : State} (h0s : Kept b0 s) : Kept b0 (farFailed c k x dst every flags s) := by
  dsimp only [farFailed, draw]
  repeat' first
    | with_reducible assumption
    | intro _
    | (with_reducible refine draw_kept (by assumption) ?_)
    | with_reducible apply scatterFree_kept
    | with_reducible apply failCopy_kept
    | with_reducible apply ite_kept
    | split
    | (refine Kept.lit rfl rfl rfl rfl rfl rfl ?_)

theorem noteIndex_kept (x : Cmd) (d : Sum SideFlt TDesc) (s : State) {b0 : State} (h0s : Kept b0 s) : Kept b0 (noteIndex x d s) := by
  dsimp only [noteIndex]
  repeat' first
    | with_reducible assumption
    | intro _
    | with_reducible apply spNote_kept
    | with_reducible apply ite_kept
    | split

theorem noteIndexes_kept (x : Cmd) (a b : Sum SideFlt TDesc) (st : Status) (s : State) {b0 : State} (h0s : Kept b0 s) : Kept b0 (noteIndexes x a b st s) := by
  dsimp only [noteIndexes]
  repeat' first
    | with_reducible assumption
    | intro _
    | with_reducible apply noteIndex_kept
    | with_reducible apply ite_kept

theorem runCopy_kept (c : Nat) (x : Cmd) (src dst : TDesc) (sidx didx : List Int) (s : State) {b0 : State} (h0s : Kept b0 s) : Kept b0 (runCopy c x src dst sidx didx s) := by
  dsimp only [runCopy]
  repeat' first
    | with_reducible assumption
    | intro _
    | with_reducible apply finish_kept
    | with_reducible apply storeOut_kept
    | with_reducible apply scatterFree_kept
    | with_reducible apply noteMover_kept
    | with_reducible apply failCopy_kept
    | with_reducible apply noteReads_kept
    | with_reducible apply noteDeadPorts_kept
    | with_reducible apply farFailed_kept
    | with_reducible apply ite_kept
    | split

theorem copyData_kept (c : Nat) (x : Cmd) (y : Fetched) (s : State) {b0 : State} (h0s : Kept b0 s) : Kept b0 (copyData c x y s) := by
  dsimp only [copyData]
  repeat' first
    | with_reducible assumption
    | intro _
    | with_reducible apply notTaken_kept
    | with_reducible apply withAccess_kept
    | with_reducible apply failCopy_kept
    | with_reducible apply runCopy_kept
    | with_reducible apply ite_kept

theorem copyStart_kept (c : Nat) (x : Cmd) (s : State) {b0 : State} (h0s : Kept b0 s) : Kept b0 (copyStart c x s) := by
  dsimp only [copyStart]
  repeat' first
    | with_reducible assumption
    | intro _
    | with_reducible apply modCmd_kept
    | with_reducible apply goOn_kept
    | with_reducible apply bodyNote_kept
    | with_reducible apply failCopy_kept
    | with_reducible apply noteIndexes_kept
    | with_reducible apply copyData_kept
    | with_reducible apply ite_kept
    | split

theorem copyEffect_kept (c : Nat) (s : State) {b0 : State} (h0s : Kept b0 s) : Kept b0 (copyEffect c s) := by
  dsimp only [copyEffect]
  repeat' first
    | with_reducible assumption
    | intro _
    | with_reducible apply notTaken_kept
    | with_reducible apply withAccess_kept
    | with_reducible apply copyData_kept
    | with_reducible apply copyStart_kept
    | with_reducible apply ite_kept
    | split

theorem mapLines_kept (f : List CacheLine → List CacheLine) (s : State) {b0 : State} (h0s : Kept b0 s) : Kept b0 (mapLines f s) := by
  dsimp only [mapLines]
  repeat' first
    | with_reducible assumption
    | intro _
    | with_reducible apply ite_kept
    | split
    | (refine Kept.lit rfl rfl rfl rfl rfl rfl ?_)

theorem writeBack_kept (x : CacheLine) (s : State) {b0 : State} (h0s : Kept b0 s) : Kept b0 (writeBack x s) := by
  dsimp only [writeBack]
  repeat' first
    | with_reducible assumption
    | intro _
    | with_reducible apply devPut_kept
    | with_reducible apply farPut_kept
    | with_reducible apply ite_kept
    | split
    | (refine Kept.lit rfl rfl rfl rfl rfl rfl ?_)

theorem flushRange_kept (space p a n : Nat) (s : State) {b0 : State} (h0s : Kept b0 s) : Kept b0 (flushRange space p a n s) := by
  dsimp only [flushRange]
  repeat' first
    | with_reducible assumption
    | intro _
    | with_reducible apply foldState_kept
    | with_reducible apply mapLines_kept
    | with_reducible apply writeBack_kept

theorem invalidateRange_kept (space p a n : Nat) (s : State) {b0 : State} (h0s : Kept b0 s) : Kept b0 (invalidateRange space p a n s) := by
  dsimp only [invalidateRange]
  repeat' first
    | with_reducible assumption
    | intro _
    | with_reducible apply mapLines_kept

theorem runtimeRead_kept (p : Nat) (l : List (Nat × Nat)) (s : State) {b0 : State} (h0s : Kept b0 s) : Kept b0 (runtimeRead p l s) := by
  dsimp only [runtimeRead]
  repeat' first
    | with_reducible assumption
    | intro _
    | with_reducible apply foldState_kept
    | with_reducible apply writeBack_kept
    | with_reducible apply invalidateRange_kept
    | with_reducible apply ite_kept
    | split
    | (refine Kept.lit rfl rfl rfl rfl rfl rfl ?_)

theorem kvErr_kept (st : Status) (cause list entry : Nat) (spec : Bool) (z : Kv) {b0 : State} (h0z : Kept b0 z.s) : Kept b0 (kvErr st cause list entry spec z).s := by
  dsimp only [kvErr]
  repeat' first
    | with_reducible assumption

theorem kvCopyErr_kept (st : Status) (cause list entry : Nat) (z : Kv) {b0 : State} (h0z : Kept b0 z.s) : Kept b0 (kvCopyErr st cause list entry z).s := by
  dsimp only [kvCopyErr]
  repeat' first
    | with_reducible assumption

theorem kvCheck_kept (bad : Bool) (st : Status) (cause list entry : Nat) (z : Kv) {b0 : State} (h0z : Kept b0 z.s) : Kept b0 (kvCheck bad st cause list entry z).s := by
  dsimp only [kvCheck]
  repeat' first
    | with_reducible assumption
    | intro _
    | with_reducible apply kvErr_kept
    | with_reducible apply ite_kept
    | split

theorem kvGet_kept (a n : Nat) (z : Kv) {b0 : State} (h0z : Kept b0 z.s) : Kept b0 (kvGet a n z).2.s := by
  dsimp only [kvGet]
  repeat' first
    | with_reducible assumption

theorem kvGet_kept' {a n : Nat} {z : Kv} {o : (List Byte × Bool)} {z' : Kv} {b0 : State} (e : kvGet a n z = (o, z')) (h0z : Kept b0 z.s) : Kept b0 z'.s := by
  have k := kvGet_kept a n z h0z
  rw [e] at k; exact k

theorem kvCopyNote_kept (z : Kv) (s : State) {b0 : State} (h0z : Kept b0 z.s) (h0s : Kept b0 s) : Kept b0 (kvCopyNote z s) := by
  dsimp only [kvCopyNote]
  repeat' first
    | with_reducible assumption
    | intro _
    | with_reducible apply foldState_kept
    | with_reducible apply devReport_kept
    | with_reducible apply devNote_kept
    | with_reducible apply farNote_kept
    | with_reducible apply noteMoved_kept

theorem kvNote_kept (z : Kv) (s : State) {b0 : State} (h0z : Kept b0 z.s) (h0s : Kept b0 s) : Kept b0 (kvNote z s) := by
  dsimp only [kvNote]
  repeat' first
    | with_reducible assumption
    | intro _
    | with_reducible apply foldState_kept
    | with_reducible apply devNote_kept
    | with_reducible apply runtimeRead_kept
    | with_reducible apply kvCopyNote_kept
    | with_reducible apply ite_kept

theorem kvOpen_kept (a : Nat) (z : Kv) {b0 : State} (h0z : Kept b0 z.s) : Kept b0 (kvOpen a z).2.s := by
  dsimp only [kvOpen]
  repeat' first
    | with_reducible assumption
    | intro _
    | with_reducible apply kvErr_kept
    | with_reducible apply kvCheck_kept
    | with_reducible apply kvGet_kept
    | (with_reducible refine kvGet_kept' (by assumption) ?_)
    | with_reducible apply ite_kept
    | split

theorem kvOpen_kept' {a : Nat} {z : Kv} {o : Option KvRec} {z' : Kv} {b0 : State} (e : kvOpen a z = (o, z')) (h0z : Kept b0 z.s) : Kept b0 z'.s := by
  have k := kvOpen_kept a z h0z
  rw [e] at k; exact k

theorem kvEntry_kept (r : KvRec) (l j : Nat) (spec : Bool) (z : Kv) {b0 : State} (h0z : Kept b0 z.s) : Kept b0 (kvEntry r l j spec z).2.s := by
  dsimp only [kvEntry]
  repeat' first
    | with_reducible assumption
    | intro _
    | with_reducible apply kvErr_kept
    | with_reducible apply kvGet_kept
    | (with_reducible refine kvGet_kept' (by assumption) ?_)
    | with_reducible apply ite_kept
    | split

theorem kvEntry_kept' {r : KvRec} {l j : Nat} {spec : Bool} {z : Kv} {o : Option Int} {z' : Kv} {b0 : State} (e : kvEntry r l j spec z = (o, z')) (h0z : Kept b0 z.s) : Kept b0 z'.s := by
  have k := kvEntry_kept r l j spec z h0z
  rw [e] at k; exact k

theorem kvSetEntry_kept (r : KvRec) (l j : Nat) (spec : Bool) (v : Int) (z : Kv) {b0 : State} (h0z : Kept b0 z.s) : Kept b0 (kvSetEntry r l j spec v z).s := by
  dsimp only [kvSetEntry]
  repeat' first
    | with_reducible assumption
    | intro _
    | with_reducible apply devPut_kept

theorem kvSetHeader_kept (r : KvRec) (o n v : Nat) (z : Kv) {b0 : State} (h0z : Kept b0 z.s) : Kept b0 (kvSetHeader r o n v z).s := by
  dsimp only [kvSetHeader]
  repeat' first
    | with_reducible assumption
    | intro _
    | with_reducible apply devPut_kept

theorem kvFrame_kept (l j : Nat) (spec : Bool) (v : Int) (z : Kv) {b0 : State} (h0z : Kept b0 z.s) : Kept b0 (kvFrame l j spec v z).2.s := by
  dsimp only [kvFrame]
  repeat' first
    | with_reducible assumption
    | intro _
    | with_reducible apply kvErr_kept
    | with_reducible apply ite_kept
    | split

theorem kvFrame_kept' {l j : Nat} {spec : Bool} {v : Int} {z : Kv} {o : Option Nat} {z' : Kv} {b0 : State} (e : kvFrame l j spec v z = (o, z')) (h0z : Kept b0 z.s) : Kept b0 z'.s := by
  have k := kvFrame_kept l j spec v z h0z
  rw [e] at k; exact k

theorem installFrame_kept (r : KvRec) (p fn n : Nat) (x : Frame) (s : State) {b0 : State} (h0s : Kept b0 s) : Kept b0 (installFrame r p fn n x s) := by
  dsimp only [installFrame]
  repeat' first
    | with_reducible assumption
    | intro _
    | with_reducible apply modFrame_kept
    | with_reducible apply wipeRange_kept
    | with_reducible apply ite_kept
    | split
    | (refine Kept.lit rfl rfl rfl rfl rfl rfl ?_)

theorem dropGold_kept (n : Nat) (s : State) {b0 : State} (h0s : Kept b0 s) : Kept b0 (dropGold n s) := by
  dsimp only [dropGold]
  repeat' first
    | with_reducible assumption
    | intro _
    | with_reducible apply ite_kept
    | split
    | (refine Kept.lit rfl rfl rfl rfl rfl rfl ?_)

theorem copyGold_kept (a o b o' k : Nat) (s : State) {b0 : State} (h0s : Kept b0 s) : Kept b0 (copyGold a o b o' k s) := by
  dsimp only [copyGold]
  repeat' first
    | with_reducible assumption
    | intro _
    | with_reducible apply iter_kept
    | with_reducible apply ite_kept
    | split
    | (refine Kept.lit rfl rfl rfl rfl rfl rfl ?_)

theorem setGold_kept (n o : Nat) (bs : List Byte) (s : State) {b0 : State} (h0s : Kept b0 s) : Kept b0 (setGold n o bs s) := by
  dsimp only [setGold]
  repeat' first
    | with_reducible assumption
    | intro _
    | with_reducible apply ite_kept
    | with_reducible apply foldl_verdict
    | with_reducible apply foldl_admit
    | split
    | (refine Kept.lit rfl rfl rfl rfl rfl rfl ?_)

theorem kvTake_kept (r : KvRec) (g l j : Nat) (spec : Bool) (x : Frame) (z : Kv) {b0 : State} (h0z : Kept b0 z.s) : Kept b0 (kvTake r g l j spec x z).2.s := by
  dsimp only [kvTake]
  repeat' first
    | with_reducible assumption
    | intro _
    | with_reducible apply kvErr_kept
    | with_reducible apply installFrame_kept
    | with_reducible apply dropGold_kept
    | with_reducible apply ite_kept
    | split

theorem kvTake_kept' {r : KvRec} {g l j : Nat} {spec : Bool} {x : Frame} {z : Kv} {o : Option (Nat × Nat)} {z' : Kv} {b0 : State} (e : kvTake r g l j spec x z = (o, z')) (h0z : Kept b0 z.s) : Kept b0 z'.s := by
  have k := kvTake_kept r g l j spec x z h0z
  rw [e] at k; exact k

theorem frameRelease_kept (n : Nat) (s : State) {b0 : State} (h0s : Kept b0 s) : Kept b0 (frameRelease n s) := by
  dsimp only [frameRelease]
  repeat' first
    | with_reducible assumption
    | intro _
    | with_reducible apply modFrame_kept

theorem frameTokens_kept (n t : Nat) (s : State) {b0 : State} (h0s : Kept b0 s) : Kept b0 (frameTokens n t s) := by
  dsimp only [frameTokens]
  repeat' first
    | with_reducible assumption
    | intro _
    | with_reducible apply modFrame_kept

theorem kvMover_kept (needed : Bool) (l j : Nat) (z : Kv) {b0 : State} (h0z : Kept b0 z.s) : Kept b0 (kvMover needed l j z).s := by
  dsimp only [kvMover]
  repeat' first
    | with_reducible assumption
    | intro _
    | with_reducible apply kvErr_kept
    | with_reducible apply ite_kept
    | split

theorem kvCopyRows_kept (r : KvRec) (l j : Nat) (v w lo lo' k : Nat) (z : Kv) {b0 : State} (h0z : Kept b0 z.s) : Kept b0 (kvCopyRows r l j v w lo lo' k z).s := by
  dsimp only [kvCopyRows]
  repeat' first
    | with_reducible assumption
    | intro _
    | with_reducible apply devStore_kept
    | with_reducible apply devPut_kept
    | with_reducible apply kvCopyErr_kept
    | with_reducible apply copyGold_kept
    | with_reducible apply kvMover_kept
    | with_reducible apply foldl_kv
    | with_reducible apply ite_kept
    | with_reducible apply foldl_verdict
    | with_reducible apply foldl_admit
    | split

theorem kvImageOk_kept (r : KvRec) (l j : Nat) (z : Kv) {b0 : State} (h0z : Kept b0 z.s) : Kept b0 (kvImageOk r l j z).s := by
  dsimp only [kvImageOk]
  repeat' first
    | with_reducible assumption
    | intro _
    | with_reducible apply kvCheck_kept

theorem kvRecordFault_kept (e : KvFlt) (s : State) {b0 : State} (h0s : Kept b0 s) : Kept b0 (kvRecordFault e s) := by
  dsimp only [kvRecordFault]
  repeat' first
    | with_reducible assumption
    | intro _
    | with_reducible apply ite_kept
    | split
    | (refine Kept.lit rfl rfl rfl rfl rfl rfl ?_)

theorem kvResult_kept (z : Kv) (s : State) {b0 : State} (h0z : Kept b0 z.s) (h0s : Kept b0 s) : Kept b0 (kvResult z s).2 := by
  dsimp only [kvResult]
  repeat' first
    | with_reducible assumption
    | intro _
    | with_reducible apply kvNote_kept
    | with_reducible apply kvRecordFault_kept
    | with_reducible apply ite_kept
    | split

theorem kvResult_kept' {z : Kv} {s : State} {o : Option KvFlt} {t' : State} {b0 : State} (e : kvResult z s = (o, t')) (h0z : Kept b0 z.s) (h0s : Kept b0 s) : Kept b0 t' := by
  have k := kvResult_kept z s h0z h0s
  rw [e] at k; exact k

theorem kvEnd_kept (c : Nat) (z : Kv) (result : Nat) (s : State) {b0 : State} (h0z : Kept b0 z.s) (h0s : Kept b0 s) : Kept b0 (kvEnd c z result s) := by
  dsimp only [kvEnd]
  repeat' first
    | with_reducible assumption
    | intro _
    | with_reducible apply modCmd_kept
    | with_reducible apply finish_kept
    | with_reducible apply finishOk_kept
    | with_reducible apply kvResult_kept
    | (with_reducible refine kvResult_kept' (by assumption) ?_ ?_)
    | with_reducible apply ite_kept
    | split

theorem noteRecords_kept (p : Nat) (l : List Nat) (s : State) {b0 : State} (h0s : Kept b0 s) : Kept b0 (noteRecords p l s) := by
  dsimp only [noteRecords]
  repeat' first
    | with_reducible assumption
    | intro _
    | with_reducible apply modPart_kept

theorem kvWork_kept (f : Cmd → Kv → Kv × Nat) (x : Cmd) (s : State) {b0 : State} (hf : ∀ x z, Kept b0 z.s → Kept b0 (f x z).1.s)
    (h0 : Kept b0 s) : Kept b0 (kvWork f x s).1.s := hf _ _ h0

theorem kvServed_kept (c : Nat) (f : Cmd → Kv → Kv × Nat) (x : Cmd) (s : State) {b0 : State}
    (hf : ∀ x z, Kept b0 z.s → Kept b0 (f x z).1.s) (h0 : Kept b0 s) : Kept b0 (kvServed c f x s) := by
  have h1 : Kept b0 (noteRecords (homeOf s x.fn) (kvNames x) s) := noteRecords_kept _ _ _ h0
  exact kvEnd_kept _ _ _ _ (hf _ _ h1) h1

theorem kvOnce_kept (c cls : Nat) (f : Cmd → Kv → Kv × Nat) (s : State) {b0 : State}
    (hf : ∀ x z, Kept b0 z.s → Kept b0 (f x z).1.s) (h0 : Kept b0 s) : Kept b0 (kvOnce c cls f s) := by
  unfold kvOnce
  dsimp only
  split
  · exact notTaken_kept _ h0
  · split
    · exact finishOk_kept _ _ _ h0
    · exact withAccess_kept _ _ _ _ _ _ h0 (fun t h => kvServed_kept _ _ _ _ hf h)

theorem kvEnd'_kept (r : KvRec) (l : Nat) (z : Kv) {b0 : State} (h0z : Kept b0 z.s) : Kept b0 (kvEnd' r l z).2.s := by
  dsimp only [kvEnd']
  repeat' first
    | with_reducible assumption
    | intro _
    | with_reducible apply iter_kept
    | with_reducible apply kvEntry_kept
    | (with_reducible refine kvEntry_kept' (by assumption) ?_)
    | with_reducible apply iter_kv
    | with_reducible apply iter_kv2

theorem kvEnd'_kept' {r : KvRec} {l : Nat} {z : Kv} {o : Nat} {z' : Kv} {b0 : State} (e : kvEnd' r l z = (o, z')) (h0z : Kept b0 z.s) : Kept b0 z'.s := by
  have k := kvEnd'_kept r l z h0z
  rw [e] at k; exact k

theorem kvFill_kept (r : KvRec) (g l j : Nat) (spec : Bool) (x : Frame) (z : Kv) {b0 : State} (h0z : Kept b0 z.s) : Kept b0 (kvFill r g l j spec x z).2.s := by
  dsimp only [kvFill]
  repeat' first
    | with_reducible assumption
    | intro _
    | with_reducible apply kvSetEntry_kept
    | with_reducible apply kvTake_kept
    | (with_reducible refine kvTake_kept' (by assumption) ?_)
    | with_reducible apply ite_kept
    | split

theorem kvFill_kept' {r : KvRec} {g l j : Nat} {spec : Bool} {x : Frame} {z : Kv} {o : Option (Nat × Nat)} {z' : Kv} {b0 : State} (e : kvFill r g l j spec x z = (o, z')) (h0z : Kept b0 z.s) : Kept b0 z'.s := by
  have k := kvFill_kept r g l j spec x z h0z
  rw [e] at k; exact k

theorem kvAppend_kept (r : KvRec) (q : KvReq) (z : Kv) {b0 : State} (h0z : Kept b0 z.s) : Kept b0 (kvAppend r q z).s := by
  dsimp only [kvAppend]
  repeat' first
    | with_reducible assumption
    | intro _
    | with_reducible apply iter_kept
    | with_reducible apply kvErr_kept
    | with_reducible apply kvEnd'_kept
    | (with_reducible refine kvEnd'_kept' (by assumption) ?_)
    | with_reducible apply kvFill_kept
    | (with_reducible refine kvFill_kept' (by assumption) ?_)
    | with_reducible apply iter_kv
    | with_reducible apply iter_kv2
    | with_reducible apply ite_kept
    | split

theorem kvSpec_kept (r : KvRec) (q : KvReq) (z : Kv) {b0 : State} (h0z : Kept b0 z.s) : Kept b0 (kvSpec r q z).s := by
  dsimp only [kvSpec]
  repeat' first
    | with_reducible assumption
    | intro _
    | with_reducible apply iter_kept
    | with_reducible apply kvErr_kept
    | with_reducible apply kvEntry_kept
    | (with_reducible refine kvEntry_kept' (by assumption) ?_)
    | with_reducible apply kvFill_kept
    | (with_reducible refine kvFill_kept' (by assumption) ?_)
    | with_reducible apply iter_kv
    | with_reducible apply iter_kv2
    | with_reducible apply ite_kept
    | split

theorem kvCow_kept (r : KvRec) (q : KvReq) (z : Kv) {b0 : State} (h0z : Kept b0 z.s) : Kept b0 (kvCow r q z).s := by
  dsimp only [kvCow]
  repeat' first
    | with_reducible assumption
    | intro _
    | with_reducible apply kvEntry_kept
    | (with_reducible refine kvEntry_kept' (by assumption) ?_)
    | with_reducible apply kvFrame_kept
    | (with_reducible refine kvFrame_kept' (by assumption) ?_)
    | with_reducible apply frameRelease_kept
    | with_reducible apply kvCopyRows_kept
    | with_reducible apply kvFill_kept
    | (with_reducible refine kvFill_kept' (by assumption) ?_)
    | with_reducible apply ite_kept
    | split
    | (refine Kept.lit rfl rfl rfl rfl rfl rfl ?_)

theorem kvFillEntry_kept (r : KvRec) (q : KvReq) (j : Nat) (z : Kv) {b0 : State} (h0z : Kept b0 z.s) : Kept b0 (kvFillEntry r q j z).s := by
  dsimp only [kvFillEntry]
  repeat' first
    | with_reducible assumption
    | intro _
    | with_reducible apply devPut_kept
    | with_reducible apply kvErr_kept
    | with_reducible apply kvCopyErr_kept
    | with_reducible apply kvEntry_kept
    | (with_reducible refine kvEntry_kept' (by assumption) ?_)
    | with_reducible apply setGold_kept
    | with_reducible apply kvMover_kept
    | with_reducible apply kvImageOk_kept
    | with_reducible apply kvFill_kept
    | (with_reducible refine kvFill_kept' (by assumption) ?_)
    | with_reducible apply ite_kept
    | split

theorem kvFillAll_kept (r : KvRec) (q : KvReq) (z : Kv) {b0 : State} (h0z : Kept b0 z.s) : Kept b0 (kvFillAll r q z).s := by
  dsimp only [kvFillAll]
  repeat' first
    | with_reducible assumption
    | intro _
    | with_reducible apply iter_kept
    | with_reducible apply kvCheck_kept
    | with_reducible apply kvFillEntry_kept
    | with_reducible apply iter_kv

theorem kvRequest_kept (r : KvRec) (mode : Nat) (z : Kv) (q : KvReq) {b0 : State} (h0z : Kept b0 z.s) : Kept b0 (kvRequest r mode z q).s := by
  dsimp only [kvRequest]
  repeat' first
    | with_reducible assumption
    | intro _
    | with_reducible apply kvErr_kept
    | with_reducible apply kvAppend_kept
    | with_reducible apply kvSpec_kept
    | with_reducible apply kvCow_kept
    | with_reducible apply kvFillAll_kept
    | with_reducible apply ite_kept
    | split

theorem kvRequests_kept (a n : Nat) (z : Kv) {b0 : State} (h0z : Kept b0 z.s) : Kept b0 (kvRequests a n z).2.s := by
  dsimp only [kvRequests]
  repeat' first
    | with_reducible assumption
    | intro _
    | with_reducible apply kvErr_kept
    | with_reducible apply kvCheck_kept
    | with_reducible apply kvGet_kept
    | (with_reducible refine kvGet_kept' (by assumption) ?_)
    | with_reducible apply ite_kept
    | split

theorem kvRequests_kept' {a n : Nat} {z : Kv} {o : (List KvReq × Bool)} {z' : Kv} {b0 : State} (e : kvRequests a n z = (o, z')) (h0z : Kept b0 z.s) : Kept b0 z'.s := by
  have k := kvRequests_kept a n z h0z
  rw [e] at k; exact k

theorem kvJudge_kept (r : Option KvRec) (mode : Nat) (z : Kv) (q : KvReq) {b0 : State} (h0z : Kept b0 z.s) : Kept b0 (kvJudge r mode z q).s := by
  dsimp only [kvJudge]
  repeat' first
    | with_reducible assumption
    | intro _
    | with_reducible apply kvCheck_kept

theorem kvAllocWork_kept (x : Cmd) (z : Kv) {b0 : State} (h0z : Kept b0 z.s) : Kept b0 (kvAllocWork x z).1.s := by
  dsimp only [kvAllocWork]
  repeat' first
    | with_reducible assumption
    | intro _
    | with_reducible apply kvCheck_kept
    | with_reducible apply kvOpen_kept
    | (with_reducible refine kvOpen_kept' (by assumption) ?_)
    | with_reducible apply kvRequest_kept
    | with_reducible apply kvRequests_kept
    | (with_reducible refine kvRequests_kept' (by assumption) ?_)
    | with_reducible apply kvJudge_kept
    | with_reducible apply foldl_kv
    | with_reducible apply ite_kept
    | with_reducible apply foldl_verdict
    | with_reducible apply foldl_admit
    | split

theorem kvAllocWork_kept' {x : Cmd} {z : Kv} {z' : Kv} {o : Nat} {b0 : State} (e : kvAllocWork x z = (z', o)) (h0z : Kept b0 z.s) : Kept b0 z'.s := by
  have k := kvAllocWork_kept x z h0z
  rw [e] at k; exact k

theorem kvAllocEffect_kept (c : Nat) (s : State) {b0 : State} (h0s : Kept b0 s) : Kept b0 (kvAllocEffect c s) := by
  dsimp only [kvAllocEffect]
  repeat' first
    | with_reducible assumption
    | intro _
    | with_reducible apply kvOnce_kept
    | with_reducible apply kvAllocWork_kept

theorem kvAllNone_kept (r : KvRec) (z : Kv) {b0 : State} (h0z : Kept b0 z.s) : Kept b0 (kvAllNone r z).2.s := by
  dsimp only [kvAllNone]
  repeat' first
    | with_reducible assumption
    | intro _
    | with_reducible apply iter_kept
    | with_reducible apply kvEntry_kept
    | (with_reducible refine kvEntry_kept' (by assumption) ?_)
    | with_reducible apply iter_kv
    | with_reducible apply iter_kv2

theorem kvAllNone_kept' {r : KvRec} {z : Kv} {o : Bool} {z' : Kv} {b0 : State} (e : kvAllNone r z = (o, z')) (h0z : Kept b0 z.s) : Kept b0 z'.s := by
  have k := kvAllNone_kept r z h0z
  rw [e] at k; exact k

theorem kvShare_kept (src dst : KvRec) (l j : Nat) (z : Kv) {b0 : State} (h0z : Kept b0 z.s) : Kept b0 (kvShare src dst l j z).s := by
  dsimp only [kvShare]
  repeat' first
    | with_reducible assumption
    | intro _
    | with_reducible apply modFrame_kept
    | with_reducible apply kvErr_kept
    | with_reducible apply kvEntry_kept
    | (with_reducible refine kvEntry_kept' (by assumption) ?_)
    | with_reducible apply kvSetEntry_kept
    | with_reducible apply kvFrame_kept
    | (with_reducible refine kvFrame_kept' (by assumption) ?_)
    | with_reducible apply ite_kept
    | split

theorem kvForkWork_kept (x : Cmd) (z : Kv) {b0 : State} (h0z : Kept b0 z.s) : Kept b0 (kvForkWork x z).1.s := by
  dsimp only [kvForkWork]
  repeat' first
    | with_reducible assumption
    | intro _
    | with_reducible apply iter_kept
    | with_reducible apply kvErr_kept
    | with_reducible apply kvCheck_kept
    | with_reducible apply kvOpen_kept
    | (with_reducible refine kvOpen_kept' (by assumption) ?_)
    | with_reducible apply kvSetHeader_kept
    | with_reducible apply kvAllNone_kept
    | (with_reducible refine kvAllNone_kept' (by assumption) ?_)
    | with_reducible apply kvShare_kept
    | with_reducible apply iter_kv
    | with_reducible apply iter_kv2
    | with_reducible apply ite_kept
    | split

theorem kvForkWork_kept' {x : Cmd} {z : Kv} {z' : Kv} {o : Nat} {b0 : State} (e : kvForkWork x z = (z', o)) (h0z : Kept b0 z.s) : Kept b0 z'.s := by
  have k := kvForkWork_kept x z h0z
  rw [e] at k; exact k

theorem kvForkEffect_kept (c : Nat) (s : State) {b0 : State} (h0s : Kept b0 s) : Kept b0 (kvForkEffect c s) := by
  dsimp only [kvForkEffect]
  repeat' first
    | with_reducible assumption
    | intro _
    | with_reducible apply kvOnce_kept
    | with_reducible apply kvForkWork_kept

theorem kvSpecFrames_kept (r : KvRec) (l : Nat) (z : Kv) {b0 : State} (h0z : Kept b0 z.s) : Kept b0 (kvSpecFrames r l z).2.s := by
  dsimp only [kvSpecFrames]
  repeat' first
    | with_reducible assumption
    | intro _
    | with_reducible apply iter_kept
    | with_reducible apply kvErr_kept
    | with_reducible apply kvEntry_kept
    | (with_reducible refine kvEntry_kept' (by assumption) ?_)
    | with_reducible apply kvFrame_kept
    | (with_reducible refine kvFrame_kept' (by assumption) ?_)
    | with_reducible apply iter_kv
    | with_reducible apply iter_kv2
    | with_reducible apply ite_kept
    | split

theorem kvSpecFrames_kept' {r : KvRec} {l : Nat} {z : Kv} {o : List (Nat × Nat)} {z' : Kv} {b0 : State} (e : kvSpecFrames r l z = (o, z')) (h0z : Kept b0 z.s) : Kept b0 z'.s := by
  have k := kvSpecFrames_kept r l z h0z
  rw [e] at k; exact k

theorem kvCommitNode_kept (copy : Bool) (r : KvRec) (l : Nat) (spec : List (Nat × Nat)) (node t : Nat) (z : Kv) {b0 : State} (h0z : Kept b0 z.s) : Kept b0 (kvCommitNode copy r l spec node t z).s := by
  dsimp only [kvCommitNode]
  repeat' first
    | with_reducible assumption
    | intro _
    | with_reducible apply kvErr_kept
    | with_reducible apply kvCheck_kept
    | with_reducible apply kvEntry_kept
    | (with_reducible refine kvEntry_kept' (by assumption) ?_)
    | with_reducible apply kvFrame_kept
    | (with_reducible refine kvFrame_kept' (by assumption) ?_)
    | with_reducible apply frameTokens_kept
    | with_reducible apply kvCopyRows_kept
    | with_reducible apply ite_kept
    | split

theorem kvDropSpec_kept (r : KvRec) (l : Nat) (z : Kv) {b0 : State} (h0z : Kept b0 z.s) : Kept b0 (kvDropSpec r l z).s := by
  dsimp only [kvDropSpec]
  repeat' first
    | with_reducible assumption
    | intro _
    | with_reducible apply iter_kept
    | with_reducible apply kvSetEntry_kept
    | with_reducible apply frameRelease_kept
    | with_reducible apply kvSpecFrames_kept
    | (with_reducible refine kvSpecFrames_kept' (by assumption) ?_)
    | with_reducible apply foldl_kv
    | with_reducible apply iter_kv

theorem kvCommitOn_kept (copy : Bool) (r : KvRec) (path : List Nat) (keep : Bool) (z : Kv) {b0 : State} (h0z : Kept b0 z.s) : Kept b0 (kvCommitOn copy r path keep z).s := by
  dsimp only [kvCommitOn]
  repeat' first
    | with_reducible assumption
    | intro _
    | with_reducible apply iter_kept
    | with_reducible apply kvSetHeader_kept
    | with_reducible apply kvSpecFrames_kept
    | (with_reducible refine kvSpecFrames_kept' (by assumption) ?_)
    | with_reducible apply kvCommitNode_kept
    | with_reducible apply kvDropSpec_kept
    | with_reducible apply foldl_kv
    | with_reducible apply iter_kv
    | with_reducible apply iter_kv2
    | with_reducible apply ite_kept
    | with_reducible apply foldl_verdict
    | with_reducible apply foldl_admit
    | split

theorem kvCommitWork_kept (x : Cmd) (z : Kv) {b0 : State} (h0z : Kept b0 z.s) : Kept b0 (kvCommitWork x z).1.s := by
  dsimp only [kvCommitWork]
  repeat' first
    | with_reducible assumption
    | intro _
    | with_reducible apply kvCheck_kept
    | with_reducible apply kvOpen_kept
    | (with_reducible refine kvOpen_kept' (by assumption) ?_)
    | with_reducible apply kvCommitOn_kept
    | with_reducible apply ite_kept
    | split

theorem kvCommitWork_kept' {x : Cmd} {z : Kv} {z' : Kv} {o : Nat} {b0 : State} (e : kvCommitWork x z = (z', o)) (h0z : Kept b0 z.s) : Kept b0 z'.s := by
  have k := kvCommitWork_kept x z h0z
  rw [e] at k; exact k

theorem kvCommitEffect_kept (c : Nat) (s : State) {b0 : State} (h0s : Kept b0 s) : Kept b0 (kvCommitEffect c s) := by
  dsimp only [kvCommitEffect]
  repeat' first
    | with_reducible assumption
    | intro _
    | with_reducible apply kvOnce_kept
    | with_reducible apply kvCommitWork_kept

theorem kvDropEntry_kept (r : KvRec) (l j : Nat) (z : Kv) {b0 : State} (h0z : Kept b0 z.s) : Kept b0 (kvDropEntry r l j z).s := by
  dsimp only [kvDropEntry]
  repeat' first
    | with_reducible assumption
    | intro _
    | with_reducible apply kvEntry_kept
    | (with_reducible refine kvEntry_kept' (by assumption) ?_)
    | with_reducible apply kvSetEntry_kept
    | with_reducible apply kvFrame_kept
    | (with_reducible refine kvFrame_kept' (by assumption) ?_)
    | with_reducible apply frameRelease_kept
    | with_reducible apply ite_kept
    | split

theorem kvTrimTail_kept (r : KvRec) (l ntok : Nat) (z : Kv) {b0 : State} (h0z : Kept b0 z.s) : Kept b0 (kvTrimTail r l ntok z).s := by
  dsimp only [kvTrimTail]
  repeat' first
    | with_reducible assumption
    | intro _
    | with_reducible apply kvEntry_kept
    | (with_reducible refine kvEntry_kept' (by assumption) ?_)
    | with_reducible apply kvFrame_kept
    | (with_reducible refine kvFrame_kept' (by assumption) ?_)
    | with_reducible apply frameTokens_kept
    | with_reducible apply ite_kept
    | split

theorem kvSpillEntry_kept (r : KvRec) (l j : Nat) (z : Kv) {b0 : State} (h0z : Kept b0 z.s) : Kept b0 (kvSpillEntry r l j z).s := by
  dsimp only [kvSpillEntry]
  repeat' first
    | with_reducible assumption
    | intro _
    | with_reducible apply farPut_kept
    | with_reducible apply kvCopyErr_kept
    | with_reducible apply kvEntry_kept
    | (with_reducible refine kvEntry_kept' (by assumption) ?_)
    | with_reducible apply kvSetEntry_kept
    | with_reducible apply kvFrame_kept
    | (with_reducible refine kvFrame_kept' (by assumption) ?_)
    | with_reducible apply frameRelease_kept
    | with_reducible apply kvMover_kept
    | with_reducible apply kvImageOk_kept
    | with_reducible apply ite_kept
    | split

theorem kvFreeLists_kept (r : KvRec) (ntok : Nat) (spill : Bool) (z : Kv) {b0 : State} (h0z : Kept b0 z.s) : Kept b0 (kvFreeLists r ntok spill z).s := by
  dsimp only [kvFreeLists]
  repeat' first
    | with_reducible assumption
    | intro _
    | with_reducible apply iter_kept
    | with_reducible apply kvSetHeader_kept
    | with_reducible apply kvDropSpec_kept
    | with_reducible apply kvDropEntry_kept
    | with_reducible apply kvTrimTail_kept
    | with_reducible apply kvSpillEntry_kept
    | with_reducible apply iter_kv
    | with_reducible apply iter_kv2
    | with_reducible apply ite_kept
    | split

theorem kvFreeOn_kept (a ntok : Nat) (spill : Bool) (z : Kv) {b0 : State} (h0z : Kept b0 z.s) : Kept b0 (kvFreeOn a ntok spill z).s := by
  dsimp only [kvFreeOn]
  repeat' first
    | with_reducible assumption
    | intro _
    | with_reducible apply kvErr_kept
    | with_reducible apply kvCheck_kept
    | with_reducible apply kvOpen_kept
    | (with_reducible refine kvOpen_kept' (by assumption) ?_)
    | with_reducible apply kvFreeLists_kept
    | with_reducible apply ite_kept
    | split

theorem forgetNamed_kept (p a : Nat) (s : State) {b0 : State} (h0s : Kept b0 s) : Kept b0 (forgetNamed p a s) := by
  dsimp only [forgetNamed]
  repeat' first
    | with_reducible assumption
    | intro _
    | with_reducible apply modPart_kept

theorem kvFreeWork_kept (x : Cmd) (z : Kv) {b0 : State} (h0z : Kept b0 z.s) : Kept b0 (kvFreeWork x z).1.s := by
  dsimp only [kvFreeWork]
  repeat' first
    | with_reducible assumption
    | intro _
    | with_reducible apply kvFreeOn_kept
    | with_reducible apply forgetNamed_kept
    | with_reducible apply ite_kept
    | split

theorem kvFreeWork_kept' {x : Cmd} {z : Kv} {z' : Kv} {o : Nat} {b0 : State} (e : kvFreeWork x z = (z', o)) (h0z : Kept b0 z.s) : Kept b0 z'.s := by
  have k := kvFreeWork_kept x z h0z
  rw [e] at k; exact k

theorem kvFreeEffect_kept (c : Nat) (s : State) {b0 : State} (h0s : Kept b0 s) : Kept b0 (kvFreeEffect c s) := by
  dsimp only [kvFreeEffect]
  repeat' first
    | with_reducible assumption
    | intro _
    | with_reducible apply kvOnce_kept
    | with_reducible apply kvFreeWork_kept

theorem setAdapter_kept (p i : Nat) (a : AdapterSlot) (s : State) {b0 : State} (h0s : Kept b0 s) : Kept b0 (setAdapter p i a s) := by
  dsimp only [setAdapter]
  repeat' first
    | with_reducible assumption
    | intro _
    | with_reducible apply modPart_kept

theorem evictSlot_kept (p i : Nat) (s : State) {b0 : State} (h0s : Kept b0 s) : Kept b0 (evictSlot p i s) := by
  dsimp only [evictSlot]
  repeat' first
    | with_reducible assumption
    | intro _
    | with_reducible apply setAdapter_kept

theorem makeRoom_kept (p n : Nat) (busy : List Nat) (keep : Nat → Bool) : ∀ (k : Nat) (s : State) {b0 t : State} {o : Nat},
    makeRoom p n busy keep k s = some (o, t) → Kept b0 s → Kept b0 t := by
  intro k
  induction k with
  | zero =>
    intro s b0 t o e h
    simp only [makeRoom, Option.map_eq_some_iff] at e
    obtain ⟨a, _, e⟩ := e; cases e; exact h
  | succ k ih =>
    intro s b0 t o e h
    unfold makeRoom at e
    split at e
    · cases e; exact h
    · split at e
      · cases e
      · exact ih _ e (evictSlot_kept _ _ _ h)

theorem chooseSlot_kept {s t b0 : State} {p slot i : Nat} {busy : List Nat} (e : chooseSlot s p slot busy = .inr (i, t)) (h0 : Kept b0 s) :
    Kept b0 t := by
  unfold chooseSlot at e
  dsimp only at e
  repeat' split at e
  all_goals cases e
  all_goals first | exact h0 | exact evictSlot_kept _ _ _ h0

theorem touchSlot_kept (p i : Nat) (s : State) {b0 : State} (h0s : Kept b0 s) : Kept b0 (touchSlot p i s) := by
  dsimp only [touchSlot]
  repeat' first
    | with_reducible assumption
    | intro _
    | with_reducible apply modPart_kept

theorem loadFactor_kept (x : Cmd) (e : DirEntry) (off a k c : Nat) (z : State × Bool) {b0 : State} (h0 : Kept b0 z.1) :
    Kept b0 (loadFactor x e off a k c z).1 := storeOut_kept _ _ _ _ (noteMoved_kept _ _ (noteReads_kept _ _ _ _ _ _ h0))

theorem loadTargets_kept (x : Cmd) (e : DirEntry) : ∀ (l : List Target) (a : Nat) (z : State × Bool) {b0 : State}, Kept b0 z.1 →
    Kept b0 (loadTargets x e l a z).1 := by
  intro l
  induction l with
  | nil => intro a z b0 h; exact h
  | cons t l ih => intro a z b0 h; exact ih _ _ (loadFactor_kept _ _ _ _ _ _ _ (loadFactor_kept _ _ _ _ _ _ _ h))

theorem loadInto_kept {x : Cmd} {p dir i j : Nat} {pin : Bool} {busy : List Nat} {y : DirEntry} {ts : List Target} {s t b0 : State}
    (e : loadInto x p dir pin busy y ts i s = .inr (j, t)) (h0 : Kept b0 s) : Kept b0 t := by
  unfold loadInto at e
  generalize h2 : makeRoom p (adapterBytes y ts) busy (fun k => k != i) ((partOf s p).adapters.length + 1) s = m at e
  cases m with
  | none => cases e
  | some m =>
    obtain ⟨o, s2⟩ := m
    dsimp only at e
    split at e
    · cases e
    · injection e with e; injection e with e1 e2; subst e2
      exact touchSlot_kept _ _ _ (setAdapter_kept _ _ _ _ (loadTargets_kept _ _ _ _ _ (farNote_kept _ _ _ _ (farNote_kept _ _ _ _
        (makeRoom_kept _ _ _ _ _ _ h2 h0)))))

theorem loadAdapter_kept {x : Cmd} {p dir slot i : Nat} {pin : Bool} {busy : List Nat} {s t b0 : State}
    (e : loadAdapter x p dir slot pin busy s = .inr (i, t)) (h0 : Kept b0 s) : Kept b0 t := by
  unfold loadAdapter at e
  generalize loadFault s p dir slot = f at e
  generalize h1 : chooseSlot s p slot busy = c at e
  cases f with
  | some f => cases e
  | none =>
    cases c with
    | inl c => cases e
    | inr c =>
      obtain ⟨j, s1⟩ := c
      exact loadInto_kept e (chooseSlot_kept h1 h0)

theorem loadNote_kept (p dir : Nat) (st : Status) (s : State) {b0 : State} (h0 : Kept b0 s) : Kept b0 (loadNote p dir st s) := by
  unfold loadNote
  generalize dirRead s p dir = d
  obtain ⟨d, bad⟩ := d
  split
  · exact h0
  · dsimp only
    split
    · exact farNote_kept _ _ _ _ h0
    · generalize imageTargets s p d = r
      obtain ⟨o, ts, bi⟩ := r
      dsimp only
      split
      · exact farNote_kept _ _ _ _ (farNote_kept _ _ _ _ h0)
      · exact foldState_kept _ _ (fun _ _ h => farNote_kept _ _ _ _ (farNote_kept _ _ _ _ h)) (farNote_kept _ _ _ _ (farNote_kept _ _ _ _ h0))

theorem adapterLoadEffect_kept (c : Nat) (s : State) {b0 : State} (h0s : Kept b0 s) : Kept b0 (adapterLoadEffect c s) := by
  dsimp only [adapterLoadEffect]
  repeat' first
    | with_reducible assumption
    | intro _
    | with_reducible apply notTaken_kept
    | with_reducible apply withAccess_kept
    | with_reducible apply finishOk_kept
    | with_reducible apply fail_kept
    | with_reducible apply setAdapter_kept
    | (with_reducible refine loadAdapter_kept (by assumption) ?_)
    | with_reducible apply loadNote_kept
    | with_reducible apply ite_kept
    | split

theorem adapterEvictEffect_kept (c : Nat) (s : State) {b0 : State} (h0s : Kept b0 s) : Kept b0 (adapterEvictEffect c s) := by
  dsimp only [adapterEvictEffect]
  repeat' first
    | with_reducible assumption
    | intro _
    | with_reducible apply notTaken_kept
    | with_reducible apply finishOk_kept
    | with_reducible apply evictSlot_kept
    | with_reducible apply ite_kept
    | split

theorem storeChunks_kept (p : Nat) : ∀ (l : List Nat) (bs : List Byte) (s : State) {b0 : State}, Kept b0 s → Kept b0 (storeChunks p l bs s) := by
  intro l
  induction l with
  | nil => intro bs s b0 h; exact h
  | cons c l ih => intro bs s b0 h; exact ih _ _ (devPut_kept _ _ _ _ h)

theorem setModel_kept (p slot : Nat) (m : ModelSlot) (s : State) {b0 : State} (h0s : Kept b0 s) : Kept b0 (setModel p slot m s) := by
  dsimp only [setModel]
  repeat' first
    | with_reducible assumption
    | intro _
    | with_reducible apply modPart_kept

theorem storeModel_kept (c p slot image : Nat) (m : ModelSlot) (ss : List Section) (a b : List Nat) (s : State) {b0 : State} (h0s : Kept b0 s) : Kept b0 (storeModel c p slot image m ss a b s) := by
  dsimp only [storeModel]
  repeat' first
    | with_reducible assumption
    | intro _
    | with_reducible apply foldState_kept
    | with_reducible apply farNote_kept
    | with_reducible apply noteMoved_kept
    | with_reducible apply finishOk_kept
    | with_reducible apply fail_kept
    | with_reducible apply storeChunks_kept
    | with_reducible apply setModel_kept
    | with_reducible apply ite_kept

theorem endSwap_kept (c p slot image : Nat) (m : ModelSlot) (ss : List Section) (e : Option Flt) (a b : Option (List Nat)) (s : State) {b0 : State} (h0s : Kept b0 s) : Kept b0 (endSwap c p slot image m ss e a b s) := by
  dsimp only [endSwap]
  repeat' first
    | with_reducible assumption
    | intro _
    | with_reducible apply fail_kept
    | with_reducible apply storeModel_kept
    | with_reducible apply ite_kept
    | split

theorem swapServed_kept (c : Nat) (x : Cmd) (s : State) {b0 : State} (h0 : Kept b0 s) : Kept b0 (swapServed c x s) := by
  unfold swapServed
  dsimp only
  generalize modelRead s (homeOf s x.fn) (field x 8 8) (field x 16 8) = r
  obtain ⟨ok, m, ss, bad⟩ := r
  dsimp only
  exact endSwap_kept _ _ _ _ _ _ _ _ _ _ (ite_kept (farNote_kept _ _ _ _ h0) h0)

theorem modelSwapEffect_kept (c : Nat) (s : State) {b0 : State} (h0s : Kept b0 s) : Kept b0 (modelSwapEffect c s) := by
  dsimp only [modelSwapEffect]
  repeat' first
    | with_reducible assumption
    | intro _
    | with_reducible apply notTaken_kept
    | with_reducible apply withAccess_kept
    | with_reducible apply fail_kept
    | with_reducible apply swapServed_kept
    | with_reducible apply ite_kept

theorem bootImages_kept (s : State) {b0 : State} (h0s : Kept b0 s) : Kept b0 (bootImages s) := by
  dsimp only [bootImages]
  repeat' first
    | with_reducible assumption
    | intro _
    | with_reducible apply iter_kept
    | with_reducible apply ite_kept
    | split
    | (refine Kept.lit rfl rfl rfl rfl rfl rfl ?_)

theorem claimResult_kept (st id : Nat) (s : State) {b0 : State} (h0s : Kept b0 s) : Kept b0 (claimResult st id s) := by
  dsimp only [claimResult]
  repeat' first
    | with_reducible assumption
    | intro _
    | (show Kept _ _; assumption)
    | with_reducible apply ite_kept
    | split
    | (refine Kept.lit rfl rfl rfl rfl rfl rfl ?_)

theorem clmClaimEffect_kept (v : W32) (s : State) {b0 : State} (h0s : Kept b0 s) : Kept b0 (clmClaimEffect v s) := by
  dsimp only [clmClaimEffect]
  repeat' first
    | with_reducible assumption
    | intro _
    | (show Kept _ _; assumption)
    | with_reducible apply notTaken_kept
    | with_reducible apply setClaim_kept
    | with_reducible apply badAccess_kept
    | with_reducible apply claimResult_kept
    | with_reducible apply ite_kept
    | split

theorem clmReleaseEffect_kept (v : W32) (s : State) {b0 : State} (h0s : Kept b0 s) : Kept b0 (clmReleaseEffect v s) := by
  dsimp only [clmReleaseEffect]
  repeat' first
    | with_reducible assumption
    | intro _
    | (show Kept _ _; assumption)
    | with_reducible apply notTaken_kept
    | with_reducible apply setClaim_kept
    | with_reducible apply badAccess_kept
    | with_reducible apply claimResult_kept
    | with_reducible apply ite_kept

theorem smbusRead_kept (code : Nat) (bytes : Nat → List Byte) (s : State) {b0 : State} (h0s : Kept b0 s) : Kept b0 (smbusRead code bytes s) := by
  dsimp only [smbusRead]
  repeat' first
    | with_reducible assumption
    | intro _
    | with_reducible apply setReply_kept
    | with_reducible apply ite_kept
    | split

theorem smbusReadByteEffect_kept (code : Nat) (s : State) {b0 : State} (h0s : Kept b0 s) : Kept b0 (smbusReadByteEffect code s) := by
  dsimp only [smbusReadByteEffect]
  repeat' first
    | with_reducible assumption
    | intro _
    | with_reducible apply smbusRead_kept

theorem smbusReadWordEffect_kept (code : Nat) (s : State) {b0 : State} (h0s : Kept b0 s) : Kept b0 (smbusReadWordEffect code s) := by
  dsimp only [smbusReadWordEffect]
  repeat' first
    | with_reducible assumption
    | intro _
    | with_reducible apply smbusRead_kept

theorem smbusBlockReadEffect_kept (code : Nat) (s : State) {b0 : State} (h0s : Kept b0 s) : Kept b0 (smbusBlockReadEffect code s) := by
  dsimp only [smbusBlockReadEffect]
  repeat' first
    | with_reducible assumption
    | intro _
    | with_reducible apply smbusRead_kept

theorem setProg_kept (g : Nat) (q : CloveProg) (s : State) {b0 : State} (h0s : Kept b0 s) : Kept b0 (setProg g q s) := by
  dsimp only [setProg]
  repeat' first
    | with_reducible assumption
    | intro _
    | with_reducible apply modClove_kept

theorem cloveFault_kept (g : Nat) (q : CloveProg) (f : Flt) (s : State) {b0 : State} (h0s : Kept b0 s) : Kept b0 (cloveFault g q f s) := by
  dsimp only [cloveFault]
  repeat' first
    | with_reducible assumption
    | intro _
    | with_reducible apply modClove_kept
    | with_reducible apply discardPrograms_kept
    | with_reducible apply finish_kept

theorem takeSector_kept2 (g k : Nat) (s : State) (q : CloveProg) {b0 : State} (h0 : Kept b0 s) : Kept b0 (takeSector g k s q).1 := by
  unfold takeSector
  split
  · exact h0
  · exact lostTo_kept _ _ (readSectorNote_kept _ _ _ _ h0)

theorem takeSector_kept {g k : Nat} {s t b0 : State} {q q' : CloveProg} (e : takeSector g k s q = (t, q')) (h0 : Kept b0 s) : Kept b0 t := by
  have h := takeSector_kept2 g k s q h0
  rw [e] at h
  exact h

theorem cloveStore_kept (g off lo : Nat) (bs : List Byte) (poison : Bool) (z : State × CloveProg) {b0 : State} (h0 : Kept b0 z.1) :
    Kept b0 (cloveStore g off lo bs poison z).1 := by
  unfold cloveStore
  dsimp only
  repeat' split
  all_goals
    refine noteWrote_kept _ _ _ _ _ ?_
    first | exact writeWordPoison_kept _ _ _ _ _ h0 | exact writeWord_kept _ _ _ _ _ h0

theorem retireInstr_kept {q q' : CloveProg} {s t b0 : State} (e : retireInstr q s = (t, q')) (h0 : Kept b0 s) : Kept b0 t := by
  cases e; exact .lit rfl rfl rfl rfl rfl rfl h0

theorem retireInstr_kept2 (q : CloveProg) (s : State) {b0 : State} (h0 : Kept b0 s) : Kept b0 (retireInstr q s).1 := retireInstr_kept (q := q) rfl h0

theorem savePut_kept (g off : Nat) (bs : List Byte) (s : State) {b0 : State} (h0s : Kept b0 s) : Kept b0 (savePut g off bs s) := by
  dsimp only [savePut]
  repeat' first
    | with_reducible assumption
    | intro _
    | with_reducible apply foldState_kept
    | with_reducible apply writeWord_kept

theorem writeSave_kept (g live : Nat) (accs : Bool) (q : CloveProg) (s : State) {b0 : State} (h0s : Kept b0 s) : Kept b0 (writeSave g live accs q s) := by
  dsimp only [writeSave]
  repeat' first
    | with_reducible assumption
    | intro _
    | with_reducible apply savePut_kept
    | with_reducible apply ite_kept
    | split
    | (refine Kept.lit rfl rfl rfl rfl rfl rfl ?_)

theorem switchOut_kept (g live : Nat) (accs hold : Bool) (q : CloveProg) (s : State) {b0 : State} (h0s : Kept b0 s) : Kept b0 (switchOut g live accs hold q s) := by
  dsimp only [switchOut]
  repeat' first
    | with_reducible assumption
    | intro _
    | with_reducible apply modClove_kept
    | with_reducible apply switchIn_kept
    | with_reducible apply writeSave_kept

theorem yieldPoint_kept (g live : Nat) (accs : Bool) (s : State) {b0 : State} (h0s : Kept b0 s) : Kept b0 (yieldPoint g live accs s) := by
  dsimp only [yieldPoint]
  repeat' first
    | with_reducible assumption
    | intro _
    | with_reducible apply serveDeferred_kept
    | with_reducible apply switchOut_kept
    | with_reducible apply ite_kept
    | split

theorem forcedYield_kept (g : Nat) (s : State) {b0 : State} (h0s : Kept b0 s) : Kept b0 (forcedYield g s) := by
  dsimp only [forcedYield]
  repeat' first
    | with_reducible assumption
    | intro _
    | with_reducible apply modClove_kept
    | with_reducible apply yieldPoint_kept

theorem boundary_kept (g : Nat) (s : State) {b0 : State} (h0s : Kept b0 s) : Kept b0 (boundary g s) := by
  dsimp only [boundary]
  repeat' first
    | with_reducible assumption
    | intro _
    | with_reducible apply forcedYield_kept
    | with_reducible apply ite_kept

theorem cloveDo_kept (g : Nat) (row : Nat → Bool) (f : Nat → CloveProg → State → Except Flt (State × CloveProg)) (s : State) {b0 : State}
    (hf : ∀ w q s t q', f w q s = .ok (t, q') → Kept b0 s → Kept b0 t) (h0 : Kept b0 s) : Kept b0 (cloveDo g row f s) := by
  unfold cloveDo
  split
  · exact notTaken_kept _ h0
  · split
    · exact notTaken_kept _ h0
    · split
      · exact notTaken_kept _ h0
      · split
        · exact notTaken_kept _ h0
        · split
          · exact cloveFault_kept _ _ _ _ h0
          · rename_i e
            split
            · exact setProg_kept _ _ _ (hf _ _ _ _ _ e h0)
            · exact boundary_kept _ _ (setProg_kept _ _ _ (.lit rfl rfl rfl rfl rfl rfl (hf _ _ _ _ _ e h0)))

theorem clovePure_kept (g : Nat) (row : Nat → Bool) (f : Nat → CloveProg → Except Flt CloveProg) (s : State) {b0 : State} (h0 : Kept b0 s) :
    Kept b0 (clovePure g row f s) :=
  cloveDo_kept _ _ _ _ (by intro w q u t q' e h; split at e <;> cases e; exact h) h0

theorem poisonLast_ok {α : Type} {b : Bool} {r : Except Flt α} {z : α} (e : poisonLast b r = .ok z) : r = .ok z := by
  unfold poisonLast at e
  repeat' split at e
  all_goals first | exact e | cases e

theorem scalarLoad_kept {g w : Nat} {q q' : CloveProg} {s t b0 : State} (e : scalarLoad g w q s = .ok (t, q')) (h0 : Kept b0 s) : Kept b0 t := by
  unfold scalarLoad at e
  dsimp only at e
  split at e
  · cases e
  · replace e := poisonLast_ok e
    split at e
    · cases e
    · split at e
      · cases e; exact h0
      · cases e; exact takeSector_kept rfl h0

theorem scalarStore_kept {g w : Nat} {q q' : CloveProg} {s t b0 : State} (e : scalarStore g w q s = .ok (t, q')) (h0 : Kept b0 s) : Kept b0 t := by
  unfold scalarStore at e
  dsimp only at e
  split at e
  · cases e
  · replace e := poisonLast_ok e
    repeat' split at e
    all_goals first
      | (cases e; done)
      | (cases e; exact h0)
      | (have k := congrArg (fun y => match y with | Except.ok (z : State × CloveProg) => z.1 | .error _ => t) e
         dsimp only at k; rw [← k]; exact cloveStore_kept _ _ _ _ _ _ h0)

theorem scalarExec_kept {g w len : Nat} {q q' : CloveProg} {s t b0 : State} (e : scalarExec g w len q s = .ok (t, q')) (h0 : Kept b0 s) :
    Kept b0 t := by
  unfold scalarExec at e
  split at e
  · cases e
  · split at e
    · exact scalarLoad_kept e h0
    · exact scalarStore_kept e h0
    · split at e
      · cases e
      · cases e; exact h0

theorem cloveScalarInstructionEffect_kept (g : Nat) (s : State) {b0 : State} (h0s : Kept b0 s) : Kept b0 (cloveScalarInstructionEffect g s) := by
  dsimp only [cloveScalarInstructionEffect]
  repeat' first
    | with_reducible assumption
    | intro _
    | with_reducible apply notTaken_kept
    | with_reducible apply cloveFault_kept
    | with_reducible apply cloveDo_kept
    | (with_reducible refine scalarExec_kept (by assumption) ?_)
    | with_reducible apply ite_kept
    | split

theorem cloveCsrWriteEffect_kept (g : Nat) (s : State) {b0 : State} (h0s : Kept b0 s) : Kept b0 (cloveCsrWriteEffect g s) := by
  dsimp only [cloveCsrWriteEffect]
  repeat' first
    | with_reducible assumption
    | intro _
    | with_reducible apply clovePure_kept

theorem bvAddEffect_kept (g : Nat) (s : State) {b0 : State} (h0s : Kept b0 s) : Kept b0 (bvAddEffect g s) := by
  dsimp only [bvAddEffect]
  repeat' first
    | with_reducible assumption
    | intro _
    | with_reducible apply clovePure_kept

theorem bvSubEffect_kept (g : Nat) (s : State) {b0 : State} (h0s : Kept b0 s) : Kept b0 (bvSubEffect g s) := by
  dsimp only [bvSubEffect]
  repeat' first
    | with_reducible assumption
    | intro _
    | with_reducible apply clovePure_kept

theorem bvMulEffect_kept (g : Nat) (s : State) {b0 : State} (h0s : Kept b0 s) : Kept b0 (bvMulEffect g s) := by
  dsimp only [bvMulEffect]
  repeat' first
    | with_reducible assumption
    | intro _
    | with_reducible apply clovePure_kept

theorem bvMaxEffect_kept (g : Nat) (s : State) {b0 : State} (h0s : Kept b0 s) : Kept b0 (bvMaxEffect g s) := by
  dsimp only [bvMaxEffect]
  repeat' first
    | with_reducible assumption
    | intro _
    | with_reducible apply clovePure_kept

theorem bvMinEffect_kept (g : Nat) (s : State) {b0 : State} (h0s : Kept b0 s) : Kept b0 (bvMinEffect g s) := by
  dsimp only [bvMinEffect]
  repeat' first
    | with_reducible assumption
    | intro _
    | with_reducible apply clovePure_kept

theorem bvExp2Effect_kept (g : Nat) (s : State) {b0 : State} (h0s : Kept b0 s) : Kept b0 (bvExp2Effect g s) := by
  dsimp only [bvExp2Effect]
  repeat' first
    | with_reducible assumption
    | intro _
    | with_reducible apply clovePure_kept

theorem bvExp2subEffect_kept (g : Nat) (s : State) {b0 : State} (h0s : Kept b0 s) : Kept b0 (bvExp2subEffect g s) := by
  dsimp only [bvExp2subEffect]
  repeat' first
    | with_reducible assumption
    | intro _
    | with_reducible apply clovePure_kept

theorem bvRcpEffect_kept (g : Nat) (s : State) {b0 : State} (h0s : Kept b0 s) : Kept b0 (bvRcpEffect g s) := by
  dsimp only [bvRcpEffect]
  repeat' first
    | with_reducible assumption
    | intro _
    | with_reducible apply clovePure_kept

theorem bvMix2Effect_kept (g : Nat) (s : State) {b0 : State} (h0s : Kept b0 s) : Kept b0 (bvMix2Effect g s) := by
  dsimp only [bvMix2Effect]
  repeat' first
    | with_reducible assumption
    | intro _
    | with_reducible apply clovePure_kept

theorem bvCvtEffect_kept (g : Nat) (s : State) {b0 : State} (h0s : Kept b0 s) : Kept b0 (bvCvtEffect g s) := by
  dsimp only [bvCvtEffect]
  repeat' first
    | with_reducible assumption
    | intro _
    | with_reducible apply clovePure_kept

theorem bvLimitEffect_kept (g : Nat) (s : State) {b0 : State} (h0s : Kept b0 s) : Kept b0 (bvLimitEffect g s) := by
  dsimp only [bvLimitEffect]
  repeat' first
    | with_reducible assumption
    | intro _
    | with_reducible apply clovePure_kept

theorem bvMaskbEffect_kept (g : Nat) (s : State) {b0 : State} (h0s : Kept b0 s) : Kept b0 (bvMaskbEffect g s) := by
  dsimp only [bvMaskbEffect]
  repeat' first
    | with_reducible assumption
    | intro _
    | with_reducible apply clovePure_kept

theorem bvBcastEffect_kept (g : Nat) (s : State) {b0 : State} (h0s : Kept b0 s) : Kept b0 (bvBcastEffect g s) := by
  dsimp only [bvBcastEffect]
  repeat' first
    | with_reducible assumption
    | intro _
    | with_reducible apply clovePure_kept

theorem bvExtEffect_kept (g : Nat) (s : State) {b0 : State} (h0s : Kept b0 s) : Kept b0 (bvExtEffect g s) := by
  dsimp only [bvExtEffect]
  repeat' first
    | with_reducible assumption
    | intro _
    | with_reducible apply clovePure_kept

theorem bvInsEffect_kept (g : Nat) (s : State) {b0 : State} (h0s : Kept b0 s) : Kept b0 (bvInsEffect g s) := by
  dsimp only [bvInsEffect]
  repeat' first
    | with_reducible assumption
    | intro _
    | with_reducible apply clovePure_kept

theorem bvRmaxEffect_kept (g : Nat) (s : State) {b0 : State} (h0s : Kept b0 s) : Kept b0 (bvRmaxEffect g s) := by
  dsimp only [bvRmaxEffect]
  repeat' first
    | with_reducible assumption
    | intro _
    | with_reducible apply clovePure_kept

theorem bvEmaxEffect_kept (g : Nat) (s : State) {b0 : State} (h0s : Kept b0 s) : Kept b0 (bvEmaxEffect g s) := by
  dsimp only [bvEmaxEffect]
  repeat' first
    | with_reducible assumption
    | intro _
    | with_reducible apply clovePure_kept

theorem bvEmaxlEffect_kept (g : Nat) (s : State) {b0 : State} (h0s : Kept b0 s) : Kept b0 (bvEmaxlEffect g s) := by
  dsimp only [bvEmaxlEffect]
  repeat' first
    | with_reducible assumption
    | intro _
    | with_reducible apply clovePure_kept

theorem bvMvEffect_kept (g : Nat) (s : State) {b0 : State} (h0s : Kept b0 s) : Kept b0 (bvMvEffect g s) := by
  dsimp only [bvMvEffect]
  repeat' first
    | with_reducible assumption
    | intro _
    | with_reducible apply clovePure_kept

theorem bvDothEffect_kept (g : Nat) (s : State) {b0 : State} (h0s : Kept b0 s) : Kept b0 (bvDothEffect g s) := by
  dsimp only [bvDothEffect]
  repeat' first
    | with_reducible assumption
    | intro _
    | with_reducible apply clovePure_kept

theorem bvMaclEffect_kept (g : Nat) (s : State) {b0 : State} (h0s : Kept b0 s) : Kept b0 (bvMaclEffect g s) := by
  dsimp only [bvMaclEffect]
  repeat' first
    | with_reducible assumption
    | intro _
    | with_reducible apply clovePure_kept

theorem bvSumhEffect_kept (g : Nat) (s : State) {b0 : State} (h0s : Kept b0 s) : Kept b0 (bvSumhEffect g s) := by
  dsimp only [bvSumhEffect]
  repeat' first
    | with_reducible assumption
    | intro _
    | with_reducible apply clovePure_kept

theorem bvAncsetEffect_kept (g : Nat) (s : State) {b0 : State} (h0s : Kept b0 s) : Kept b0 (bvAncsetEffect g s) := by
  dsimp only [bvAncsetEffect]
  repeat' first
    | with_reducible assumption
    | intro _
    | with_reducible apply clovePure_kept

theorem bvAccrdEffect_kept (g : Nat) (s : State) {b0 : State} (h0s : Kept b0 s) : Kept b0 (bvAccrdEffect g s) := by
  dsimp only [bvAccrdEffect]
  repeat' first
    | with_reducible assumption
    | intro _
    | with_reducible apply clovePure_kept

theorem bvAccrdkEffect_kept (g : Nat) (s : State) {b0 : State} (h0s : Kept b0 s) : Kept b0 (bvAccrdkEffect g s) := by
  dsimp only [bvAccrdkEffect]
  repeat' first
    | with_reducible assumption
    | intro _
    | with_reducible apply clovePure_kept

theorem bvAccrdaEffect_kept (g : Nat) (s : State) {b0 : State} (h0s : Kept b0 s) : Kept b0 (bvAccrdaEffect g s) := by
  dsimp only [bvAccrdaEffect]
  repeat' first
    | with_reducible assumption
    | intro _
    | with_reducible apply clovePure_kept

theorem bvAccclrEffect_kept (g : Nat) (s : State) {b0 : State} (h0s : Kept b0 s) : Kept b0 (bvAccclrEffect g s) := by
  dsimp only [bvAccclrEffect]
  repeat' first
    | with_reducible assumption
    | intro _
    | with_reducible apply clovePure_kept

theorem ldExec_kept {g w : Nat} {q q' : CloveProg} {s t b0 : State} (e : ldExec g w q s = .ok (t, q')) (h0 : Kept b0 s) : Kept b0 t := by
  unfold ldExec at e
  split at e
  · cases e
  · dsimp only at e
    split at e <;> (cases e; exact h0)

theorem bvLdEffect_kept (g : Nat) (s : State) {b0 : State} (h0s : Kept b0 s) : Kept b0 (bvLdEffect g s) := by
  dsimp only [bvLdEffect]
  repeat' first
    | with_reducible assumption
    | intro _
    | with_reducible apply cloveDo_kept
    | (with_reducible refine ldExec_kept (by assumption) ?_)

theorem stExec_kept {g w : Nat} {q q' : CloveProg} {s t b0 : State} (e : stExec g w q s = .ok (t, q')) (h0 : Kept b0 s) : Kept b0 t := by
  unfold stExec at e
  split at e
  · cases e
  · cases e
    exact foldl_kept (fun x : State × CloveProg => x.1) _ (fun b a h => cloveStore_kept _ _ _ _ _ _ h) _ _ h0

theorem bvStEffect_kept (g : Nat) (s : State) {b0 : State} (h0s : Kept b0 s) : Kept b0 (bvStEffect g s) := by
  dsimp only [bvStEffect]
  repeat' first
    | with_reducible assumption
    | intro _
    | with_reducible apply cloveDo_kept
    | (with_reducible refine stExec_kept (by assumption) ?_)

theorem bvLdmEffect_kept (g : Nat) (s : State) {b0 : State} (h0s : Kept b0 s) : Kept b0 (bvLdmEffect g s) := by
  dsimp only [bvLdmEffect]
  repeat' first
    | with_reducible assumption
    | intro _
    | with_reducible apply clovePure_kept

theorem bvStmEffect_kept (g : Nat) (s : State) {b0 : State} (h0s : Kept b0 s) : Kept b0 (bvStmEffect g s) := by
  dsimp only [bvStmEffect]
  repeat' first
    | with_reducible assumption
    | intro _
    | with_reducible apply clovePure_kept

theorem bvPfEffect_kept (g : Nat) (s : State) {b0 : State} (h0s : Kept b0 s) : Kept b0 (bvPfEffect g s) := by
  dsimp only [bvPfEffect]
  repeat' first
    | with_reducible assumption
    | intro _
    | with_reducible apply clovePure_kept

theorem bvAcqEffect_kept (g : Nat) (s : State) {b0 : State} (h0s : Kept b0 s) : Kept b0 (bvAcqEffect g s) := by
  dsimp only [bvAcqEffect]
  repeat' first
    | with_reducible assumption
    | intro _
    | with_reducible apply clovePure_kept

theorem bankLoadArrivesEffect_kept (g : Nat) (s : State) {b0 : State} (h0s : Kept b0 s) : Kept b0 (bankLoadArrivesEffect g s) := by
  dsimp only [bankLoadArrivesEffect]
  repeat' first
    | with_reducible assumption
    | intro _
    | with_reducible apply notTaken_kept
    | with_reducible apply setProg_kept
    | with_reducible apply takeSector_kept2
    | (with_reducible refine takeSector_kept (by assumption) ?_)
    | with_reducible apply retireInstr_kept2
    | (with_reducible refine retireInstr_kept (by assumption) ?_)
    | with_reducible apply boundary_kept
    | with_reducible apply ite_kept
    | split

theorem controlDo_kept (g : Nat) (row : Nat → Bool) (check : Nat → CloveProg → Option Flt) (f : Nat → CloveProg → State → State) (s : State)
    {b0 : State} (hf : ∀ w q t, Kept b0 t → Kept b0 (f w q t)) (h0 : Kept b0 s) : Kept b0 (controlDo g row check f s) := by
  unfold controlDo
  split
  · exact notTaken_kept _ h0
  · split
    · exact notTaken_kept _ h0
    · split
      · exact notTaken_kept _ h0
      · split
        · exact notTaken_kept _ h0
        · split
          · exact cloveFault_kept _ _ _ _ h0
          · exact hf _ _ _ (setProg_kept _ _ _ (.lit rfl rfl rfl rfl rfl rfl h0))

theorem bvYieldEffect_kept (g : Nat) (s : State) {b0 : State} (h0s : Kept b0 s) : Kept b0 (bvYieldEffect g s) := by
  dsimp only [bvYieldEffect]
  repeat' first
    | with_reducible assumption
    | intro _
    | with_reducible apply modClove_kept
    | with_reducible apply yieldPoint_kept
    | with_reducible apply controlDo_kept

theorem settleBank_kept (c : Nat) (s : State) {b0 : State} (h0s : Kept b0 s) : Kept b0 (settleBank c s) := by
  dsimp only [settleBank]
  repeat' first
    | with_reducible assumption
    | intro _
    | with_reducible apply finish_kept
    | with_reducible apply ite_kept
    | with_reducible apply foldl_verdict
    | with_reducible apply foldl_admit
    | split

theorem endProgram_kept (g : Nat) (q : CloveProg) (s : State) {b0 : State} (h0s : Kept b0 s) : Kept b0 (endProgram g q s) := by
  dsimp only [endProgram]
  repeat' first
    | with_reducible assumption
    | intro _
    | with_reducible apply modCmd_kept
    | with_reducible apply modClove_kept
    | with_reducible apply serveDeferred_kept
    | with_reducible apply switchIn_kept
    | with_reducible apply settleBank_kept

theorem bvEndEffect_kept (g : Nat) (s : State) {b0 : State} (h0s : Kept b0 s) : Kept b0 (bvEndEffect g s) := by
  dsimp only [bvEndEffect]
  repeat' first
    | with_reducible assumption
    | intro _
    | with_reducible apply controlDo_kept
    | with_reducible apply endProgram_kept

theorem cloveForcedYieldEffect_kept (g : Nat) (s : State) {b0 : State} (h0s : Kept b0 s) : Kept b0 (cloveForcedYieldEffect g s) := by
  dsimp only [cloveForcedYieldEffect]
  repeat' first
    | with_reducible assumption
    | intro _
    | with_reducible apply notTaken_kept
    | with_reducible apply modClove_kept
    | with_reducible apply forcedYield_kept
    | with_reducible apply ite_kept
    | split

theorem launchProgram_kept (c p : Nat) (x : Cmd) (h : CloveImage) (im : List Byte) (e : Nat × Launch) (s : State) {b0 : State} (h0s : Kept b0 s) : Kept b0 (launchProgram c p x h im e s) := by
  dsimp only [launchProgram]
  repeat' first
    | with_reducible assumption
    | intro _
    | with_reducible apply modClove_kept

theorem bankRunNote_kept (x : Cmd) (size : Nat) (s : State) {b0 : State} (h0s : Kept b0 s) : Kept b0 (bankRunNote x size s) := by
  dsimp only [bankRunNote]
  repeat' first
    | with_reducible assumption
    | intro _
    | with_reducible apply devReport_kept
    | with_reducible apply bodyNote_kept
    | with_reducible apply ite_kept

theorem startBankRun_kept (c p : Nat) (x : Cmd) (b : BankRun) (s : State) {b0 : State} (h0s : Kept b0 s) : Kept b0 (startBankRun c p x b s) := by
  dsimp only [startBankRun]
  repeat' first
    | with_reducible assumption
    | intro _
    | with_reducible apply foldState_kept
    | with_reducible apply modCmd_kept
    | with_reducible apply flushRange_kept
    | with_reducible apply launchProgram_kept
    | with_reducible apply bankRunNote_kept

theorem bankRunFrom_kept (c p : Nat) (x : Cmd) (b : BankRun) (e : Option SideFlt) (s : State) {b0 : State} (h0s : Kept b0 s) : Kept b0 (bankRunFrom c p x b e s) := by
  dsimp only [bankRunFrom]
  repeat' first
    | with_reducible assumption
    | intro _
    | with_reducible apply finish_kept
    | with_reducible apply bankRunNote_kept
    | with_reducible apply startBankRun_kept
    | with_reducible apply ite_kept
    | split

theorem bankRunEffect_kept (c : Nat) (s : State) {b0 : State} (h0s : Kept b0 s) : Kept b0 (bankRunEffect c s) := by
  dsimp only [bankRunEffect]
  repeat' first
    | with_reducible assumption
    | intro _
    | with_reducible apply notTaken_kept
    | with_reducible apply withAccess_kept
    | with_reducible apply bankRunFrom_kept
    | with_reducible apply ite_kept

theorem cloveImageLoadedEffect_kept (c st : Nat) (s : State) {b0 : State} (h0s : Kept b0 s) : Kept b0 (cloveImageLoadedEffect c st s) := by
  dsimp only [cloveImageLoadedEffect]
  repeat' first
    | with_reducible assumption
    | intro _
    | with_reducible apply foldState_kept
    | with_reducible apply notTaken_kept
    | with_reducible apply modCmd_kept
    | with_reducible apply modClove_kept
    | with_reducible apply countSectors_kept
    | with_reducible apply ite_kept

theorem cloveProgramAdmitEffect_kept (g : Nat) (s : State) {b0 : State} (h0s : Kept b0 s) : Kept b0 (cloveProgramAdmitEffect g s) := by
  dsimp only [cloveProgramAdmitEffect]
  repeat' first
    | with_reducible assumption
    | intro _
    | with_reducible apply when_kept
    | with_reducible apply modClove_kept

theorem evcPendSetEffect_kept (t k : Nat) (v : W32) (s : State) {b0 : State} (h0s : Kept b0 s) : Kept b0 (evcPendSetEffect t k v s) := by
  dsimp only [evcPendSetEffect]
  repeat' first
    | with_reducible assumption
    | intro _
    | with_reducible apply when_kept
    | with_reducible apply modGroup_kept

theorem evcPendClrEffect_kept (t k : Nat) (v : W32) (s : State) {b0 : State} (h0s : Kept b0 s) : Kept b0 (evcPendClrEffect t k v s) := by
  dsimp only [evcPendClrEffect]
  repeat' first
    | with_reducible assumption
    | intro _
    | with_reducible apply when_kept
    | with_reducible apply modGroup_kept

theorem evcMaskSetEffect_kept (t k : Nat) (v : W32) (s : State) {b0 : State} (h0s : Kept b0 s) : Kept b0 (evcMaskSetEffect t k v s) := by
  dsimp only [evcMaskSetEffect]
  repeat' first
    | with_reducible assumption
    | intro _
    | with_reducible apply when_kept
    | with_reducible apply modGroup_kept

theorem evcMaskClrEffect_kept (t k : Nat) (v : W32) (s : State) {b0 : State} (h0s : Kept b0 s) : Kept b0 (evcMaskClrEffect t k v s) := by
  dsimp only [evcMaskClrEffect]
  repeat' first
    | with_reducible assumption
    | intro _
    | with_reducible apply when_kept
    | with_reducible apply modGroup_kept

theorem takeSource_kept (t k : Nat) (s : State) {b0 : State} (h0s : Kept b0 s) : Kept b0 (takeSource t k s) := by
  dsimp only [takeSource]
  repeat' first
    | with_reducible assumption
    | intro _
    | with_reducible apply modGroup_kept
    | with_reducible apply modTarget_kept

theorem evcClaimEffect_kept (t : Nat) (s : State) {b0 : State} (h0s : Kept b0 s) : Kept b0 (evcClaimEffect t s) := by
  dsimp only [evcClaimEffect]
  repeat' first
    | with_reducible assumption
    | intro _
    | with_reducible apply setReply_kept
    | with_reducible apply notTaken_kept
    | with_reducible apply takeSource_kept
    | with_reducible apply ite_kept
    | split

theorem evcCompleteEffect_kept (t : Nat) (v : W32) (s : State) {b0 : State} (h0s : Kept b0 s) : Kept b0 (evcCompleteEffect t v s) := by
  dsimp only [evcCompleteEffect]
  repeat' first
    | with_reducible assumption
    | intro _
    | with_reducible apply notTaken_kept
    | with_reducible apply modTarget_kept
    | with_reducible apply raise_kept
    | with_reducible apply ite_kept

theorem evcSeqCountReadEffect_kept (t : Nat) (s : State) {b0 : State} (h0s : Kept b0 s) : Kept b0 (evcSeqCountReadEffect t s) := by
  dsimp only [evcSeqCountReadEffect]
  repeat' first
    | with_reducible assumption
    | intro _
    | with_reducible apply when_kept
    | with_reducible apply setReply_kept
    | with_reducible apply modTarget_kept

theorem eventHoldoffExpiredEffect_kept (k : Nat) (s : State) {b0 : State} (h0s : Kept b0 s) : Kept b0 (eventHoldoffExpiredEffect k s) := by
  dsimp only [eventHoldoffExpiredEffect]
  repeat' first
    | with_reducible assumption
    | intro _
    | with_reducible apply when_kept
    | with_reducible apply modGroup_kept

theorem evcStateMismatchEffect_kept (k : Nat) (mask2 : W32) (target : Option Nat) (s : State) {b0 : State} (h0s : Kept b0 s) : Kept b0 (evcStateMismatchEffect k mask2 target s) := by
  dsimp only [evcStateMismatchEffect]
  repeat' first
    | with_reducible assumption
    | intro _
    | with_reducible apply notTaken_kept
    | with_reducible apply modGroup_kept
    | with_reducible apply modTarget_kept
    | with_reducible apply faultSettled_kept
    | with_reducible apply ite_kept
    | split

theorem devOut_kept (p : Nat) (o : Out) (s : State) {b0 : State} (h0s : Kept b0 s) : Kept b0 (devOut p o s) := by
  dsimp only [devOut]
  repeat' first
    | with_reducible assumption
    | intro _
    | with_reducible apply foldState_kept
    | with_reducible apply devPut_kept
    | with_reducible apply devPoisonSector_kept

theorem devScatter_kept (p : Nat) (t : TDesc) (s : State) {b0 : State} (h0s : Kept b0 s) : Kept b0 (devScatter p t s) := by
  dsimp only [devScatter]
  repeat' first
    | with_reducible assumption
    | intro _
    | with_reducible apply foldState_kept
    | with_reducible apply devPut_kept
    | with_reducible apply ite_kept
    | split
    | (refine Kept.lit rfl rfl rfl rfl rfl rfl ?_)

theorem fabDone_kept (c : Nat) (poison : Bool) (flags : BitVec 4) (s : State) {b0 : State} (h0s : Kept b0 s) : Kept b0 (fabDone c poison flags s) := by
  dsimp only [fabDone]
  repeat' first
    | with_reducible assumption
    | intro _
    | with_reducible apply modCmd_kept
    | with_reducible apply wakeJob_kept
    | with_reducible apply finish_kept
    | with_reducible apply ite_kept

theorem takeMseq_kept {d c m : Nat} {s t b0 : State} (e : takeMseq d c s = (m, t)) (h0 : Kept b0 s) : Kept b0 t := by
  cases e; exact .lit rfl rfl rfl rfl rfl rfl h0

theorem takeMseq_kept2 (d c : Nat) (s : State) {b0 : State} (h0 : Kept b0 s) : Kept b0 (takeMseq d c s).2 := takeMseq_kept rfl h0

theorem fabWait_kept (c : Nat) (s : State) {b0 : State} (h0s : Kept b0 s) : Kept b0 (fabWait c s) := by
  dsimp only [fabWait]
  repeat' first
    | with_reducible assumption
    | intro _
    | with_reducible apply modCmd_kept

theorem beginSend_kept (c : Nat) (x : Cmd) (t : TDesc) (s : State) {b0 : State} (h0s : Kept b0 s) : Kept b0 (beginSend c x t s) := by
  dsimp only [beginSend]
  repeat' first
    | with_reducible assumption
    | intro _
    | with_reducible apply pushReq_kept
    | with_reducible apply fabEnd_kept
    | with_reducible apply spNote_kept
    | with_reducible apply takeMseq_kept2
    | (with_reducible refine takeMseq_kept (by assumption) ?_)
    | with_reducible apply fabWait_kept
    | with_reducible apply ite_kept
    | split
    | (refine Kept.lit rfl rfl rfl rfl rfl rfl ?_)

theorem againSend_kept (c : Nat) (x : Cmd) (t : TDesc) (y : SendCtx) (s : State) {b0 : State} (h0s : Kept b0 s) : Kept b0 (againSend c x t y s) := by
  dsimp only [againSend]
  repeat' first
    | with_reducible assumption
    | intro _
    | with_reducible apply modSend_kept
    | with_reducible apply pushOrFail_kept
    | with_reducible apply spNote_kept
    | with_reducible apply fabWait_kept

theorem sendData_kept (c : Nat) (x : Cmd) (t : TDesc) (s : State) {b0 : State} (h0s : Kept b0 s) : Kept b0 (sendData c x t s) := by
  dsimp only [sendData]
  repeat' first
    | with_reducible assumption
    | intro _
    | with_reducible apply withAccess_kept
    | with_reducible apply fabEnd_kept
    | with_reducible apply beginSend_kept
    | with_reducible apply againSend_kept
    | with_reducible apply ite_kept
    | split

theorem sendStart_kept (c : Nat) (x : Cmd) (s : State) {b0 : State} (h0s : Kept b0 s) : Kept b0 (sendStart c x s) := by
  dsimp only [sendStart]
  repeat' first
    | with_reducible assumption
    | intro _
    | with_reducible apply modCmd_kept
    | with_reducible apply goOn_kept
    | with_reducible apply fabEnd_kept
    | with_reducible apply bodyNote_kept
    | with_reducible apply sendData_kept
    | with_reducible apply ite_kept
    | split

theorem fabricSendEffect_kept (c : Nat) (s : State) {b0 : State} (h0s : Kept b0 s) : Kept b0 (fabricSendEffect c s) := by
  dsimp only [fabricSendEffect]
  repeat' first
    | with_reducible assumption
    | intro _
    | with_reducible apply notTaken_kept
    | with_reducible apply withAccess_kept
    | with_reducible apply finishOk_kept
    | with_reducible apply sendData_kept
    | with_reducible apply sendStart_kept
    | with_reducible apply ite_kept
    | split

theorem matchReq_kept (x : RecvCtx) (k : Packet) (s : State) {b0 : State} (h0s : Kept b0 s) : Kept b0 (matchReq x k s) := by
  dsimp only [matchReq]
  repeat' first
    | with_reducible assumption
    | intro _
    | with_reducible apply sendPacket_kept
    | with_reducible apply grantRecv_kept
    | with_reducible apply fabEnd_kept
    | with_reducible apply ite_kept
    | split
    | (refine Kept.lit rfl rfl rfl rfl rfl rfl ?_)

theorem beginRecv_kept (c : Nat) (x : Cmd) (s : State) {b0 : State} (h0s : Kept b0 s) : Kept b0 (beginRecv c x s) := by
  dsimp only [beginRecv]
  repeat' first
    | with_reducible assumption
    | intro _
    | with_reducible apply fabWait_kept
    | with_reducible apply matchReq_kept
    | with_reducible apply ite_kept
    | split
    | (refine Kept.lit rfl rfl rfl rfl rfl rfl ?_)

theorem clearFailed_kept (c : Nat) (s : State) {b0 : State} (h0s : Kept b0 s) : Kept b0 (clearFailed c s) := by
  dsimp only [clearFailed]
  repeat' first
    | with_reducible assumption
    | intro _
    | with_reducible apply modRing_kept

theorem endRecv_kept (x : RecvCtx) (s : State) {b0 : State} (h0s : Kept b0 s) : Kept b0 (endRecv x s) := by
  dsimp only [endRecv]
  repeat' first
    | with_reducible assumption
    | intro _
    | with_reducible apply modRecv_kept
    | with_reducible apply fabDone_kept
    | with_reducible apply clearFailed_kept
    | with_reducible apply ite_kept

theorem againRecv_kept (c : Nat) (y : RecvCtx) (s : State) {b0 : State} (h0s : Kept b0 s) : Kept b0 (againRecv c y s) := by
  dsimp only [againRecv]
  repeat' first
    | with_reducible assumption
    | intro _
    | with_reducible apply grantRecv_kept
    | with_reducible apply fabEnd_kept
    | with_reducible apply fabWait_kept
    | with_reducible apply endRecv_kept
    | with_reducible apply ite_kept

theorem recvStart_kept (c : Nat) (x : Cmd) (s : State) {b0 : State} (h0s : Kept b0 s) : Kept b0 (recvStart c x s) := by
  dsimp only [recvStart]
  repeat' first
    | with_reducible assumption
    | intro _
    | with_reducible apply fabEnd_kept
    | with_reducible apply bodyNote_kept
    | with_reducible apply beginRecv_kept
    | with_reducible apply ite_kept
    | split

theorem fabricRecvEffect_kept (c : Nat) (s : State) {b0 : State} (h0s : Kept b0 s) : Kept b0 (fabricRecvEffect c s) := by
  dsimp only [fabricRecvEffect]
  repeat' first
    | with_reducible assumption
    | intro _
    | with_reducible apply notTaken_kept
    | with_reducible apply withAccess_kept
    | with_reducible apply finishOk_kept
    | with_reducible apply againRecv_kept
    | with_reducible apply recvStart_kept
    | with_reducible apply ite_kept
    | split

theorem takePacket_kept {k : Nat} {s t b0 : State} {x : Packet} (e : takePacket k s = some (x, t)) (h0 : Kept b0 s) : Kept b0 t := by
  unfold takePacket at e
  split at e
  · cases e
  · split at e
    · cases e; exact .lit rfl rfl rfl rfl rfl rfl h0
    · cases e

theorem holdPacket_kept (k : Packet) (s : State) {b0 : State} (h0s : Kept b0 s) : Kept b0 (holdPacket k s) := by
  dsimp only [holdPacket]
  repeat' first
    | with_reducible assumption
    | intro _
    | with_reducible apply ite_kept
    | split
    | (refine Kept.lit rfl rfl rfl rfl rfl rfl ?_)

theorem packetReqRxEffect_kept (s : State) {b0 : State} (h0s : Kept b0 s) : Kept b0 (packetReqRxEffect s) := by
  dsimp only [packetReqRxEffect]
  repeat' first
    | with_reducible assumption
    | intro _
    | with_reducible apply notTaken_kept
    | with_reducible apply sendPacket_kept
    | with_reducible apply matchReq_kept
    | (with_reducible refine takePacket_kept (by assumption) ?_)
    | with_reducible apply holdPacket_kept
    | with_reducible apply ite_kept
    | split

theorem recvData_kept (x : RecvCtx) (k : Packet) (s : State) {b0 : State} (h0s : Kept b0 s) : Kept b0 (recvData x k s) := by
  dsimp only [recvData]
  repeat' first
    | with_reducible assumption
    | intro _
    | with_reducible apply sendPacket_kept
    | with_reducible apply modRecv_kept
    | with_reducible apply noteMoved_kept
    | with_reducible apply fabEnd_kept
    | with_reducible apply devOut_kept
    | with_reducible apply endRecv_kept
    | with_reducible apply ite_kept

theorem popInbox_kept (s : State) {b0 : State} (h0s : Kept b0 s) : Kept b0 (popInbox s) := by
  dsimp only [popInbox]
  repeat' first
    | with_reducible assumption
    | intro _
    | with_reducible apply ite_kept
    | split
    | (refine Kept.lit rfl rfl rfl rfl rfl rfl ?_)

theorem packetDataRxEffect_kept (s : State) {b0 : State} (h0s : Kept b0 s) : Kept b0 (packetDataRxEffect s) := by
  dsimp only [packetDataRxEffect]
  repeat' first
    | with_reducible assumption
    | intro _
    | with_reducible apply notTaken_kept
    | with_reducible apply countNoRoute_kept
    | with_reducible apply sendPacket_kept
    | with_reducible apply withAccess_kept
    | (with_reducible refine takePacket_kept (by assumption) ?_)
    | with_reducible apply recvData_kept
    | with_reducible apply popInbox_kept
    | with_reducible apply ite_kept
    | split

theorem dropSend_kept (x : SendCtx) (s : State) {b0 : State} (h0s : Kept b0 s) : Kept b0 (dropSend x s) := by
  dsimp only [dropSend]
  repeat' first
    | with_reducible assumption
    | intro _
    | with_reducible apply ite_kept
    | split
    | (refine Kept.lit rfl rfl rfl rfl rfl rfl ?_)

theorem afterAck_kept (x : SendCtx) (s : State) {b0 : State} (h0s : Kept b0 s) : Kept b0 (afterAck x s) := by
  dsimp only [afterAck]
  repeat' first
    | with_reducible assumption
    | intro _
    | with_reducible apply wakeJob_kept
    | with_reducible apply pushOrFail_kept
    | with_reducible apply fabDone_kept
    | with_reducible apply dropSend_kept
    | with_reducible apply ite_kept

theorem packetRejectRxEffect_kept (s : State) {b0 : State} (h0s : Kept b0 s) : Kept b0 (packetRejectRxEffect s) := by
  dsimp only [packetRejectRxEffect]
  repeat' first
    | with_reducible assumption
    | intro _
    | with_reducible apply notTaken_kept
    | with_reducible apply countNoRoute_kept
    | with_reducible apply fabEnd_kept
    | (with_reducible refine takePacket_kept (by assumption) ?_)
    | with_reducible apply ite_kept
    | split

theorem packetAckTimeoutEffect_kept (c off : Nat) (s : State) {b0 : State} (h0s : Kept b0 s) : Kept b0 (packetAckTimeoutEffect c off s) := by
  dsimp only [packetAckTimeoutEffect]
  repeat' first
    | with_reducible assumption
    | intro _
    | with_reducible apply notTaken_kept
    | with_reducible apply sendOne_kept
    | with_reducible apply fabEnd_kept
    | with_reducible apply ite_kept
    | split
    | (refine Kept.lit rfl rfl rfl rfl rfl rfl ?_)

theorem grantWaitTimeoutEffect_kept (c : Nat) (s : State) {b0 : State} (h0s : Kept b0 s) : Kept b0 (grantWaitTimeoutEffect c s) := by
  dsimp only [grantWaitTimeoutEffect]
  repeat' first
    | with_reducible assumption
    | intro _
    | with_reducible apply notTaken_kept
    | with_reducible apply requestStop_kept
    | with_reducible apply ite_kept

theorem touchWork_kept (x : CollCtx) (s : State) {b0 : State} (h0s : Kept b0 s) : Kept b0 (touchWork x s) := by
  dsimp only [touchWork]
  repeat' first
    | with_reducible assumption
    | intro _
    | with_reducible apply devPut_kept
    | with_reducible apply ite_kept
    | split
    | (refine Kept.lit rfl rfl rfl rfl rfl rfl ?_)

theorem startStep_kept (x : CollCtx) (data : List Byte) (poison : List (Nat × Nat)) (s : State) {b0 : State} (h0s : Kept b0 s) : Kept b0 (startStep x data poison s) := by
  dsimp only [startStep]
  repeat' first
    | with_reducible assumption
    | intro _
    | with_reducible apply pushSend_kept
    | with_reducible apply modColl_kept
    | with_reducible apply wakeColl_kept
    | with_reducible apply fabEnd_kept
    | with_reducible apply takeMseq_kept2
    | (with_reducible refine takeMseq_kept (by assumption) ?_)
    | with_reducible apply ite_kept
    | split
    | (refine Kept.lit rfl rfl rfl rfl rfl rfl ?_)

theorem endColl_kept (x : CollCtx) (s : State) {b0 : State} (h0s : Kept b0 s) : Kept b0 (endColl x s) := by
  dsimp only [endColl]
  repeat' first
    | with_reducible assumption
    | intro _
    | with_reducible apply fabDone_kept
    | with_reducible apply ite_kept
    | split
    | (refine Kept.lit rfl rfl rfl rfl rfl rfl ?_)

theorem writeChunk_kept (x : CollCtx) (c : Nat) (bs : List Byte) (poison : List (Nat × Nat)) (s : State) {b0 : State} (h0s : Kept b0 s) : Kept b0 (writeChunk x c bs poison s) := by
  dsimp only [writeChunk]
  repeat' first
    | with_reducible assumption
    | intro _
    | with_reducible apply noteMoved_kept
    | with_reducible apply devOut_kept

theorem endReduce_kept (x : CollCtx) (s : State) {b0 : State} (h0s : Kept b0 s) : Kept b0 (endReduce x s) := by
  dsimp only [endReduce]
  repeat' first
    | with_reducible assumption
    | intro _
    | with_reducible apply startStep_kept
    | with_reducible apply endColl_kept
    | with_reducible apply writeChunk_kept
    | with_reducible apply ite_kept

theorem finishStep_kept (x : CollCtx) (s : State) {b0 : State} (h0s : Kept b0 s) : Kept b0 (finishStep x s) := by
  dsimp only [finishStep]
  repeat' first
    | with_reducible assumption
    | intro _
    | with_reducible apply modColl_kept
    | with_reducible apply fabEnd_kept
    | with_reducible apply touchWork_kept
    | with_reducible apply startStep_kept
    | with_reducible apply endColl_kept
    | with_reducible apply writeChunk_kept
    | with_reducible apply endReduce_kept
    | with_reducible apply ite_kept
    | split

theorem settleStep_kept (c : Nat) (s : State) {b0 : State} (h0s : Kept b0 s) : Kept b0 (settleStep c s) := by
  dsimp only [settleStep]
  repeat' first
    | with_reducible assumption
    | intro _
    | (show Kept _ _; assumption)
    | with_reducible apply modColl_kept
    | with_reducible apply dropAsk_kept
    | with_reducible apply withAccess_kept
    | with_reducible apply goOn_kept
    | with_reducible apply fabEnd_kept
    | with_reducible apply finishStep_kept
    | with_reducible apply ite_kept
    | split

theorem grantColl_kept (x : CollCtx) (s : State) {b0 : State} (h0s : Kept b0 s) : Kept b0 (grantColl x s) := by
  dsimp only [grantColl]
  repeat' first
    | with_reducible assumption
    | intro _
    | with_reducible apply sendPacket_kept
    | with_reducible apply modColl_kept
    | with_reducible apply ite_kept
    | split

theorem passToken_kept (x : CollCtx) (go : State → State) (s : State) {b0 : State} (h0s : Kept b0 s) (h_go : ∀ (t : State), Kept b0 t → Kept b0 (go t)) : Kept b0 (passToken x go s) := by
  dsimp only [passToken]
  repeat' first
    | with_reducible assumption
    | intro _
    | with_reducible apply sendTagged_kept
    | with_reducible apply fabEnd_kept
    | with_reducible apply h_go
    | with_reducible apply ite_kept

theorem beginGather_kept (x : CollCtx) (y : Cmd) (s : State) {b0 : State} (h0s : Kept b0 s) : Kept b0 (beginGather x y s) := by
  dsimp only [beginGather]
  repeat' first
    | with_reducible assumption
    | intro _
    | with_reducible apply spNote_kept
    | with_reducible apply startStep_kept
    | with_reducible apply writeChunk_kept
    | with_reducible apply ite_kept

theorem beginReduce_kept (x : CollCtx) (y : Cmd) (s : State) {b0 : State} (h0s : Kept b0 s) : Kept b0 (beginReduce x y s) := by
  dsimp only [beginReduce]
  repeat' first
    | with_reducible assumption
    | intro _
    | with_reducible apply spNote_kept
    | with_reducible apply startStep_kept

theorem beginData_kept (x : CollCtx) (y : Cmd) (s : State) {b0 : State} (h0s : Kept b0 s) : Kept b0 (beginData x y s) := by
  dsimp only [beginData]
  repeat' first
    | with_reducible assumption
    | intro _
    | (show Kept _ _; assumption)
    | with_reducible apply modColl_kept
    | with_reducible apply wakeColl_kept
    | with_reducible apply fabWait_kept
    | with_reducible apply touchWork_kept
    | with_reducible apply passToken_kept
    | with_reducible apply beginGather_kept
    | with_reducible apply beginReduce_kept
    | with_reducible apply ite_kept

theorem collData_kept (c : Nat) (y : Cmd) (x : CollCtx) (s : State) {b0 : State} (h0s : Kept b0 s) : Kept b0 (collData c y x s) := by
  dsimp only [collData]
  repeat' first
    | with_reducible assumption
    | intro _
    | with_reducible apply withAccess_kept
    | with_reducible apply fabEnd_kept
    | with_reducible apply beginData_kept
    | with_reducible apply ite_kept

theorem beginColl_kept (c : Nat) (y : Cmd) (s : State) {b0 : State} (h0s : Kept b0 s) : Kept b0 (beginColl c y s) := by
  dsimp only [beginColl]
  repeat' first
    | with_reducible assumption
    | intro _
    | with_reducible apply goOn_kept
    | with_reducible apply collData_kept
    | with_reducible apply ite_kept
    | split
    | (refine Kept.lit rfl rfl rfl rfl rfl rfl ?_)

theorem resumeColl_kept (c : Nat) (x : CollCtx) (s : State) {b0 : State} (h0s : Kept b0 s) : Kept b0 (resumeColl c x s) := by
  dsimp only [resumeColl]
  repeat' first
    | with_reducible assumption
    | intro _
    | (show Kept _ _; assumption)
    | with_reducible apply foldState_kept
    | with_reducible apply modColl_kept
    | with_reducible apply wakeColl_kept
    | with_reducible apply pushOrFail_kept
    | with_reducible apply fabWait_kept
    | with_reducible apply settleStep_kept
    | with_reducible apply grantColl_kept
    | with_reducible apply passToken_kept
    | with_reducible apply ite_kept
    | split

theorem collStart_kept (c : Nat) (x : Cmd) (s : State) {b0 : State} (h0s : Kept b0 s) : Kept b0 (collStart c x s) := by
  dsimp only [collStart]
  repeat' first
    | with_reducible assumption
    | intro _
    | with_reducible apply fabEnd_kept
    | with_reducible apply bodyNote_kept
    | with_reducible apply beginColl_kept
    | with_reducible apply ite_kept
    | split

theorem fabricCollectiveEffect_kept (c : Nat) (s : State) {b0 : State} (h0s : Kept b0 s) : Kept b0 (fabricCollectiveEffect c s) := by
  dsimp only [fabricCollectiveEffect]
  repeat' first
    | with_reducible assumption
    | intro _
    | with_reducible apply notTaken_kept
    | with_reducible apply withAccess_kept
    | with_reducible apply finish_kept
    | with_reducible apply collData_kept
    | with_reducible apply resumeColl_kept
    | with_reducible apply collStart_kept
    | with_reducible apply ite_kept
    | split

theorem ackColl_kept (x : CollCtx) (k : Packet) (s : State) {b0 : State} (h0s : Kept b0 s) : Kept b0 (ackColl x k s) := by
  dsimp only [ackColl]
  repeat' first
    | with_reducible assumption
    | intro _
    | with_reducible apply sendPacket_kept

theorem takeRecord_kept (x : CollCtx) (k : Packet) (s : State) {b0 : State} (h0s : Kept b0 s) : Kept b0 (takeRecord x k s) := by
  dsimp only [takeRecord]
  repeat' first
    | with_reducible assumption
    | intro _
    | with_reducible apply modColl_kept
    | with_reducible apply fabEnd_kept
    | with_reducible apply settleStep_kept
    | with_reducible apply ackColl_kept
    | with_reducible apply ite_kept
    | split
    | (refine Kept.lit rfl rfl rfl rfl rfl rfl ?_)

theorem takeChunk_kept (x : CollCtx) (k : Packet) (s : State) {b0 : State} (h0s : Kept b0 s) : Kept b0 (takeChunk x k s) := by
  dsimp only [takeChunk]
  repeat' first
    | with_reducible assumption
    | intro _
    | with_reducible apply modColl_kept
    | with_reducible apply settleStep_kept
    | with_reducible apply ackColl_kept
    | with_reducible apply ite_kept

theorem packetCollRxEffect_kept (s : State) {b0 : State} (h0s : Kept b0 s) : Kept b0 (packetCollRxEffect s) := by
  dsimp only [packetCollRxEffect]
  repeat' first
    | with_reducible assumption
    | intro _
    | with_reducible apply notTaken_kept
    | with_reducible apply sendPacket_kept
    | (with_reducible refine takePacket_kept (by assumption) ?_)
    | with_reducible apply holdPacket_kept
    | with_reducible apply ackColl_kept
    | with_reducible apply takeRecord_kept
    | with_reducible apply takeChunk_kept
    | with_reducible apply ite_kept
    | split

theorem takeToken_kept (x : CollCtx) (s : State) {b0 : State} (h0s : Kept b0 s) : Kept b0 (takeToken x s) := by
  dsimp only [takeToken]
  repeat' first
    | with_reducible assumption
    | intro _
    | (show Kept _ _; assumption)
    | with_reducible apply modColl_kept
    | with_reducible apply touchWork_kept
    | with_reducible apply endColl_kept
    | with_reducible apply passToken_kept
    | with_reducible apply ite_kept

theorem packetBarrierRxEffect_kept (s : State) {b0 : State} (h0s : Kept b0 s) : Kept b0 (packetBarrierRxEffect s) := by
  dsimp only [packetBarrierRxEffect]
  repeat' first
    | with_reducible assumption
    | intro _
    | with_reducible apply notTaken_kept
    | with_reducible apply countNoRoute_kept
    | with_reducible apply withAccess_kept
    | (with_reducible refine takePacket_kept (by assumption) ?_)
    | with_reducible apply holdPacket_kept
    | with_reducible apply popInbox_kept
    | with_reducible apply takeToken_kept
    | with_reducible apply ite_kept
    | split

theorem packetAckRxEffect_kept (s : State) {b0 : State} (h0s : Kept b0 s) : Kept b0 (packetAckRxEffect s) := by
  dsimp only [packetAckRxEffect]
  repeat' first
    | with_reducible assumption
    | intro _
    | with_reducible apply notTaken_kept
    | with_reducible apply countNoRoute_kept
    | with_reducible apply modSend_kept
    | with_reducible apply pushOrFail_kept
    | (with_reducible refine takePacket_kept (by assumption) ?_)
    | with_reducible apply dropSend_kept
    | with_reducible apply afterAck_kept
    | with_reducible apply settleStep_kept
    | with_reducible apply ite_kept
    | split

theorem abortMessage_kept (p : Nat) (k : Packet) (s : State) {b0 : State} (h0s : Kept b0 s) : Kept b0 (abortMessage p k s) := by
  dsimp only [abortMessage]
  repeat' first
    | with_reducible assumption
    | intro _
    | with_reducible apply modRecv_kept
    | with_reducible apply fabEnd_kept
    | with_reducible apply devScatter_kept
    | with_reducible apply ite_kept
    | split
    | (refine Kept.lit rfl rfl rfl rfl rfl rfl ?_)

theorem abortColl_kept (p : Nat) (k : Packet) (s : State) {b0 : State} (h0s : Kept b0 s) : Kept b0 (abortColl p k s) := by
  dsimp only [abortColl]
  repeat' first
    | with_reducible assumption
    | intro _
    | with_reducible apply fabEnd_kept
    | with_reducible apply ite_kept
    | split

theorem packetAbortRxEffect_kept (s : State) {b0 : State} (h0s : Kept b0 s) : Kept b0 (packetAbortRxEffect s) := by
  dsimp only [packetAbortRxEffect]
  repeat' first
    | with_reducible assumption
    | intro _
    | with_reducible apply notTaken_kept
    | with_reducible apply countNoRoute_kept
    | (with_reducible refine takePacket_kept (by assumption) ?_)
    | with_reducible apply abortMessage_kept
    | with_reducible apply abortColl_kept
    | with_reducible apply ite_kept
    | split

theorem freeEntry_kept (tag : Nat) (s : State) {b0 : State} (h0s : Kept b0 s) : Kept b0 (freeEntry tag s) := by
  dsimp only [freeEntry]
  repeat' first
    | with_reducible assumption
    | intro _
    | with_reducible apply modPort_kept
    | with_reducible apply ite_kept

theorem freeQueue_kept (pt : Nat) (s : State) {b0 : State} (h0s : Kept b0 s) : Kept b0 (freeQueue pt s) := by
  dsimp only [freeQueue]
  repeat' first
    | with_reducible assumption
    | intro _
    | with_reducible apply foldState_kept
    | with_reducible apply freeEntry_kept

theorem dropForwards_kept (pt : Nat) (s : State) {b0 : State} (h0s : Kept b0 s) : Kept b0 (dropForwards pt s) := by
  dsimp only [dropForwards]
  repeat' first
    | with_reducible assumption
    | intro _
    | with_reducible apply ite_kept
    | split
    | (refine Kept.lit rfl rfl rfl rfl rfl rfl ?_)

theorem portEvent_kept (pt : Nat) (s : State) {b0 : State} (h0s : Kept b0 s) : Kept b0 (portEvent pt s) := by
  dsimp only [portEvent]
  repeat' first
    | with_reducible assumption
    | intro _
    | with_reducible apply raise_kept

theorem portDown_kept (pt : Nat) (s : State) {b0 : State} (h0s : Kept b0 s) : Kept b0 (portDown pt s) := by
  dsimp only [portDown]
  repeat' first
    | with_reducible assumption
    | intro _
    | with_reducible apply modPort_kept
    | with_reducible apply freeQueue_kept
    | with_reducible apply dropForwards_kept
    | with_reducible apply portEvent_kept

theorem portFailed_kept (pt : Nat) (s : State) {b0 : State} (h0s : Kept b0 s) : Kept b0 (portFailed pt s) := by
  dsimp only [portFailed]
  repeat' first
    | with_reducible assumption
    | intro _
    | with_reducible apply modPort_kept
    | with_reducible apply faultSettled_kept
    | with_reducible apply freeQueue_kept
    | with_reducible apply dropForwards_kept

theorem portEnable_kept (pt : Nat) (s : State) {b0 : State} (h0s : Kept b0 s) : Kept b0 (portEnable pt s) := by
  dsimp only [portEnable]
  repeat' first
    | with_reducible assumption
    | intro _
    | with_reducible apply modPort_kept
    | with_reducible apply portEvent_kept
    | with_reducible apply ite_kept

theorem portTrainedEffect_kept (pt rx tx : Nat) (s : State) {b0 : State} (h0s : Kept b0 s) : Kept b0 (portTrainedEffect pt rx tx s) := by
  dsimp only [portTrainedEffect]
  repeat' first
    | with_reducible assumption
    | intro _
    | with_reducible apply when_kept
    | with_reducible apply modPort_kept
    | with_reducible apply portEvent_kept

theorem trainingAttemptTimeoutEffect_kept (pt : Nat) (s : State) {b0 : State} (h0s : Kept b0 s) : Kept b0 (trainingAttemptTimeoutEffect pt s) := by
  dsimp only [trainingAttemptTimeoutEffect]
  repeat' first
    | with_reducible assumption
    | intro _
    | with_reducible apply notTaken_kept
    | with_reducible apply modPort_kept
    | with_reducible apply portFailed_kept
    | with_reducible apply ite_kept

theorem enterRetrain_kept (pt : Nat) (s : State) {b0 : State} (h0s : Kept b0 s) : Kept b0 (enterRetrain pt s) := by
  dsimp only [enterRetrain, draw]
  repeat' first
    | with_reducible assumption
    | intro _
    | (with_reducible refine draw_kept (by assumption) ?_)
    | with_reducible apply modPort_kept
    | with_reducible apply portEvent_kept
    | with_reducible apply portFailed_kept
    | with_reducible apply ite_kept
    | split
    | apply ite_kept
    | (refine Kept.lit rfl rfl rfl rfl rfl rfl ?_)

theorem linkSessionEstablishedEffect_kept (pt : Nat) (chainOk : Bool) (peerState peerBlock10 : Nat) (s : State) {b0 : State} (h0s : Kept b0 s) : Kept b0 (linkSessionEstablishedEffect pt chainOk peerState peerBlock10 s) := by
  dsimp only [linkSessionEstablishedEffect, draw]
  repeat' first
    | with_reducible assumption
    | intro _
    | with_reducible apply notTaken_kept
    | (with_reducible refine draw_kept (by assumption) ?_)
    | with_reducible apply modPort_kept
    | with_reducible apply portEvent_kept
    | with_reducible apply portFailed_kept
    | with_reducible apply enterRetrain_kept
    | with_reducible apply ite_kept
    | split
    | (refine Kept.lit rfl rfl rfl rfl rfl rfl ?_)

theorem laneFailureEffect_kept (pt lane : Nat) (s : State) {b0 : State} (h0s : Kept b0 s) : Kept b0 (laneFailureEffect pt lane s) := by
  dsimp only [laneFailureEffect]
  repeat' first
    | with_reducible assumption
    | intro _
    | with_reducible apply notTaken_kept
    | with_reducible apply modPort_kept
    | with_reducible apply faultSettled_kept
    | with_reducible apply portFailed_kept
    | with_reducible apply enterRetrain_kept
    | with_reducible apply ite_kept

theorem resendFrom_kept (pt i : Nat) (s : State) {b0 : State} (h0s : Kept b0 s) : Kept b0 (resendFrom pt i s) := by
  dsimp only [resendFrom]
  repeat' first
    | with_reducible assumption
    | intro _
    | with_reducible apply setReply_kept
    | with_reducible apply modPort_kept
    | with_reducible apply enterRetrain_kept
    | with_reducible apply ite_kept

theorem retrainCompleteEffect_kept (pt : Nat) (txFail : Byte) (s : State) {b0 : State} (h0s : Kept b0 s) : Kept b0 (retrainCompleteEffect pt txFail s) := by
  dsimp only [retrainCompleteEffect]
  repeat' first
    | with_reducible assumption
    | intro _
    | with_reducible apply setReply_kept
    | with_reducible apply notTaken_kept
    | with_reducible apply modPort_kept
    | with_reducible apply portEvent_kept
    | with_reducible apply portFailed_kept
    | with_reducible apply ite_kept

theorem flitSendEffect_kept (pt : Nat) (s : State) {b0 : State} (h0s : Kept b0 s) : Kept b0 (flitSendEffect pt s) := by
  dsimp only [flitSendEffect]
  repeat' first
    | with_reducible assumption
    | intro _
    | with_reducible apply setReply_kept
    | with_reducible apply notTaken_kept
    | with_reducible apply modPort_kept
    | with_reducible apply freeEntry_kept
    | with_reducible apply ite_kept
    | split

theorem idleFlitSendEffect_kept (pt : Nat) (s : State) {b0 : State} (h0s : Kept b0 s) : Kept b0 (idleFlitSendEffect pt s) := by
  dsimp only [idleFlitSendEffect]
  repeat' first
    | with_reducible assumption
    | intro _
    | with_reducible apply setReply_kept
    | with_reducible apply notTaken_kept
    | with_reducible apply modPort_kept
    | with_reducible apply ite_kept

theorem replayTimeoutEffect_kept (pt : Nat) (s : State) {b0 : State} (h0s : Kept b0 s) : Kept b0 (replayTimeoutEffect pt s) := by
  dsimp only [replayTimeoutEffect]
  repeat' first
    | with_reducible assumption
    | intro _
    | with_reducible apply notTaken_kept
    | with_reducible apply resendFrom_kept
    | with_reducible apply ite_kept

theorem discardFlit_kept (pt : Nat) (y : Flit) (s : State) {b0 : State} (h0s : Kept b0 s) : Kept b0 (discardFlit pt y s) := by
  dsimp only [discardFlit]
  repeat' first
    | with_reducible assumption
    | intro _
    | with_reducible apply setReply_kept
    | with_reducible apply modPort_kept
    | with_reducible apply ite_kept

theorem freeRx_kept (pt vc n : Nat) (s : State) {b0 : State} (h0s : Kept b0 s) : Kept b0 (freeRx pt vc n s) := by
  dsimp only [freeRx]
  repeat' first
    | with_reducible assumption
    | intro _
    | with_reducible apply modPort_kept

theorem deliverFlit_kept (pt : Nat) (y : Flit) (s : State) {b0 : State} (h0s : Kept b0 s) : Kept b0 (deliverFlit pt y s) := by
  dsimp only [deliverFlit]
  repeat' first
    | with_reducible assumption
    | intro _
    | with_reducible apply modPort_kept
    | with_reducible apply freeRx_kept
    | with_reducible apply ite_kept
    | split
    | (refine Kept.lit rfl rfl rfl rfl rfl rfl ?_)

theorem forwardFlit_kept (pt out vc : Nat) (y : Flit) (s : State) {b0 : State} (h0s : Kept b0 s) : Kept b0 (forwardFlit pt out vc y s) := by
  dsimp only [forwardFlit]
  repeat' first
    | with_reducible assumption
    | intro _
    | with_reducible apply modPort_kept

theorem routeFlit_kept (pt : Nat) (y : Flit) (s : State) {b0 : State} (h0s : Kept b0 s) : Kept b0 (routeFlit pt y s) := by
  dsimp only [routeFlit]
  repeat' first
    | with_reducible assumption
    | intro _
    | with_reducible apply modPort_kept
    | with_reducible apply countNoRoute_kept
    | with_reducible apply freeRx_kept
    | with_reducible apply deliverFlit_kept
    | with_reducible apply forwardFlit_kept
    | with_reducible apply ite_kept

theorem flitRxSequencedEffect_kept (pt : Nat) (y : Flit) (s : State) {b0 : State} (h0s : Kept b0 s) : Kept b0 (flitRxSequencedEffect pt y s) := by
  dsimp only [flitRxSequencedEffect]
  repeat' first
    | with_reducible assumption
    | intro _
    | with_reducible apply notTaken_kept
    | with_reducible apply modPort_kept
    | with_reducible apply discardFlit_kept
    | with_reducible apply routeFlit_kept
    | with_reducible apply ite_kept

theorem flitRxIdleEffect_kept (pt : Nat) (y : Flit) (s : State) {b0 : State} (h0s : Kept b0 s) : Kept b0 (flitRxIdleEffect pt y s) := by
  dsimp only [flitRxIdleEffect]
  repeat' first
    | with_reducible assumption
    | intro _
    | with_reducible apply notTaken_kept
    | with_reducible apply modPort_kept
    | with_reducible apply ite_kept

theorem flitRxNakEffect_kept (pt : Nat) (y : Flit) (s : State) {b0 : State} (h0s : Kept b0 s) : Kept b0 (flitRxNakEffect pt y s) := by
  dsimp only [flitRxNakEffect]
  repeat' first
    | with_reducible assumption
    | intro _
    | with_reducible apply notTaken_kept
    | with_reducible apply modPort_kept
    | with_reducible apply resendFrom_kept
    | with_reducible apply ite_kept
    | split

theorem flitRxMgmtEffect_kept (pt : Nat) (y : Flit) (s : State) {b0 : State} (h0s : Kept b0 s) : Kept b0 (flitRxMgmtEffect pt y s) := by
  dsimp only [flitRxMgmtEffect]
  repeat' first
    | with_reducible assumption
    | intro _
    | with_reducible apply when_kept
    | with_reducible apply modPort_kept

theorem linkKeyUpdateEffect_kept (pt : Nat) (s : State) {b0 : State} (h0s : Kept b0 s) : Kept b0 (linkKeyUpdateEffect pt s) := by
  dsimp only [linkKeyUpdateEffect, draw]
  repeat' first
    | with_reducible assumption
    | intro _
    | with_reducible apply notTaken_kept
    | (with_reducible refine draw_kept (by assumption) ?_)
    | with_reducible apply modPort_kept
    | with_reducible apply ite_kept
    | split
    | (refine Kept.lit rfl rfl rfl rfl rfl rfl ?_)

theorem stepEntry_kept (r : KvRec) (l j : Nat) (spec : Bool) (z : Kv) {b0 : State} (h0z : Kept b0 z.s) : Kept b0 (stepEntry r l j spec z).s := by
  dsimp only [stepEntry]
  repeat' first
    | with_reducible assumption
    | intro _
    | with_reducible apply kvErr_kept
    | with_reducible apply kvEntry_kept
    | (with_reducible refine kvEntry_kept' (by assumption) ?_)
    | with_reducible apply kvFrame_kept
    | (with_reducible refine kvFrame_kept' (by assumption) ?_)
    | with_reducible apply ite_kept
    | split

theorem stepEntries_kept (r : KvRec) (q : StepReq) (z : Kv) {b0 : State} (h0z : Kept b0 z.s) : Kept b0 (stepEntries r q z).s := by
  dsimp only [stepEntries]
  repeat' first
    | with_reducible assumption
    | intro _
    | with_reducible apply iter_kept
    | with_reducible apply stepEntry_kept
    | with_reducible apply iter_kv
    | with_reducible apply iter_kv2
    | with_reducible apply ite_kept
    | split

theorem stepRecordNote_kept (k : StepCtx) (q : StepReq) (s : State) {b0 : State} (h0s : Kept b0 s) : Kept b0 (stepRecordNote k q s) := by
  dsimp only [stepRecordNote]
  repeat' first
    | with_reducible assumption
    | intro _
    | with_reducible apply kvNote_kept
    | with_reducible apply kvOpen_kept
    | (with_reducible refine kvOpen_kept' (by assumption) ?_)
    | with_reducible apply kvCommitOn_kept
    | with_reducible apply stepEntries_kept
    | with_reducible apply ite_kept
    | split

theorem stepReqNote_kept (k : StepCtx) (q : StepReq) (s : State) {b0 : State} (h0s : Kept b0 s) : Kept b0 (stepReqNote k q s) := by
  dsimp only [stepReqNote]
  repeat' first
    | with_reducible assumption
    | intro _
    | with_reducible apply farNote_kept
    | with_reducible apply bodyNote_kept
    | with_reducible apply stepRecordNote_kept
    | with_reducible apply ite_kept

theorem stepCheckNote_kept (x : Cmd) (k : StepCheck) (s : State) {b0 : State} (h0s : Kept b0 s) : Kept b0 (stepCheckNote x k s) := by
  dsimp only [stepCheckNote]
  repeat' first
    | with_reducible assumption
    | intro _
    | with_reducible apply foldState_kept
    | with_reducible apply bodyNote_kept
    | with_reducible apply stepReqNote_kept
    | with_reducible apply ite_kept
    | split

theorem evictWork_kept (p : Nat) (e : Named) (s : State) {b0 : State} (h0s : Kept b0 s) : Kept b0 (evictWork p e s).s := by
  dsimp only [evictWork]
  repeat' first
    | with_reducible assumption
    | intro _
    | with_reducible apply kvOpen_kept
    | (with_reducible refine kvOpen_kept' (by assumption) ?_)
    | with_reducible apply kvFreeOn_kept
    | with_reducible apply forgetNamed_kept
    | with_reducible apply ite_kept
    | split

theorem evictSeq_kept (p : Nat) (e : Named) (s : State) {b0 : State} (h0s : Kept b0 s) : Kept b0 (evictSeq p e s) := by
  dsimp only [evictSeq]
  repeat' first
    | with_reducible assumption
    | intro _
    | with_reducible apply kvResult_kept
    | (with_reducible refine kvResult_kept' (by assumption) ?_ ?_)
    | with_reducible apply evictWork_kept

theorem kvSource_kept {p n o v : Nat} {x : Frame} {s t b0 : State} (e : kvSource p n x o s = some (v, t)) (h0 : Kept b0 s) : Kept b0 t := by
  unfold kvSource at e
  dsimp only at e
  split at e
  · split at e
    · have k := congrArg (fun y => (Option.getD y (0, t)).2) e
      dsimp only [Option.getD] at k
      rw [← k]; exact farNote_kept _ _ _ _ h0
    · cases e
  · split at e
    · have k := congrArg (fun y => (Option.getD y (0, t)).2) e
      dsimp only [Option.getD] at k
      rw [← k]; exact draw_kept (k := (draw s).1) rfl h0
    · cases e

theorem copyFrameWord_kept (p n m : Nat) (x : Frame) (i : Nat) (s : State) {b0 : State} (h0s : Kept b0 s) : Kept b0 (copyFrameWord p n m x i s) := by
  dsimp only [copyFrameWord]
  repeat' first
    | with_reducible assumption
    | intro _
    | with_reducible apply putWord_kept
    | with_reducible apply putPoison_kept
    | with_reducible apply noteWord_kept
    | (with_reducible refine kvSource_kept (by assumption) ?_)
    | with_reducible apply ite_kept
    | split

theorem renameFrame_kept (p n w : Nat) (s : State) {b0 : State} (h0s : Kept b0 s) : Kept b0 (renameFrame p n w s) := by
  dsimp only [renameFrame]
  repeat' first
    | with_reducible assumption
    | intro _
    | with_reducible apply foldState_kept
    | with_reducible apply devPut_kept
    | with_reducible apply ite_kept
    | split

theorem bankFrame_kept (p g : Nat) : ∀ (l : List Named) (s : State) {t b0 : State} {o : Option (Nat × Nat)},
    bankFrame p g l s = (o, t) → Kept b0 s → Kept b0 t := by
  intro l
  induction l with
  | nil => intro s t b0 o e h; cases e; exact h
  | cons e l ih =>
    intro s t b0 o eq h
    unfold bankFrame at eq
    split at eq
    · cases eq; exact h
    · split at eq
      · exact ih _ eq h
      · exact ih _ eq (evictSeq_kept _ _ _ h)

theorem bankFrame_kept2 (p g : Nat) (l : List Named) (s : State) {b0 : State} (h0 : Kept b0 s) : Kept b0 (bankFrame p g l s).2 :=
  bankFrame_kept p g l s rfl h0

theorem replaceWith_kept (p n m w : Nat) (s : State) {b0 : State} (h0s : Kept b0 s) : Kept b0 (replaceWith p n m w s) := by
  dsimp only [replaceWith]
  repeat' first
    | with_reducible assumption
    | intro _
    | with_reducible apply iter_kept
    | with_reducible apply modFrame_kept
    | with_reducible apply dropGold_kept
    | with_reducible apply copyGold_kept
    | with_reducible apply copyFrameWord_kept
    | with_reducible apply renameFrame_kept
    | with_reducible apply ite_kept

theorem replaceFrame_kept (p n : Nat) (s : State) {b0 : State} (h0s : Kept b0 s) : Kept b0 (replaceFrame p n s) := by
  dsimp only [replaceFrame]
  repeat' first
    | with_reducible assumption
    | intro _
    | with_reducible apply bankFrame_kept2
    | (with_reducible refine bankFrame_kept _ _ _ _ (by assumption) ?_)
    | with_reducible apply replaceWith_kept
    | with_reducible apply ite_kept
    | split

theorem replaceRetired_kept (p : Nat) (s : State) {b0 : State} (h0s : Kept b0 s) : Kept b0 (replaceRetired p s) := by
  dsimp only [replaceRetired]
  repeat' first
    | with_reducible assumption
    | intro _
    | with_reducible apply foldState_kept
    | with_reducible apply replaceFrame_kept

theorem rebuildEntry_kept (n : Nat) (s : State) {b0 : State} (h0s : Kept b0 s) : Kept b0 (rebuildEntry n s) := by
  dsimp only [rebuildEntry, draw]
  repeat' first
    | with_reducible assumption
    | intro _
    | (with_reducible refine draw_kept (by assumption) ?_)
    | with_reducible apply modFrame_kept
    | with_reducible apply ite_kept
    | with_reducible apply foldl_verdict
    | with_reducible apply foldl_admit
    | split
    | (refine Kept.lit rfl rfl rfl rfl rfl rfl ?_)

theorem moveList_kept (p g : Nat) (r : KvRec) (l : Nat) (s : State) {b0 : State} (h0s : Kept b0 s) : Kept b0 (moveList p g r l s) := by
  dsimp only [moveList]
  repeat' first
    | with_reducible assumption
    | intro _
    | with_reducible apply foldState_kept
    | with_reducible apply replaceWith_kept
    | with_reducible apply ite_kept
    | split

theorem moveLists_kept (p g : Nat) (s : State) {b0 : State} (h0s : Kept b0 s) : Kept b0 (moveLists p g s) := by
  dsimp only [moveLists]
  repeat' first
    | with_reducible assumption
    | intro _
    | with_reducible apply foldState_kept
    | with_reducible apply iter_kept
    | with_reducible apply moveList_kept
    | with_reducible apply ite_kept
    | split

theorem reloadModel_kept {p c : Nat} {m : ModelSlot} {s t b0 : State} (e : reloadModel p c m s = some t) (h0 : Kept b0 s) : Kept b0 t := by
  have h : ∃ bs, t = devPut p (c * 2 ^ 21) bs (farNote p m.image m.size s) := by
    unfold reloadModel at e
    extract_lets at e
    split at e
    · injection e with e; exact ⟨_, e.symm⟩
    · cases e
  obtain ⟨bs, rfl⟩ := h
  exact devPut_kept _ _ _ _ (farNote_kept _ _ _ _ h0)

theorem fillChunk_kept (p d slot : Nat) (m : ModelSlot) (s : State) {b0 : State} (h0 : Kept b0 s) : Kept b0 (fillChunk p d slot m s) := by
  have key : ∀ o : Option State, (∀ t, o = some t → Kept b0 t) → Kept b0 (o.elim s (setModel p slot m)) := by
    intro o ho
    cases o with
    | none => exact h0
    | some t => exact setModel_kept _ _ _ _ (ho t rfl)
  exact key _ fun t e => reloadModel_kept e h0

theorem moveSlices_kept (p c slot : Nat) (m : ModelSlot) (s : State) {b0 : State} (h0 : Kept b0 s) : Kept b0 (moveSlices p c slot m s) := by
  unfold moveSlices
  dsimp only
  generalize List.getLast? _ = d
  cases d with
  | none => exact h0
  | some d => exact fillChunk_kept _ _ _ _ _ h0

theorem placeElsewhere_kept (p c : Nat) (s : State) {b0 : State} (h0s : Kept b0 s) : Kept b0 (placeElsewhere p c s) := by
  dsimp only [placeElsewhere]
  repeat' first
    | with_reducible assumption
    | intro _
    | with_reducible apply foldState_kept
    | with_reducible apply moveSlices_kept

theorem moveBank_kept (g : Nat) (s : State) {b0 : State} (h0s : Kept b0 s) : Kept b0 (moveBank g s) := by
  dsimp only [moveBank]
  repeat' first
    | with_reducible assumption
    | intro _
    | with_reducible apply foldState_kept
    | with_reducible apply moveLists_kept
    | with_reducible apply placeElsewhere_kept
    | with_reducible apply ite_kept

theorem bankLocalRetireEffect_kept (chunk : Nat) (s : State) {b0 : State} (h0s : Kept b0 s) : Kept b0 (bankLocalRetireEffect chunk s) := by
  dsimp only [bankLocalRetireEffect]
  repeat' first
    | with_reducible assumption
    | intro _
    | with_reducible apply notTaken_kept
    | with_reducible apply addRetired_kept
    | with_reducible apply retireFrames_kept
    | with_reducible apply retireEntry_kept
    | with_reducible apply placeElsewhere_kept
    | with_reducible apply ite_kept
    | split
    | (refine Kept.lit rfl rfl rfl rfl rfl rfl ?_)
    | (refine Kept.litMem rfl rfl rfl rfl rfl rfl rfl rfl rfl rfl rfl ?_)

theorem reloadTargets_kept (c : Cmd) (e : DirEntry) (x : Nat) : ∀ (l : List Target) (a : Nat) (z : State × Bool) {b0 : State}, Kept b0 z.1 →
    Kept b0 (reloadTargets c e x l a z).1 := by
  intro l
  induction l with
  | nil => intro a z b0 h; exact h
  | cons t l ih =>
    intro a z b0 h
    refine ih _ _ ?_
    split
    · exact loadFactor_kept _ _ _ _ _ _ _ (loadFactor_kept _ _ _ _ _ _ _ h)
    · exact h

theorem reloadAdapter_kept {c : Cmd} {p x : Nat} {v : AdapterSlot} {s t b0 : State} (e : reloadAdapter c p x v s = some t) (h0 : Kept b0 s) :
    Kept b0 t := by
  unfold reloadAdapter at e
  generalize dirRead s p v.dir = d at e
  obtain ⟨d, bad⟩ := d
  dsimp only at e
  generalize imageTargets s p d = r at e
  obtain ⟨o, ts, bi⟩ := r
  dsimp only at e
  repeat' split at e
  all_goals first | (cases e; exact reloadTargets_kept _ _ _ _ _ _ h0) | cases e

theorem restoreWord_kept {p g off : Nat} {j : Nat × Nat} {s t b0 : State} (e : restoreWord p j g off s = some t) (h0 : Kept b0 s) : Kept b0 t := by
  unfold restoreWord at e
  split at e
  · cases e
  · split at e
    · cases e; exact h0
    · split at e
      · cases e
      · split at e
        · dsimp only at e
          split at e
          · simp only [Option.map_eq_some_iff] at e
            obtain ⟨r, e1, e2⟩ := e
            cases e2
            exact putWord_kept _ _ _ _ (kvSource_kept (v := r.1) (t := r.2) e1 h0)
          · cases e
        · split at e
          · exact reloadModel_kept e h0
          · dsimp only at e
            split at e
            · exact reloadAdapter_kept e h0
            · cases e

theorem readRanges_kept (p : Nat) (clove : Bool) (l : List (Nat × List (Nat × Nat))) (a : Option StepFlt × State) {b0 : State} (h0 : Kept b0 a.2) :
    Kept b0 (readRanges p clove l a).2 :=
  foldState_kept _ _ (fun _ _ h => ite_kept (devReport_kept _ _ _ _ h) (devNote_kept _ _ _ _ h)) h0

theorem readFactors_kept (c : LayerCtx) (layer proj : Nat) (rows : List BatchRow) (a : Option StepFlt × State) {b0 : State} (h0 : Kept b0 a.2) :
    Kept b0 (readFactors c layer proj rows a).2 := readRanges_kept _ _ _ _ (readRanges_kept _ _ _ _ h0)

theorem projectRead_kept (c : LayerCtx) (layer : Nat) (a : Batch × State) (proj : Nat) {b0 : State} (h0 : Kept b0 a.2) :
    Kept b0 (projectRead c layer a proj).2 := readFactors_kept c layer proj a.1.rows (a.1.fault, a.2) h0

theorem putRow_kept (p v at_ : Nat) (bs : List Byte) (s : State) {b0 : State} (h0s : Kept b0 s) : Kept b0 (putRow p v at_ bs s) := by
  dsimp only [putRow]
  repeat' first
    | with_reducible assumption
    | intro _
    | with_reducible apply devPut_kept
    | with_reducible apply setGold_kept
    | with_reducible apply ite_kept
    | split

theorem writeHead_kept (c : LayerCtx) (layer h : Nat) (r : BatchRow) (a : BitVec 4 × State) {b0 : State} (h0 : Kept b0 a.2) :
    Kept b0 (writeHead c layer h r a).2 := by
  unfold writeHead
  dsimp only
  split
  · exact h0
  · dsimp only
    split
    · exact putRow_kept _ _ _ _ _ (putRow_kept _ _ _ _ _ h0)
    · exact putRow_kept _ _ _ _ _ (putRow_kept _ _ _ _ _ (putRow_kept _ _ _ _ _ (putRow_kept _ _ _ _ _ h0)))

theorem writeKv_kept (c : LayerCtx) (layer : Nat) (b : Batch) (s : State) {b0 : State} (h0 : Kept b0 s) : Kept b0 (writeKv c layer b s).2 :=
  foldl_kept Prod.snd _ (fun _ _ h => iter_carry Prod.snd _ (fun _ _ g => writeHead_kept _ _ _ _ _ g) _ _ _ h) _ _ h0

theorem noteList_kept (c : LayerCtx) (w : StepWork) (l : Nat) (a : Option StepFlt × State) {b0 : State} (h0 : Kept b0 a.2) :
    Kept b0 (noteList c w l a).2 := by
  dsimp only [noteList]
  refine foldState_kept _ _ (fun _ _ h => countSectors_kept _ _ _ _ h) (foldl_kept Prod.snd _ (fun b e h => ?_) _ _ h0)
  refine foldl_kept Prod.snd _ (fun b e h => ?_) _ _ h
  dsimp only
  exact ite_kept (devReport_kept _ _ _ _ h) (devNote_kept _ _ _ _ h)

theorem noteAttention_kept (c : LayerCtx) (layer : Nat) (ws : List StepWork) (b : Batch) (s : State) {b0 : State} (h0 : Kept b0 s) :
    Kept b0 (noteAttention c layer ws b s).2 :=
  foldl_kept Prod.snd _ (fun _ _ h => iter_carry Prod.snd _ (fun _ _ g => noteList_kept _ _ _ _ g) _ _ _ h) _ _ h0

theorem runLayer_kept (c : LayerCtx) (ws : List StepWork) (layer : Nat) (a : Batch × State) {b0 : State} (h0 : Kept b0 a.2) :
    Kept b0 (runLayer c ws layer a).2 := by
  have k := fun (l : List Nat) (a : Batch × State) (h : Kept b0 a.2) =>
    foldl_kept Prod.snd (projectRead c layer) (fun b e g => projectRead_kept c layer b e g) l a h
  have h1 := k [0, 1, 2] a h0
  unfold runLayer
  generalize List.foldl (projectRead c layer) a [0, 1, 2] = a1 at h1
  obtain ⟨b1, s1⟩ := a1
  have h2 := writeKv_kept c layer b1 s1 h1
  dsimp only
  generalize writeKv c layer b1 s1 = a2 at h2
  obtain ⟨b2, s2⟩ := a2
  have h3 := noteAttention_kept c layer ws b2 s2 h2
  dsimp only
  generalize noteAttention c layer ws b2 s2 = a3 at h3
  obtain ⟨b3, s3⟩ := a3
  have h4 := k [3, 4, 5, 6] (attend s3 c layer b3, s3) h3
  dsimp only
  generalize List.foldl (projectRead c layer) (attend s3 c layer b3, s3) [3, 4, 5, 6] = a4 at h4
  exact h4

theorem noteWeights_kept (c : LayerCtx) (b : Batch) (s : State) {b0 : State} (h0 : Kept b0 s) : Kept b0 (noteWeights c b s).2 :=
  foldl_kept Prod.snd _ (fun _ _ h => readRanges_kept _ _ _ _ h) (weightReads c b.rows) (none, s) h0

theorem runLayers_kept2 (c : LayerCtx) (ws : List StepWork) (b : Batch) (s : State) {b0 : State} (h0 : Kept b0 s) :
    Kept b0 (runLayers c ws b s).2 :=
  iter_carry Prod.snd _ (fun _ _ h => runLayer_kept _ _ _ _ h) _ _ _ (noteWeights_kept _ _ _ h0)

theorem runLayers_kept {c : LayerCtx} {ws : List StepWork} {b b' : Batch} {s t b0 : State} (e : runLayers c ws b s = (b', t)) (h0 : Kept b0 s) :
    Kept b0 t := by have k := runLayers_kept2 c ws b s h0; rw [e] at k; exact k

theorem stepAppend_kept (r : KvRec) (k l j : Nat) (z : Kv) {b0 : State} (h0z : Kept b0 z.s) : Kept b0 (stepAppend r k l j z).s := by
  dsimp only [stepAppend]
  repeat' first
    | with_reducible assumption
    | intro _
    | with_reducible apply kvEntry_kept
    | (with_reducible refine kvEntry_kept' (by assumption) ?_)
    | with_reducible apply kvFill_kept
    | (with_reducible refine kvFill_kept' (by assumption) ?_)
    | with_reducible apply ite_kept
    | split
    | (refine Kept.lit rfl rfl rfl rfl rfl rfl ?_)

theorem stepFrames_kept (w : StepWork) (z : Kv) {b0 : State} (h0z : Kept b0 z.s) : Kept b0 (stepFrames w z).1.s := by
  dsimp only [stepFrames]
  repeat' first
    | with_reducible assumption
    | intro _
    | with_reducible apply iter_kept
    | with_reducible apply kvErr_kept
    | with_reducible apply kvEntry_kept
    | (with_reducible refine kvEntry_kept' (by assumption) ?_)
    | with_reducible apply kvSpec_kept
    | with_reducible apply kvCow_kept
    | with_reducible apply kvFillEntry_kept
    | with_reducible apply kvCommitOn_kept
    | with_reducible apply stepAppend_kept
    | with_reducible apply iter_kv
    | with_reducible apply iter_kv2
    | with_reducible apply ite_kept
    | split
    | (refine Kept.lit rfl rfl rfl rfl rfl rfl ?_)

theorem stepFrames_kept' {w : StepWork} {z : Kv} {z' : Kv} {o : Bool} {b0 : State} (e : stepFrames w z = (z', o)) (h0z : Kept b0 z.s) : Kept b0 z'.s := by
  have k := stepFrames_kept w z h0z
  rw [e] at k; exact k

/-- A choice of admissions. -/
theorem iteZ_kept {c : Prop} [Decidable c] {a b : Admit} {b0 : State} (h : Kept b0 a.z.s) (g : Kept b0 b.z.s) :
    Kept b0 (if c then a else b).z.s := by
  split
  · exact h
  · exact g

theorem noteAdmit_kept (i : Nat) (e : KvFlt) (z : Kv) (a : Admit) {b0 : State} (h0 : Kept b0 a.z.s) : Kept b0 (noteAdmit i e z a).z.s := by
  dsimp only [noteAdmit]
  split <;> exact kvRecordFault_kept _ _ h0

theorem stepFit_kept (w : StepWork) : ∀ (l : List StepWork) (a : Admit) {b0 : State}, Kept b0 a.z.s →
    Kept b0 (stepFit w l a).1.z.s ∧ ∀ r, (stepFit w l a).2 = some r → Kept b0 r.1.s := by
  intro l
  induction l with
  | nil =>
    intro a b0 h
    unfold stepFit
    dsimp only
    split
    · exact ⟨h, fun r e => by cases e; exact stepFrames_kept _ _ h⟩
    · exact ⟨h, fun r e => by cases e⟩
  | cons y l ih =>
    intro a b0 h
    unfold stepFit
    dsimp only
    split
    · exact ⟨h, fun r e => by cases e; exact stepFrames_kept _ _ h⟩
    · split
      · exact ih _ (kvFreeOn_kept _ _ _ _ h)
      · exact ⟨noteAdmit_kept _ _ _ _ h, fun r e => by cases e⟩

theorem stepSlot_kept {k : StepCtx} {w : StepWork} {a : Admit} {i : Nat} {t b0 : State} (e : stepSlot k w a = some (i, t)) (h0 : Kept b0 a.z.s) :
    Kept b0 t := by
  unfold stepSlot at e
  split at e
  · cases e; exact h0
  · split at e
    · cases e; exact touchSlot_kept _ _ _ h0
    · generalize hr : loadAdapter k.x k.p w.req.adapter 0xFFFF false (stepBusy k a) a.z.s = r at e
      cases r with
      | inl f => cases e
      | inr r => obtain ⟨j, u⟩ := r; cases e; exact loadAdapter_kept hr h0

theorem slotNote_kept (k : StepCtx) (w : StepWork) (a : Admit) {b0 : State} (h0 : Kept b0 a.z.s) : Kept b0 (slotNote k w a) := by
  unfold slotNote
  generalize loadAdapter k.x k.p w.req.adapter 0xFFFF false (stepBusy k a) a.z.s = r
  cases r with
  | inl f => exact loadNote_kept _ _ _ _ h0
  | inr r => exact h0

theorem admitOne_kept (k : StepCtx) (l : List StepWork) (a : Admit) (w : StepWork) {b0 : State} (h0 : Kept b0 a.z.s) :
    Kept b0 (admitOne k l a w).z.s := by
  unfold admitOne
  dsimp only
  repeat' refine iteZ_kept h0 ?_
  split
  · exact slotNote_kept _ _ _ h0
  · have g := stepFit_kept w (spillOrder l w a) a h0
    split
    · rename_i hf
      simp only [hf] at g
      exact g.1
    · rename_i hf
      simp only [hf] at g
      have g2 := g.2 _ rfl
      split
      · exact noteAdmit_kept w.req.ix _ _ _ g.1
      · dsimp only
        split
        · rename_i hs
          exact stepSlot_kept hs g2
        · exact g2

theorem raiseTokens_kept (p : Nat) (w : StepWork) (l : Nat) (s : State) {b0 : State} (h0s : Kept b0 s) : Kept b0 (raiseTokens p w l s) := by
  dsimp only [raiseTokens]
  repeat' first
    | with_reducible assumption
    | intro _
    | with_reducible apply iter_kept
    | with_reducible apply kvEntry_kept
    | (with_reducible refine kvEntry_kept' (by assumption) ?_)
    | with_reducible apply frameTokens_kept
    | with_reducible apply ite_kept
    | split

theorem writeRequest_kept (p : Nat) (w : StepWork) (s : State) {b0 : State} (h0s : Kept b0 s) : Kept b0 (writeRequest p w s) := by
  dsimp only [writeRequest]
  repeat' first
    | with_reducible assumption
    | intro _
    | with_reducible apply iter_kept
    | with_reducible apply devPut_kept
    | with_reducible apply raiseTokens_kept

theorem appendJournal_kept (p : Nat) (l : List JournalEntry) (s : State) {b0 : State} (h0s : Kept b0 s) : Kept b0 (appendJournal p l s) := by
  dsimp only [appendJournal]
  repeat' first
    | with_reducible assumption
    | intro _
    | with_reducible apply foldState_kept
    | with_reducible apply modPart_kept
    | with_reducible apply farPut_kept
    | with_reducible apply ite_kept

theorem holdRecords_kept (c p : Nat) (l : List StepDecision) (s : State) {b0 : State} (h0s : Kept b0 s) : Kept b0 (holdRecords c p l s) := by
  dsimp only [holdRecords]
  repeat' first
    | with_reducible assumption
    | intro _
    | with_reducible apply modPart_kept

theorem putReturn_kept (k : StepCtx) (l : List (Nat × List Byte)) (s : State) {b0 : State} (h0s : Kept b0 s) : Kept b0 (putReturn k l s) := by
  dsimp only [putReturn]
  repeat' first
    | with_reducible assumption
    | intro _
    | with_reducible apply foldState_kept
    | with_reducible apply hostPut_kept

theorem nameRecords_kept (p f : Nat) (l : List StepWork) (s : State) {b0 : State} (h0s : Kept b0 s) : Kept b0 (nameRecords p f l s) := by
  dsimp only [nameRecords]
  repeat' first
    | with_reducible assumption
    | intro _
    | with_reducible apply foldState_kept
    | with_reducible apply modPart_kept

theorem noteStep_kept (k : StepCtx) (l : List StepWork) (s : State) {b0 : State} (h0s : Kept b0 s) : Kept b0 (noteStep k l s) := by
  dsimp only [noteStep]
  repeat' first
    | with_reducible assumption
    | intro _
    | with_reducible apply foldState_kept
    | with_reducible apply bodyNote_kept
    | with_reducible apply ite_kept

theorem admitAll_kept (k : StepCtx) (l : List StepWork) (s : State) {b0 : State} (h0 : Kept b0 s) : Kept b0 (admitAll k l s).z.s := by
  dsimp only [admitAll]
  refine foldl_admit _ (fun a w h => admitOne_kept _ _ _ _ h) ?_
  exact replaceRetired_kept _ _ (noteRecords_kept _ _ _ (nameRecords_kept _ _ _ _ (noteStep_kept _ _ _ h0)))

theorem keepAdmission_kept (c p : Nat) (ws : List StepWork) (a : Admit) (s : State) {b0 : State} (h0s : Kept b0 s) : Kept b0 (keepAdmission c p ws a s) := by
  dsimp only [keepAdmission]
  repeat' first
    | with_reducible assumption
    | intro _
    | with_reducible apply modCmd_kept
    | with_reducible apply appendJournal_kept
    | with_reducible apply holdRecords_kept

theorem failStep_kept (c : Nat) (k : StepCtx) (l : List StepWork) (a : Admit) (f : StepFlt) (flags : BitVec 4) (s : State) {b0 : State} (h0s : Kept b0 s) : Kept b0 (failStep c k l a f flags s) := by
  dsimp only [failStep]
  repeat' first
    | with_reducible assumption
    | intro _
    | with_reducible apply finish_kept
    | with_reducible apply putReturn_kept
    | with_reducible apply ite_kept
    | split
    | (refine Kept.lit rfl rfl rfl rfl rfl rfl ?_)

theorem completeStep_kept (c : Nat) (y : LayerCtx) (l : List StepWork) (a : Admit) (b : Batch) (s : State) {b0 : State} (h0s : Kept b0 s) : Kept b0 (completeStep c y l a b s) := by
  dsimp only [completeStep]
  repeat' first
    | with_reducible assumption
    | intro _
    | with_reducible apply foldState_kept
    | with_reducible apply modCmd_kept
    | with_reducible apply finish_kept
    | with_reducible apply writeRequest_kept
    | with_reducible apply putReturn_kept
    | with_reducible apply failStep_kept
    | with_reducible apply ite_kept

theorem batchStep_kept (c : Nat) (k : StepCtx) (l : List StepWork) (a : Admit) (s : State) {b0 : State} (h0s : Kept b0 s) : Kept b0 (batchStep c k l a s) := by
  dsimp only [batchStep]
  repeat' first
    | with_reducible assumption
    | intro _
    | with_reducible apply raise_kept
    | with_reducible apply runLayers_kept2
    | (with_reducible refine runLayers_kept (by assumption) ?_)
    | with_reducible apply failStep_kept
    | with_reducible apply completeStep_kept
    | with_reducible apply ite_kept
    | split

theorem runStep_kept (c : Nat) (k : StepCtx) (l : List StepWork) (s : State) {b0 : State} (h0 : Kept b0 s) : Kept b0 (runStep c k l s) := by
  have h1 := keepAdmission_kept c k.p l (admitAll k l s) _
    (kvNote_kept { (admitAll k l s).z with errs := [], copyErrs := [] } _ (admitAll_kept k l s h0) (admitAll_kept k l s h0))
  dsimp only [runStep]
  split
  · exact failStep_kept _ _ _ _ _ _ _ h1
  · exact batchStep_kept _ _ _ _ _ h1

theorem stepEffect_kept (c : Nat) (s : State) {b0 : State} (h0s : Kept b0 s) : Kept b0 (stepEffect c s) := by
  dsimp only [stepEffect]
  repeat' first
    | with_reducible assumption
    | intro _
    | with_reducible apply notTaken_kept
    | with_reducible apply withAccess_kept
    | with_reducible apply finish_kept
    | with_reducible apply stepCheckNote_kept
    | with_reducible apply holdRecords_kept
    | with_reducible apply runStep_kept
    | with_reducible apply ite_kept
    | split

theorem evictFrames_kept (p target used : Nat) : ∀ (l : List Named) (s : State) {b0 : State}, Kept b0 s → Kept b0 (evictFrames p target used l s) := by
  intro l
  induction l with
  | nil => intro s b0 h; exact h
  | cons e l ih =>
    intro s b0 h
    unfold evictFrames
    split
    · exact h
    · split
      · exact ih _ h
      · exact ih _ (evictSeq_kept _ _ _ h)

theorem evictSlots_kept (p target : Nat) (x : Cmd) : ∀ (n freed : Nat) (s : State) {b0 : State}, Kept b0 s →
    Kept b0 (evictSlots p target x n freed s) := by
  intro n
  induction n with
  | zero => intro k s b0 h; exact h
  | succ n ih =>
    intro k s b0 h
    unfold evictSlots
    dsimp only
    generalize (if target = 0 then decide (slotsUsed s p ≤ (partOf s p).slotQuota) else decide (target ≤ k)) = d
    split
    · exact h
    · split
      · exact h
      · exact ih _ _ (evictSlot_kept _ _ _ h)

theorem evictDone_kept (c : Nat) (s : State) {b0 : State} (h0s : Kept b0 s) : Kept b0 (evictDone c s) := by
  dsimp only [evictDone]
  repeat' first
    | with_reducible assumption
    | intro _
    | with_reducible apply modCmd_kept
    | with_reducible apply finishOk_kept

theorem evictEffect_kept (c : Nat) (s : State) {b0 : State} (h0s : Kept b0 s) : Kept b0 (evictEffect c s) := by
  dsimp only [evictEffect]
  repeat' first
    | with_reducible assumption
    | intro _
    | with_reducible apply notTaken_kept
    | with_reducible apply withAccess_kept
    | with_reducible apply finishOk_kept
    | with_reducible apply fail_kept
    | with_reducible apply evictFrames_kept
    | with_reducible apply evictSlots_kept
    | with_reducible apply evictDone_kept
    | with_reducible apply ite_kept

theorem noteUnit_kept (u : Nat) (ps : List Nat) (s : State) {b0 : State} (h0s : Kept b0 s) : Kept b0 (noteUnit u ps s) := by
  dsimp only [noteUnit]
  repeat' first
    | with_reducible assumption
    | intro _
    | with_reducible apply ite_kept
    | split
    | (refine Kept.lit rfl rfl rfl rfl rfl rfl ?_)

theorem unitFault_kept (u kind source unit : Nat) (detail : W64) (ps : List Nat) (s : State) {b0 : State} (h0s : Kept b0 s) : Kept b0 (unitFault u kind source unit detail ps s) := by
  dsimp only [unitFault]
  repeat' first
    | with_reducible assumption
    | intro _
    | with_reducible apply faultAffects_kept
    | with_reducible apply noteUnit_kept

theorem serveIndex_kept (p i : Nat) (s : State) {b0 : State} (h0s : Kept b0 s) : Kept b0 (serveIndex p i s) := by
  dsimp only [serveIndex]
  repeat' first
    | with_reducible assumption
    | intro _
    | with_reducible apply modPart_kept
    | with_reducible apply setEvRoute_kept
    | with_reducible apply ite_kept
    | split

theorem coreDown_kept (n : Nat) (s : State) {b0 : State} (h0s : Kept b0 s) : Kept b0 (coreDown n s) := by
  dsimp only [coreDown]
  repeat' first
    | with_reducible assumption
    | intro _
    | with_reducible apply modCore_kept
    | with_reducible apply modSpad_kept

theorem startJobRecovery_kept (j : Nat × Nat) (s : State) {b0 : State} (h0s : Kept b0 s) : Kept b0 (startJobRecovery j s) := by
  dsimp only [startJobRecovery]
  repeat' first
    | with_reducible assumption
    | intro _
    | with_reducible apply raise_kept
    | with_reducible apply modJob_kept
    | with_reducible apply ite_kept

theorem deconfigureCore_kept (n : Nat) (s : State) {b0 : State} (h0s : Kept b0 s) : Kept b0 (deconfigureCore n s) := by
  dsimp only [deconfigureCore]
  repeat' first
    | with_reducible assumption
    | intro _
    | with_reducible apply foldState_kept
    | with_reducible apply serveIndex_kept
    | with_reducible apply coreDown_kept
    | with_reducible apply startJobRecovery_kept
    | with_reducible apply ite_kept
    | split

theorem deconfigureClove_kept (g : Nat) (s : State) {b0 : State} (h0s : Kept b0 s) : Kept b0 (deconfigureClove g s) := by
  dsimp only [deconfigureClove]
  repeat' first
    | with_reducible assumption
    | intro _
    | with_reducible apply foldState_kept
    | with_reducible apply modClove_kept
    | with_reducible apply serveDeferred_kept
    | with_reducible apply moveBank_kept
    | with_reducible apply startJobRecovery_kept

theorem routePart_kept (p a : Nat) (s : State) {b0 : State} (h0s : Kept b0 s) : Kept b0 (routePart p a s) := by
  dsimp only [routePart]
  repeat' first
    | with_reducible assumption
    | intro _
    | with_reducible apply foldState_kept
    | with_reducible apply setEvRoute_kept

theorem moveRuntime_kept (a p : Nat) (s : State) {b0 : State} (h0s : Kept b0 s) : Kept b0 (moveRuntime a p s) := by
  dsimp only [moveRuntime]
  repeat' first
    | with_reducible assumption
    | intro _
    | with_reducible apply modPart_kept
    | with_reducible apply routePart_kept
    | with_reducible apply ite_kept
    | split

theorem deconfigureAc_kept (a : Nat) (s : State) {b0 : State} (h0s : Kept b0 s) : Kept b0 (deconfigureAc a s) := by
  dsimp only [deconfigureAc]
  repeat' first
    | with_reducible assumption
    | intro _
    | with_reducible apply foldState_kept
    | with_reducible apply moveRuntime_kept
    | with_reducible apply ite_kept
    | split
    | (refine Kept.lit rfl rfl rfl rfl rfl rfl ?_)

theorem deconfigureUnit_kept (u : Nat) (s : State) {b0 : State} (h0s : Kept b0 s) : Kept b0 (deconfigureUnit u s) := by
  dsimp only [deconfigureUnit]
  repeat' first
    | with_reducible assumption
    | intro _
    | with_reducible apply modMover_kept
    | with_reducible apply deconfigureCore_kept
    | with_reducible apply deconfigureClove_kept
    | with_reducible apply deconfigureAc_kept
    | with_reducible apply ite_kept
    | split

theorem haltCmd_kept (c : Nat) (s : State) {b0 : State} (h0s : Kept b0 s) : Kept b0 (haltCmd c s) := by
  dsimp only [haltCmd]
  repeat' first
    | with_reducible assumption
    | intro _
    | with_reducible apply foldState_kept
    | with_reducible apply modCore_kept
    | with_reducible apply modClove_kept
    | with_reducible apply dropAsk_kept
    | with_reducible apply serveDeferred_kept
    | with_reducible apply switchIn_kept
    | with_reducible apply leaveKept_kept
    | with_reducible apply setWaiters_kept

theorem restartGroup_kept (p : Nat) (j : Nat × Nat) (s : State) {b0 : State} (h0s : Kept b0 s) : Kept b0 (restartGroup p j s) := by
  dsimp only [restartGroup]
  repeat' first
    | with_reducible assumption
    | intro _
    | with_reducible apply foldState_kept
    | with_reducible apply modCmd_kept
    | with_reducible apply modPart_kept
    | with_reducible apply dropImage_kept
    | with_reducible apply drainEngines_kept
    | with_reducible apply modJob_kept
    | with_reducible apply setWaiters_kept
    | with_reducible apply haltCmd_kept
    | with_reducible apply ite_kept

theorem judge_kept (p : Nat) (j : Nat × Nat) (v : Verdict) (e : Nat × Nat × Bool × Nat) {b0 : State} (h0 : Kept b0 v.s) : Kept b0 (judge p j v e).s := by
  unfold judge
  split
  · rename_i h; exact restoreWord_kept h h0
  · split
    · exact h0
    · split <;> exact h0

theorem undoLoad_kept (c : Nat) (s : State) {b0 : State} (h0s : Kept b0 s) : Kept b0 (undoLoad c s) := by
  dsimp only [undoLoad]
  repeat' first
    | with_reducible assumption
    | intro _
    | with_reducible apply setModel_kept
    | with_reducible apply ite_kept

theorem endUnreported_kept (poison : Bool) (cs : List Nat) (s : State) {b0 : State} (h0s : Kept b0 s) : Kept b0 (endUnreported poison cs s) := by
  dsimp only [endUnreported, draw]
  repeat' first
    | with_reducible assumption
    | intro _
    | with_reducible apply foldState_kept
    | (with_reducible refine draw_kept (by assumption) ?_)
    | with_reducible apply markDone_kept
    | with_reducible apply stopCmd_kept
    | with_reducible apply undoLoad_kept
    | with_reducible apply ite_kept
    | split
    | (refine Kept.lit rfl rfl rfl rfl rfl rfl ?_)

theorem clearDue_kept (j : Nat × Nat) (s : State) {b0 : State} (h0s : Kept b0 s) : Kept b0 (clearDue j s) := by
  dsimp only [clearDue]
  repeat' first
    | with_reducible assumption
    | intro _
    | with_reducible apply modJob_kept

theorem noteOutcome_kept (j : Nat × Nat) (o : Nat) (s : State) {b0 : State} (h0s : Kept b0 s) : Kept b0 (noteOutcome j o s) := by
  dsimp only [noteOutcome]
  repeat' first
    | with_reducible assumption
    | intro _
    | with_reducible apply modJob_kept

theorem recoverJob_kept (p : Nat) (j : Nat × Nat) (s : State) {b0 : State} (h0s : Kept b0 s) : Kept b0 (recoverJob p j s) := by
  dsimp only [recoverJob, draw]
  repeat' first
    | with_reducible assumption
    | intro _
    | with_reducible apply foldState_kept
    | (with_reducible refine draw_kept (by assumption) ?_)
    | with_reducible apply modCmd_kept
    | with_reducible apply endRecovery_kept
    | with_reducible apply schedule_kept
    | with_reducible apply deconfigureUnit_kept
    | with_reducible apply restartGroup_kept
    | with_reducible apply judge_kept
    | with_reducible apply endUnreported_kept
    | with_reducible apply clearDue_kept
    | with_reducible apply noteOutcome_kept
    | with_reducible apply ite_kept
    | with_reducible apply foldl_verdict
    | with_reducible apply foldl_admit
    | split
    | apply ite_kept
    | (refine Kept.lit rfl rfl rfl rfl rfl rfl ?_)

theorem respond_kept (r : Response) (store : Bool) (s : State) {b0 : State} (h0s : Kept b0 s) : Kept b0 (respond r store s) := by
  dsimp only [respond]
  repeat' first
    | with_reducible assumption
    | intro _
    | with_reducible apply setReply_kept
    | with_reducible apply ite_kept
    | split
    | (refine Kept.lit rfl rfl rfl rfl rfl rfl ?_)

theorem answer_kept (op : Nat) (q : Req) (st : MgmtStatus) (result : Nat) (s : State) {b0 : State} (h0s : Kept b0 s) : Kept b0 (answer op q st result s) := by
  dsimp only [answer]
  repeat' first
    | with_reducible assumption
    | intro _
    | with_reducible apply respond_kept

theorem openRequest_kept (op : Nat) (q : Req) (p : Nat) (s : State) {b0 : State} (h0s : Kept b0 s) : Kept b0 (openRequest op q p s) := by
  dsimp only [openRequest]
  repeat' first
    | with_reducible assumption
    | intro _
    | with_reducible apply ite_kept
    | split
    | (refine Kept.lit rfl rfl rfl rfl rfl rfl ?_)

theorem perform_kept (op : Nat) (q : Req) (run : State → State) (s : State) {b0 : State} (h0s : Kept b0 s) (h_run : ∀ (t : State), Kept b0 t → Kept b0 (run t)) : Kept b0 (perform op q run s) := by
  dsimp only [perform]
  repeat' first
    | with_reducible assumption
    | intro _
    | with_reducible apply respond_kept
    | with_reducible apply answer_kept
    | with_reducible apply h_run
    | with_reducible apply ite_kept
    | split

theorem arrive_kept (i : Instr) (f op : Nat) (q : Req) (go : State → State) (s : State) {b0 : State} (h0s : Kept b0 s) (h_go : ∀ (t : State), Kept b0 t → Kept b0 (go t)) : Kept b0 (arrive i f op q go s) := by
  dsimp only [arrive]
  repeat' first
    | with_reducible assumption
    | intro _
    | with_reducible apply notTaken_kept
    | with_reducible apply respond_kept
    | with_reducible apply h_go
    | with_reducible apply ite_kept
    | split
    | (refine Kept.lit rfl rfl rfl rfl rfl rfl ?_)

theorem closeReq_kept (p : Nat) (s : State) {b0 : State} (h0s : Kept b0 s) : Kept b0 (closeReq p s) := by
  dsimp only [closeReq]
  repeat' first
    | with_reducible assumption
    | intro _
    | with_reducible apply respond_kept
    | with_reducible apply ite_kept
    | split
    | (refine Kept.lit rfl rfl rfl rfl rfl rfl ?_)

theorem putEntries_kept : ∀ (l : List (Nat × Bool)) (s : State) (n : Nat) {b0 : State}, Kept b0 s → Kept b0 (putEntries s n l) := by
  intro l
  induction l with
  | nil => intro s n b0 h; exact h
  | cons e l ih => intro s n b0 h; exact ih _ _ (setCt_kept _ _ _ h)

theorem moveRange_kept (p base : Nat) (s : State) {b0 : State} (h0s : Kept b0 s) : Kept b0 (moveRange p base s) := by
  dsimp only [moveRange]
  repeat' first
    | with_reducible assumption
    | intro _
    | with_reducible apply foldState_kept
    | with_reducible apply modPart_kept
    | with_reducible apply setCt_kept
    | with_reducible apply ite_kept
    | split
    | (refine Kept.lit rfl rfl rfl rfl rfl rfl ?_)
    | (refine Kept.litMem rfl rfl rfl rfl rfl rfl rfl rfl rfl rfl rfl ?_)

theorem clearSems_kept (base n : Nat) (s : State) {b0 : State} (h0s : Kept b0 s) : Kept b0 (clearSems base n s) := by
  dsimp only [clearSems]
  repeat' first
    | with_reducible assumption
    | intro _
    | with_reducible apply ite_kept
    | split
    | (refine Kept.lit rfl rfl rfl rfl rfl rfl ?_)

theorem clearFar_kept (base n : Nat) (s : State) {b0 : State} (h0 : Kept b0 s) : Kept b0 (clearFar base n s) := by
  dsimp only [clearFar]
  refine .memWf (u := s) rfl rfl rfl rfl rfl id id id id ?_ id h0
  intro w; dsimp only; exact tabWf_tabDrop _ _ _ w

theorem serveDown_kept (p : Nat) (s : State) {b0 : State} (h0s : Kept b0 s) : Kept b0 (serveDown p s) := by
  dsimp only [serveDown]
  repeat' first
    | with_reducible assumption
    | intro _
    | with_reducible apply foldState_kept
    | with_reducible apply serveIndex_kept

theorem createPart_kept (p ac : Nat) (a : PartParams) (s : State) {b0 : State} (h0s : Kept b0 s) : Kept b0 (createPart p ac a s) := by
  dsimp only [createPart]
  repeat' first
    | with_reducible assumption
    | intro _
    | with_reducible apply foldState_kept
    | with_reducible apply modPart_kept
    | with_reducible apply setClaim_kept
    | with_reducible apply routePart_kept
    | with_reducible apply putEntries_kept
    | with_reducible apply clearSems_kept
    | with_reducible apply clearFar_kept
    | with_reducible apply serveDown_kept
    | with_reducible apply ite_kept
    | split
    | (refine Kept.lit rfl rfl rfl rfl rfl rfl ?_)

theorem dropFabric_kept (p : Nat) (s : State) {b0 : State} (h0s : Kept b0 s) : Kept b0 (dropFabric p s) := by
  dsimp only [dropFabric]
  repeat' first
    | with_reducible assumption
    | intro _
    | with_reducible apply ite_kept
    | split
    | (refine Kept.lit rfl rfl rfl rfl rfl rfl ?_)

theorem detachFn_kept (f : Nat) (s : State) {b0 : State} (h0s : Kept b0 s) : Kept b0 (detachFn f s) := by
  dsimp only [detachFn]
  repeat' first
    | with_reducible assumption
    | intro _
    | with_reducible apply modFn_kept
    | with_reducible apply beginShutdown_kept
    | with_reducible apply ite_kept

theorem beginTeardown_kept (p : Nat) (s : State) {b0 : State} (h0s : Kept b0 s) : Kept b0 (beginTeardown p s) := by
  dsimp only [beginTeardown]
  repeat' first
    | with_reducible assumption
    | intro _
    | with_reducible apply foldState_kept
    | with_reducible apply modPart_kept
    | with_reducible apply dropFabric_kept
    | with_reducible apply detachFn_kept

theorem releaseChunks_kept (p : Nat) (s : State) {b0 : State} (h0s : Kept b0 s) : Kept b0 (releaseChunks p s) := by
  dsimp only [releaseChunks]
  repeat' first
    | with_reducible assumption
    | intro _
    | with_reducible apply foldState_kept
    | with_reducible apply setCt_kept
    | with_reducible apply wipeChunk_kept
    | with_reducible apply ite_kept
    | split
    | (refine Kept.lit rfl rfl rfl rfl rfl rfl ?_)
    | (refine Kept.litMem rfl rfl rfl rfl rfl rfl rfl rfl rfl rfl rfl ?_)

theorem dropHeld_kept (p : Nat) (s : State) {b0 : State} (h0s : Kept b0 s) : Kept b0 (dropHeld p s) := by
  dsimp only [dropHeld]
  repeat' first
    | with_reducible assumption
    | intro _
    | with_reducible apply ite_kept
    | split
    | (refine Kept.lit rfl rfl rfl rfl rfl rfl ?_)
    | (refine Kept.litMem rfl rfl rfl rfl rfl rfl rfl rfl rfl rfl rfl ?_)

theorem closeWindows_kept (p : Nat) (s : State) {b0 : State} (h0s : Kept b0 s) : Kept b0 (closeWindows p s) := by
  dsimp only [closeWindows]
  repeat' first
    | with_reducible assumption
    | intro _
    | with_reducible apply foldState_kept
    | with_reducible apply modEcc_kept
    | with_reducible apply ite_kept

theorem endTeardown_kept (p : Nat) (s : State) {b0 : State} (h0s : Kept b0 s) : Kept b0 (endTeardown p s) := by
  dsimp only [endTeardown]
  repeat' first
    | with_reducible assumption
    | intro _
    | with_reducible apply modPart_kept
    | with_reducible apply drainEngines_kept
    | with_reducible apply releaseFrames_kept
    | with_reducible apply routePart_kept
    | with_reducible apply clearSems_kept
    | with_reducible apply releaseChunks_kept
    | with_reducible apply dropHeld_kept
    | with_reducible apply closeWindows_kept
    | with_reducible apply ite_kept
    | split
    | (refine Kept.lit rfl rfl rfl rfl rfl rfl ?_)

theorem runPartCreate_kept (q : Req) (a : PartParams) (s : State) {b0 : State} (h0s : Kept b0 s) : Kept b0 (runPartCreate q a s) := by
  dsimp only [runPartCreate]
  repeat' first
    | with_reducible assumption
    | intro _
    | with_reducible apply notTaken_kept
    | with_reducible apply answer_kept
    | with_reducible apply openRequest_kept
    | with_reducible apply createPart_kept
    | with_reducible apply ite_kept
    | split

theorem partCreateEffect_kept (q : Req) (a : PartParams) (s : State) {b0 : State} (h0s : Kept b0 s) : Kept b0 (partCreateEffect q a s) := by
  dsimp only [partCreateEffect]
  repeat' first
    | with_reducible assumption
    | intro _
    | with_reducible apply perform_kept
    | with_reducible apply arrive_kept
    | with_reducible apply runPartCreate_kept

theorem runPartTeardown_kept (q : Req) (p : Nat) (s : State) {b0 : State} (h0s : Kept b0 s) : Kept b0 (runPartTeardown q p s) := by
  dsimp only [runPartTeardown]
  repeat' first
    | with_reducible assumption
    | intro _
    | with_reducible apply answer_kept
    | with_reducible apply openRequest_kept
    | with_reducible apply beginTeardown_kept
    | with_reducible apply ite_kept

theorem partTeardownEffect_kept (q : Req) (p : Nat) (s : State) {b0 : State} (h0s : Kept b0 s) : Kept b0 (partTeardownEffect q p s) := by
  dsimp only [partTeardownEffect]
  repeat' first
    | with_reducible assumption
    | intro _
    | with_reducible apply perform_kept
    | with_reducible apply arrive_kept
    | with_reducible apply runPartTeardown_kept

theorem growPart_kept (p : Nat) (cores : W64) (slots : Nat) (choice : List (Nat × Bool)) (s : State) {b0 : State} (h0s : Kept b0 s) : Kept b0 (growPart p cores slots choice s) := by
  dsimp only [growPart]
  repeat' first
    | with_reducible assumption
    | intro _
    | with_reducible apply foldState_kept
    | with_reducible apply modPart_kept
    | with_reducible apply setEvRoute_kept
    | with_reducible apply putEntries_kept
    | with_reducible apply moveRange_kept
    | with_reducible apply serveDown_kept

theorem runPartGrow_kept (q : Req) (p : Nat) (cores : W64) (chunks slots : Nat) (choice : List (Nat × Bool)) (s : State) {b0 : State} (h0s : Kept b0 s) : Kept b0 (runPartGrow q p cores chunks slots choice s) := by
  dsimp only [runPartGrow]
  repeat' first
    | with_reducible assumption
    | intro _
    | with_reducible apply notTaken_kept
    | with_reducible apply answer_kept
    | with_reducible apply growPart_kept
    | with_reducible apply ite_kept

theorem partGrowEffect_kept (q : Req) (p : Nat) (cores : W64) (chunks slots : Nat) (choice : List (Nat × Bool)) (s : State) {b0 : State} (h0s : Kept b0 s) : Kept b0 (partGrowEffect q p cores chunks slots choice s) := by
  dsimp only [partGrowEffect]
  repeat' first
    | with_reducible assumption
    | intro _
    | with_reducible apply perform_kept
    | with_reducible apply arrive_kept
    | with_reducible apply runPartGrow_kept

theorem shrinkPart_kept (p : Nat) (cores : W64) (s : State) {b0 : State} (h0s : Kept b0 s) : Kept b0 (shrinkPart p cores s) := by
  dsimp only [shrinkPart]
  repeat' first
    | with_reducible assumption
    | intro _
    | with_reducible apply foldState_kept
    | with_reducible apply modPart_kept
    | with_reducible apply modSpad_kept
    | with_reducible apply setEvRoute_kept
    | with_reducible apply serveIndex_kept

theorem runPartShrink_kept (q : Req) (p : Nat) (cores : W64) (s : State) {b0 : State} (h0s : Kept b0 s) : Kept b0 (runPartShrink q p cores s) := by
  dsimp only [runPartShrink]
  repeat' first
    | with_reducible assumption
    | intro _
    | with_reducible apply answer_kept
    | with_reducible apply shrinkPart_kept
    | with_reducible apply ite_kept

theorem partShrinkEffect_kept (q : Req) (p : Nat) (cores : W64) (s : State) {b0 : State} (h0s : Kept b0 s) : Kept b0 (partShrinkEffect q p cores s) := by
  dsimp only [partShrinkEffect]
  repeat' first
    | with_reducible assumption
    | intro _
    | with_reducible apply perform_kept
    | with_reducible apply arrive_kept
    | with_reducible apply runPartShrink_kept

theorem runFnAssign_kept (q : Req) (p firstVf nvf : Nat) (pf pfb remove : Bool) (s : State) {b0 : State} (h0s : Kept b0 s) : Kept b0 (runFnAssign q p firstVf nvf pf pfb remove s) := by
  dsimp only [runFnAssign]
  repeat' first
    | with_reducible assumption
    | intro _
    | with_reducible apply foldState_kept
    | with_reducible apply modFn_kept
    | with_reducible apply answer_kept
    | with_reducible apply ite_kept

theorem fnAssignEffect_kept (q : Req) (p firstVf nvf : Nat) (pf pfb remove : Bool) (s : State) {b0 : State} (h0s : Kept b0 s) : Kept b0 (fnAssignEffect q p firstVf nvf pf pfb remove s) := by
  dsimp only [fnAssignEffect]
  repeat' first
    | with_reducible assumption
    | intro _
    | with_reducible apply perform_kept
    | with_reducible apply arrive_kept
    | with_reducible apply runFnAssign_kept

theorem runPlaneMode_kept (q : Req) (v : W64) (s : State) {b0 : State} (h0s : Kept b0 s) : Kept b0 (runPlaneMode q v s) := by
  dsimp only [runPlaneMode]
  repeat' first
    | with_reducible assumption
    | intro _
    | with_reducible apply answer_kept
    | with_reducible apply ite_kept
    | split
    | (refine Kept.lit rfl rfl rfl rfl rfl rfl ?_)
    | (refine Kept.litMem rfl rfl rfl rfl rfl rfl rfl rfl rfl rfl rfl ?_)

theorem planeModeEffect_kept (q : Req) (v : W64) (s : State) {b0 : State} (h0s : Kept b0 s) : Kept b0 (planeModeEffect q v s) := by
  dsimp only [planeModeEffect]
  repeat' first
    | with_reducible assumption
    | intro _
    | with_reducible apply perform_kept
    | with_reducible apply arrive_kept
    | with_reducible apply runPlaneMode_kept

theorem setPortEn_kept (pt : Nat) (en : Bool) (s : State) {b0 : State} (h0s : Kept b0 s) : Kept b0 (setPortEn pt en s) := by
  dsimp only [setPortEn]
  repeat' first
    | with_reducible assumption
    | intro _
    | with_reducible apply modPort_kept
    | with_reducible apply portDown_kept
    | with_reducible apply portEnable_kept
    | with_reducible apply ite_kept

theorem runFabricCfg_kept (q : Req) (a : FabricCfg) (s : State) {b0 : State} (h0s : Kept b0 s) : Kept b0 (runFabricCfg q a s) := by
  dsimp only [runFabricCfg]
  repeat' first
    | with_reducible assumption
    | intro _
    | (show Kept _ _; assumption)
    | with_reducible apply modPart_kept
    | with_reducible apply modPort_kept
    | with_reducible apply settleIdle_kept
    | with_reducible apply answer_kept
    | with_reducible apply setPortEn_kept
    | with_reducible apply ite_kept
    | split
    | (refine Kept.lit rfl rfl rfl rfl rfl rfl ?_)

theorem fabricCfgEffect_kept (q : Req) (a : FabricCfg) (s : State) {b0 : State} (h0s : Kept b0 s) : Kept b0 (fabricCfgEffect q a s) := by
  dsimp only [fabricCfgEffect]
  repeat' first
    | with_reducible assumption
    | intro _
    | with_reducible apply perform_kept
    | with_reducible apply arrive_kept
    | with_reducible apply runFabricCfg_kept

theorem runEccTest_kept (q : Req) (p st chunk : Nat) (opening : Bool) (s : State) {b0 : State} (h0s : Kept b0 s) : Kept b0 (runEccTest q p st chunk opening s) := by
  dsimp only [runEccTest]
  repeat' first
    | with_reducible assumption
    | intro _
    | with_reducible apply modEcc_kept
    | with_reducible apply wipeChunk_kept
    | with_reducible apply answer_kept
    | with_reducible apply ite_kept

theorem eccTestEffect_kept (q : Req) (p st chunk : Nat) (opening : Bool) (s : State) {b0 : State} (h0s : Kept b0 s) : Kept b0 (eccTestEffect q p st chunk opening s) := by
  dsimp only [eccTestEffect]
  repeat' first
    | with_reducible assumption
    | intro _
    | with_reducible apply perform_kept
    | with_reducible apply arrive_kept
    | with_reducible apply runEccTest_kept

theorem runFwUpdate_kept (q : Req) (l : List Image) (s : State) {b0 : State} (h0s : Kept b0 s) : Kept b0 (runFwUpdate q l s) := by
  dsimp only [runFwUpdate]
  repeat' first
    | with_reducible assumption
    | intro _
    | with_reducible apply answer_kept
    | with_reducible apply ite_kept
    | split
    | (refine Kept.lit rfl rfl rfl rfl rfl rfl ?_)

theorem fwUpdateEffect_kept (q : Req) (l : List Image) (s : State) {b0 : State} (h0s : Kept b0 s) : Kept b0 (fwUpdateEffect q l s) := by
  dsimp only [fwUpdateEffect]
  repeat' first
    | with_reducible assumption
    | intro _
    | with_reducible apply perform_kept
    | with_reducible apply arrive_kept
    | with_reducible apply runFwUpdate_kept

theorem commitSvns_kept (sl : FwSlot) (s : State) {b0 : State} (h0 : Kept b0 s) : Kept b0 (commitSvns sl s) := by
  unfold commitSvns
  refine foldState_kept _ _ ?_ h0
  intro t u h
  refine h.trans ⟨rfl, ⟨id, Iff.rfl, Nat.le_refl _, fun a b => absurd (a.symm.trans b) (by decide), fun _ => id, ?_⟩, id⟩
  intro k
  simp only [tabGet_tabSet]
  split
  · subst k
    simp only [BitVec.toNat_ofNat]
    have h1 := (tabGet 0 u.sec.minSvn t).isLt
    have h2 : Nat.max (minSvn u t) (Nat.min 63 (imgSvn (slotImage sl t))) < 2 ^ 6 :=
      Nat.max_lt.2 ⟨h1, Nat.lt_of_le_of_lt (Nat.min_le_left _ _) (by decide)⟩
    rw [Nat.mod_eq_of_lt h2]
    exact Nat.le_max_left _ _
  · exact Nat.le_refl _

theorem runFwActivate_kept (q : Req) (slotB commit : Bool) (revoke : Option Nat) (s : State) {b0 : State} (h0 : Kept b0 s) :
    Kept b0 (runFwActivate q slotB commit revoke s) := by
  unfold runFwActivate
  extract_lets sl refused _ s1 s2 s3
  have h1 : Kept b0 s1 := .lit rfl rfl rfl rfl rfl rfl h0
  have h2 : Kept b0 s2 := ite_kept (commitSvns_kept _ _ h1) h1
  refine ite_kept (answer_kept _ _ _ _ _ h0) (ite_kept (answer_kept _ _ _ _ _ h0) (answer_kept _ _ _ _ _ ?_))
  show Kept b0 (match revoke with | none => s2 | some k => _)
  cases revoke with
  | none => exact h2
  | some k =>
    refine h2.trans ⟨rfl, ⟨id, Iff.rfl, Nat.le_refl _, fun h g => absurd (h.symm.trans g) (by decide), fun j h => ?_, fun _ => Nat.le_refl _⟩, id⟩
    show ((s2.sec.revoked ||| _).getLsbD j) = true
    simp [h]

theorem fwActivateEffect_kept (q : Req) (slotB commit : Bool) (revoke : Option Nat) (s : State) {b0 : State} (h0s : Kept b0 s) : Kept b0 (fwActivateEffect q slotB commit revoke s) := by
  dsimp only [fwActivateEffect]
  repeat' first
    | with_reducible assumption
    | intro _
    | with_reducible apply perform_kept
    | with_reducible apply arrive_kept
    | with_reducible apply runFwActivate_kept

theorem beginReset_fuses (k : Nat) (s : State) : FusesForward s.sec (beginReset k s).sec := (beginReset_kept k s (.refl s)).fuses

theorem changeState_kept (lc : BitVec 2) (s : State) {b0 : State} (h0 : Kept b0 { s with sec := { s.sec with lc := lc } }) :
    Kept b0 (changeState lc s) := beginReset_kept _ _ h0

theorem runLifecycle_kept (q : Req) (target : Nat) (s : State) {b0 : State} (h0 : Kept b0 s) : Kept b0 (runLifecycle q target s) := by
  unfold runLifecycle
  refine ite_kept (answer_kept _ _ _ _ _ h0) ?_
  split
  · rename_i h
    refine changeState_kept _ _ (h0.trans ?_)
    have k := answer_kept 11 q .done 0 { s with sec := { s.sec with ownerKey := none, cert1 := [], releases := s.sec.releases - 1 } } (.refl _)
    have r : (s.sec.releases - 1).toNat < s.sec.releases.toNat := by
      have h1 := h.2.2; revert h1; generalize s.sec.releases = v; revert v; decide
    refine ⟨k.queue, ⟨fun a => absurd (h.1.symm.trans a) (by decide), ⟨fun a => absurd (show (1 : BitVec 2) = 0 from a) (by decide), fun a => absurd (h.1.symm.trans a) (by decide)⟩, ?_, ?_, ?_, ?_⟩, k.mem⟩
    · exact Nat.le_trans k.fuses.releases (Nat.le_of_lt r)
    · intro _ _; exact Nat.lt_of_le_of_lt k.fuses.releases r
    · exact k.fuses.revoked
    · exact k.fuses.svn
  · split
    · rename_i h
      refine changeState_kept _ _ (h0.trans ?_)
      have k := answer_kept 11 q .done 0 { s with sec := { s.sec with identity := none } } (.refl _)
      refine ⟨k.queue, ⟨fun _ => rfl, ⟨fun a => absurd (show (3 : BitVec 2) = 0 from a) (by decide), fun a => ?_⟩, k.fuses.releases, fun _ b => absurd (show (3 : BitVec 2) = 1 from b) (by decide), k.fuses.revoked, k.fuses.svn⟩, k.mem⟩
      rcases h.2 with h | h <;> exact absurd (h.symm.trans a) (by decide)
    · exact answer_kept _ _ _ _ _ h0

theorem lifecycleEffect_kept (q : Req) (target : Nat) (s : State) {b0 : State} (h0s : Kept b0 s) : Kept b0 (lifecycleEffect q target s) := by
  dsimp only [lifecycleEffect]
  repeat' first
    | with_reducible assumption
    | intro _
    | with_reducible apply perform_kept
    | with_reducible apply arrive_kept
    | with_reducible apply runLifecycle_kept

theorem runReset_kept (q : Req) (s : State) {b0 : State} (h0s : Kept b0 s) : Kept b0 (runReset q s) := by
  dsimp only [runReset]
  repeat' first
    | with_reducible assumption
    | intro _
    | with_reducible apply beginReset_kept
    | with_reducible apply answer_kept

theorem resetEffect_kept (q : Req) (s : State) {b0 : State} (h0s : Kept b0 s) : Kept b0 (resetEffect q s) := by
  dsimp only [resetEffect]
  repeat' first
    | with_reducible assumption
    | intro _
    | with_reducible apply perform_kept
    | with_reducible apply arrive_kept
    | with_reducible apply runReset_kept

theorem runOwnerInstall_kept (q : Req) (key : List Byte) (s : State) {b0 : State} (h0 : Kept b0 s) : Kept b0 (runOwnerInstall q key s) := by
  unfold runOwnerInstall
  split
  · exact answer_kept _ _ _ _ _ h0
  · split
    · exact answer_kept _ _ _ _ _ h0
    · rename_i h
      refine changeState_kept _ _ (h0.trans ?_)
      have k := answer_kept 13 q .done 0 { s with sec := { s.sec with ownerKey := some key } } (.refl _)
      have e : s.sec.lc = 1 := Decidable.not_not.1 h
      exact ⟨k.queue, ⟨fun a => absurd (e.symm.trans a) (by decide), ⟨fun a => absurd (show (2 : BitVec 2) = 0 from a) (by decide), fun a => absurd (e.symm.trans a) (by decide)⟩, k.fuses.releases, fun a => absurd (e.symm.trans a) (by decide), k.fuses.revoked, k.fuses.svn⟩, k.mem⟩

theorem ownerInstallEffect_kept (q : Req) (key : List Byte) (s : State) {b0 : State} (h0s : Kept b0 s) : Kept b0 (ownerInstallEffect q key s) := by
  dsimp only [ownerInstallEffect]
  repeat' first
    | with_reducible assumption
    | intro _
    | with_reducible apply perform_kept
    | with_reducible apply arrive_kept
    | with_reducible apply runOwnerInstall_kept

theorem runCertInstall_kept (q : Req) (chain : List Byte) (ok : Bool) (s : State) {b0 : State} (h0s : Kept b0 s) : Kept b0 (runCertInstall q chain ok s) := by
  dsimp only [runCertInstall]
  repeat' first
    | with_reducible assumption
    | intro _
    | with_reducible apply answer_kept
    | with_reducible apply ite_kept
    | split
    | (refine Kept.lit rfl rfl rfl rfl rfl rfl ?_)

theorem certInstallEffect_kept (q : Req) (chain : List Byte) (ok : Bool) (s : State) {b0 : State} (h0s : Kept b0 s) : Kept b0 (certInstallEffect q chain ok s) := by
  dsimp only [certInstallEffect]
  repeat' first
    | with_reducible assumption
    | intro _
    | with_reducible apply perform_kept
    | with_reducible apply arrive_kept
    | with_reducible apply runCertInstall_kept

theorem runBindFunction_kept (q : Req) (f : Nat) (s : State) {b0 : State} (h0s : Kept b0 s) : Kept b0 (runBindFunction q f s) := by
  dsimp only [runBindFunction]
  repeat' first
    | with_reducible assumption
    | intro _
    | with_reducible apply modFn_kept
    | with_reducible apply respond_kept
    | with_reducible apply ite_kept
    | split
    | (refine Kept.lit rfl rfl rfl rfl rfl rfl ?_)

theorem bindFunctionEffect_kept (q : Req) (f : Nat) (s : State) {b0 : State} (h0s : Kept b0 s) : Kept b0 (bindFunctionEffect q f s) := by
  dsimp only [bindFunctionEffect]
  repeat' first
    | with_reducible assumption
    | intro _
    | with_reducible apply arrive_kept
    | with_reducible apply runBindFunction_kept

theorem runRequest_kept (i : Instr) (s : State) {b0 : State} (h0s : Kept b0 s) : Kept b0 (runRequest i s) := by
  dsimp only [runRequest]
  repeat' first
    | with_reducible assumption
    | intro _
    | with_reducible apply perform_kept
    | with_reducible apply runPartCreate_kept
    | with_reducible apply runPartTeardown_kept
    | with_reducible apply runPartGrow_kept
    | with_reducible apply runPartShrink_kept
    | with_reducible apply runFnAssign_kept
    | with_reducible apply runPlaneMode_kept
    | with_reducible apply runFabricCfg_kept
    | with_reducible apply runEccTest_kept
    | with_reducible apply runFwUpdate_kept
    | with_reducible apply runFwActivate_kept
    | with_reducible apply runLifecycle_kept
    | with_reducible apply runReset_kept
    | with_reducible apply runOwnerInstall_kept
    | with_reducible apply runCertInstall_kept
    | with_reducible apply runBindFunction_kept
    | with_reducible apply ite_kept
    | split

theorem drainQueue_kept : ∀ (n : Nat) (s : State) {b0 : State}, Kept b0 s → Kept b0 (drainQueue n s) := by
  intro n
  induction n with
  | zero => intro s b0 h; exact h
  | succ n ih =>
    intro s b0 h
    unfold drainQueue
    split
    · exact h
    · split
      · exact h
      · exact ih _ (runRequest_kept _ _ (.lit rfl rfl rfl rfl rfl rfl h))

theorem closeAndDrain_kept (p : Nat) (s : State) {b0 : State} (h0s : Kept b0 s) : Kept b0 (closeAndDrain p s) := by
  dsimp only [closeAndDrain]
  repeat' first
    | with_reducible assumption
    | intro _
    | with_reducible apply closeReq_kept
    | with_reducible apply drainQueue_kept

theorem runtimeReadyEffect_kept (p : Nat) (s : State) {b0 : State} (h0s : Kept b0 s) : Kept b0 (runtimeReadyEffect p s) := by
  dsimp only [runtimeReadyEffect]
  repeat' first
    | with_reducible assumption
    | intro _
    | with_reducible apply foldState_kept
    | with_reducible apply notTaken_kept
    | with_reducible apply modFn_kept
    | with_reducible apply modPart_kept
    | with_reducible apply closeAndDrain_kept
    | with_reducible apply ite_kept
    | split
    | (refine Kept.lit rfl rfl rfl rfl rfl rfl ?_)

theorem teardownCompleteEffect_kept (p : Nat) (s : State) {b0 : State} (h0s : Kept b0 s) : Kept b0 (teardownCompleteEffect p s) := by
  dsimp only [teardownCompleteEffect]
  repeat' first
    | with_reducible assumption
    | intro _
    | with_reducible apply notTaken_kept
    | with_reducible apply endTeardown_kept
    | with_reducible apply closeAndDrain_kept
    | with_reducible apply ite_kept

theorem updateCapOver_kept (s : State) {b0 : State} (h0s : Kept b0 s) : Kept b0 (updateCapOver s) := by
  dsimp only [updateCapOver]
  repeat' first
    | with_reducible assumption
    | intro _
    | with_reducible apply raise_kept
    | with_reducible apply ite_kept
    | split
    | (refine Kept.lit rfl rfl rfl rfl rfl rfl ?_)

theorem powerSampleEffect_kept (watts : Nat) (s : State) {b0 : State} (h0s : Kept b0 s) : Kept b0 (powerSampleEffect watts s) := by
  dsimp only [powerSampleEffect]
  repeat' first
    | with_reducible assumption
    | intro _
    | with_reducible apply notTaken_kept
    | with_reducible apply updateCapOver_kept
    | with_reducible apply ite_kept
    | split
    | (refine Kept.lit rfl rfl rfl rfl rfl rfl ?_)

theorem newInterval_kept (s : State) {b0 : State} (h0s : Kept b0 s) : Kept b0 (newInterval s) := by
  dsimp only [newInterval]
  repeat' first
    | with_reducible assumption
    | intro _
    | with_reducible apply ite_kept
    | split
    | (refine Kept.lit rfl rfl rfl rfl rfl rfl ?_)

theorem energyIntervalEffect_kept (measured : Nat) (parts : List (Nat × Nat)) (rings : List (Nat × Nat × Nat)) (s : State) {b0 : State} (h0s : Kept b0 s) : Kept b0 (energyIntervalEffect measured parts rings s) := by
  dsimp only [energyIntervalEffect]
  repeat' first
    | with_reducible assumption
    | intro _
    | with_reducible apply foldState_kept
    | with_reducible apply notTaken_kept
    | with_reducible apply modRing_kept
    | with_reducible apply modPart_kept
    | with_reducible apply newInterval_kept
    | with_reducible apply ite_kept
    | split
    | (refine Kept.lit rfl rfl rfl rfl rfl rfl ?_)

theorem pwrCtrlWriteEffect_kept (v : W32) (s : State) {b0 : State} (h0s : Kept b0 s) : Kept b0 (pwrCtrlWriteEffect v s) := by
  dsimp only [pwrCtrlWriteEffect]
  repeat' first
    | with_reducible assumption
    | intro _
    | with_reducible apply notTaken_kept
    | with_reducible apply badAccess_kept
    | with_reducible apply ite_kept
    | split
    | (refine Kept.lit rfl rfl rfl rfl rfl rfl ?_)

theorem powerControlStepEffect_kept (s : State) {b0 : State} (h0s : Kept b0 s) : Kept b0 (powerControlStepEffect s) := by
  dsimp only [powerControlStepEffect, draw]
  repeat' first
    | with_reducible assumption
    | intro _
    | with_reducible apply notTaken_kept
    | (with_reducible refine draw_kept (by assumption) ?_)
    | with_reducible apply updateCapOver_kept
    | with_reducible apply ite_kept
    | split
    | (refine Kept.lit rfl rfl rfl rfl rfl rfl ?_)

theorem throttleStepEffect_kept (s : State) {b0 : State} (h0s : Kept b0 s) : Kept b0 (throttleStepEffect s) := by
  dsimp only [throttleStepEffect]
  repeat' first
    | with_reducible assumption
    | intro _
    | with_reducible apply notTaken_kept
    | with_reducible apply raise_kept
    | with_reducible apply ite_kept
    | split
    | (refine Kept.lit rfl rfl rfl rfl rfl rfl ?_)

theorem throttleRecoveryEffect_kept (s : State) {b0 : State} (h0s : Kept b0 s) : Kept b0 (throttleRecoveryEffect s) := by
  dsimp only [throttleRecoveryEffect]
  repeat' first
    | with_reducible assumption
    | intro _
    | with_reducible apply notTaken_kept
    | with_reducible apply raise_kept
    | with_reducible apply ite_kept
    | split
    | (refine Kept.lit rfl rfl rfl rfl rfl rfl ?_)

theorem warnEvent_kept (before : Bool) (old new : SensorState) (s : State) {b0 : State} (h0s : Kept b0 s) : Kept b0 (warnEvent before old new s) := by
  dsimp only [warnEvent]
  repeat' first
    | with_reducible assumption
    | intro _
    | with_reducible apply raise_kept
    | with_reducible apply ite_kept

theorem updateBand_kept (n : Nat) (s : State) {b0 : State} (h0s : Kept b0 s) : Kept b0 (updateBand n s) := by
  dsimp only [updateBand]
  repeat' first
    | with_reducible assumption
    | intro _
    | with_reducible apply ite_kept
    | split
    | (refine Kept.lit rfl rfl rfl rfl rfl rfl ?_)
    | (refine Kept.litMem rfl rfl rfl rfl rfl rfl rfl rfl rfl rfl rfl ?_)

theorem sensorSampleEffect_kept (n : Nat) (t : BitVec 16) (s : State) {b0 : State} (h0s : Kept b0 s) : Kept b0 (sensorSampleEffect n t s) := by
  dsimp only [sensorSampleEffect]
  repeat' first
    | with_reducible assumption
    | intro _
    | with_reducible apply notTaken_kept
    | with_reducible apply modSensor_kept
    | with_reducible apply moduleStop_kept
    | with_reducible apply warnEvent_kept
    | with_reducible apply updateBand_kept
    | with_reducible apply ite_kept

theorem sensorBroken_kept (n : Nat) (s : State) {b0 : State} (h0s : Kept b0 s) : Kept b0 (sensorBroken n s) := by
  dsimp only [sensorBroken]
  repeat' first
    | with_reducible assumption
    | intro _
    | with_reducible apply modSensor_kept
    | with_reducible apply moduleStop_kept
    | with_reducible apply ite_kept

theorem sensorSelfCheckEffect_kept (n : Nat) (ok : Bool) (s : State) {b0 : State} (h0s : Kept b0 s) : Kept b0 (sensorSelfCheckEffect n ok s) := by
  dsimp only [sensorSelfCheckEffect]
  repeat' first
    | with_reducible assumption
    | intro _
    | with_reducible apply notTaken_kept
    | with_reducible apply modSensor_kept
    | with_reducible apply sensorBroken_kept
    | with_reducible apply ite_kept

theorem sensorStaleTimeoutEffect_kept (n : Nat) (s : State) {b0 : State} (h0s : Kept b0 s) : Kept b0 (sensorStaleTimeoutEffect n s) := by
  dsimp only [sensorStaleTimeoutEffect]
  repeat' first
    | with_reducible assumption
    | intro _
    | with_reducible apply when_kept
    | with_reducible apply sensorBroken_kept

theorem pollSensor_kept (e : Nat × Option (BitVec 16)) (s : State) {b0 : State} (h0s : Kept b0 s) : Kept b0 (pollSensor e s) := by
  dsimp only [pollSensor]
  repeat' first
    | with_reducible assumption
    | intro _
    | with_reducible apply modSensor_kept

theorem stoppedSensorPollEffect_kept (l : List (Nat × Option (BitVec 16))) (s : State) {b0 : State} (h0s : Kept b0 s) : Kept b0 (stoppedSensorPollEffect l s) := by
  dsimp only [stoppedSensorPollEffect]
  repeat' first
    | with_reducible assumption
    | intro _
    | with_reducible apply foldState_kept
    | with_reducible apply when_kept
    | with_reducible apply pollSensor_kept

theorem thermalRestartEffect_kept (s : State) {b0 : State} (h0s : Kept b0 s) : Kept b0 (thermalRestartEffect s) := by
  dsimp only [thermalRestartEffect, draw]
  repeat' first
    | with_reducible assumption
    | intro _
    | with_reducible apply notTaken_kept
    | (with_reducible refine draw_kept (by assumption) ?_)
    | with_reducible apply powerUp_kept
    | with_reducible apply ite_kept
    | split
    | (refine Kept.lit rfl rfl rfl rfl rfl rfl ?_)

theorem coolantOkDeassertEffect_kept (s : State) {b0 : State} (h0s : Kept b0 s) : Kept b0 (coolantOkDeassertEffect s) := by
  dsimp only [coolantOkDeassertEffect]
  repeat' first
    | with_reducible assumption
    | intro _
    | with_reducible apply ite_kept
    | split
    | (refine Kept.lit rfl rfl rfl rfl rfl rfl ?_)

theorem coolantOkTimeoutEffect_kept (s : State) {b0 : State} (h0s : Kept b0 s) : Kept b0 (coolantOkTimeoutEffect s) := by
  dsimp only [coolantOkTimeoutEffect]
  repeat' first
    | with_reducible assumption
    | intro _
    | with_reducible apply when_kept
    | with_reducible apply moduleStop_kept

theorem coolantOkAssertEffect_kept (s : State) {b0 : State} (h0s : Kept b0 s) : Kept b0 (coolantOkAssertEffect s) := by
  dsimp only [coolantOkAssertEffect]
  repeat' first
    | with_reducible assumption
    | intro _
    | with_reducible apply ite_kept
    | split
    | (refine Kept.lit rfl rfl rfl rfl rfl rfl ?_)

theorem coolantOkQualifiedEffect_kept (s : State) {b0 : State} (h0s : Kept b0 s) : Kept b0 (coolantOkQualifiedEffect s) := by
  dsimp only [coolantOkQualifiedEffect]
  repeat' first
    | with_reducible assumption
    | intro _
    | with_reducible apply when_kept
    | with_reducible apply setPhase_kept
    | with_reducible apply ite_kept
    | split
    | (refine Kept.lit rfl rfl rfl rfl rfl rfl ?_)

theorem upsetWord_kept (g off : Nat) (s : State) {b0 : State} (h0s : Kept b0 s) : Kept b0 (upsetWord g off s) := by
  dsimp only [upsetWord, draw]
  repeat' first
    | with_reducible assumption
    | intro _
    | (with_reducible refine draw_kept (by assumption) ?_)
    | with_reducible apply putRaw_kept
    | with_reducible apply ite_kept
    | split
    | (refine Kept.lit rfl rfl rfl rfl rfl rfl ?_)

theorem hardFault_kept (g off : Nat) (s : State) {b0 : State} (h0s : Kept b0 s) : Kept b0 (hardFault g off s) := by
  dsimp only [hardFault]
  repeat' first
    | with_reducible assumption
    | intro _
    | with_reducible apply foldState_kept
    | with_reducible apply loseWord_kept
    | with_reducible apply faultAffects_kept
    | with_reducible apply putPoison_kept
    | with_reducible apply retireAt_kept
    | with_reducible apply ite_kept
    | split
    | (refine Kept.lit rfl rfl rfl rfl rfl rfl ?_)
    | (refine Kept.litMem rfl rfl rfl rfl rfl rfl rfl rfl rfl rfl rfl ?_)

theorem farFault_kept (q a : Nat) (s : State) {b0 : State} (h0 : Kept b0 s) : Kept b0 (farFault q a s) := by
  dsimp only [farFault]
  refine faultAffects_kept _ _ _ _ _ _ (foldState_kept _ _ (fun p t h => loseWord_kept _ _ _ _ _ h) (modFarPort_kept _ _ _ ?_))
  refine .memWf (u := s) rfl rfl rfl rfl rfl id id id id ?_ id h0
  intro w; dsimp only; exact tabWf_tabSet _ _ _ _ w

theorem faultDetectedEffect_kept (i : FaultInfo) (s : State) {b0 : State} (h0s : Kept b0 s) : Kept b0 (faultDetectedEffect i s) := by
  dsimp only [faultDetectedEffect]
  repeat' first
    | with_reducible assumption
    | intro _
    | with_reducible apply notTaken_kept
    | with_reducible apply faultAffects_kept
    | with_reducible apply faultSettled_kept
    | with_reducible apply noteWord_kept
    | with_reducible apply rebuildEntry_kept
    | with_reducible apply unitFault_kept
    | with_reducible apply upsetWord_kept
    | with_reducible apply hardFault_kept
    | with_reducible apply farFault_kept
    | with_reducible apply ite_kept
    | split

theorem saffronWatchdogEffect_kept (n : Nat) (s : State) {b0 : State} (h0s : Kept b0 s) : Kept b0 (saffronWatchdogEffect n s) := by
  dsimp only [saffronWatchdogEffect]
  repeat' first
    | with_reducible assumption
    | intro _
    | with_reducible apply when_kept
    | with_reducible apply unitFault_kept

theorem moverWatchdogEffect_kept (m : Nat) (s : State) {b0 : State} (h0s : Kept b0 s) : Kept b0 (moverWatchdogEffect m s) := by
  dsimp only [moverWatchdogEffect]
  repeat' first
    | with_reducible assumption
    | intro _
    | with_reducible apply when_kept
    | with_reducible apply unitFault_kept

theorem stackControllerWatchdogEffect_kept (st : Nat) (s : State) {b0 : State} (h0s : Kept b0 s) : Kept b0 (stackControllerWatchdogEffect st s) := by
  dsimp only [stackControllerWatchdogEffect]
  repeat' first
    | with_reducible assumption
    | intro _
    | with_reducible apply when_kept
    | with_reducible apply faultAffects_kept

theorem cloveHangWatchdogEffect_kept (g : Nat) (s : State) {b0 : State} (h0s : Kept b0 s) : Kept b0 (cloveHangWatchdogEffect g s) := by
  dsimp only [cloveHangWatchdogEffect]
  repeat' first
    | with_reducible assumption
    | intro _
    | with_reducible apply when_kept
    | with_reducible apply unitFault_kept

theorem heartbeatTimeoutEffect_kept (ac p : Nat) (s : State) {b0 : State} (h0s : Kept b0 s) : Kept b0 (heartbeatTimeoutEffect ac p s) := by
  dsimp only [heartbeatTimeoutEffect]
  repeat' first
    | with_reducible assumption
    | intro _
    | with_reducible apply when_kept
    | with_reducible apply unitFault_kept

theorem groupRecoveryEffect_kept (p : Nat) (s : State) {b0 : State} (h0s : Kept b0 s) : Kept b0 (groupRecoveryEffect p s) := by
  dsimp only [groupRecoveryEffect]
  repeat' first
    | with_reducible assumption
    | intro _
    | with_reducible apply foldState_kept
    | with_reducible apply when_kept
    | with_reducible apply settleWaits_kept
    | with_reducible apply replaceRetired_kept
    | with_reducible apply recoverJob_kept

theorem sumacLockstepRestartEffect_kept (s : State) {b0 : State} (h0s : Kept b0 s) : Kept b0 (sumacLockstepRestartEffect s) := by
  dsimp only [sumacLockstepRestartEffect]
  repeat' first
    | with_reducible assumption
    | intro _
    | with_reducible apply when_kept
    | with_reducible apply faultSettled_kept
    | with_reducible apply ite_kept
    | split
    | (refine Kept.lit rfl rfl rfl rfl rfl rfl ?_)

theorem swapCore_kept (p n : Nat) (e : Nat × CoreImage) (s : State) {b0 : State} (h0s : Kept b0 s) : Kept b0 (swapCore p n e s) := by
  dsimp only [swapCore]
  repeat' first
    | with_reducible assumption
    | intro _
    | with_reducible apply modPart_kept
    | with_reducible apply modCore_kept
    | with_reducible apply modSpad_kept
    | with_reducible apply raise_kept
    | with_reducible apply dropAsk_kept
    | with_reducible apply settleWaits_kept
    | with_reducible apply noteStop_kept
    | with_reducible apply stopWait_kept

theorem coreAlternationTimeoutEffect_kept (p : Nat) (s : State) {b0 : State} (h0s : Kept b0 s) : Kept b0 (coreAlternationTimeoutEffect p s) := by
  dsimp only [coreAlternationTimeoutEffect]
  repeat' first
    | with_reducible assumption
    | intro _
    | with_reducible apply when_kept
    | with_reducible apply notTaken_kept
    | with_reducible apply swapCore_kept
    | with_reducible apply ite_kept
    | split

theorem ringOffWrite_kept (f r : Nat) (g : Ring → Ring) (s : State) {b0 : State} (h0s : Kept b0 s) : Kept b0 (ringOffWrite f r g s) := by
  dsimp only [ringOffWrite]
  repeat' first
    | with_reducible assumption
    | intro _
    | with_reducible apply modRing_kept
    | with_reducible apply ite_kept

theorem bufFreeWrite_kept (f b : Nat) (g : Buffer → Buffer) (s : State) {b0 : State} (h0s : Kept b0 s) : Kept b0 (bufFreeWrite f b g s) := by
  dsimp only [bufFreeWrite]
  repeat' first
    | with_reducible assumption
    | intro _
    | with_reducible apply modBuf_kept
    | with_reducible apply ite_kept

theorem eccWrite_kept (st : Nat) (g : EccTest → EccTest) (s : State) {b0 : State} (h0s : Kept b0 s) : Kept b0 (eccWrite st g s) := by
  dsimp only [eccWrite]
  repeat' first
    | with_reducible assumption
    | intro _
    | with_reducible apply modEcc_kept
    | with_reducible apply ite_kept

theorem write64_kept (f off x : Nat) (s : State) {b0 : State} (h0s : Kept b0 s) : Kept b0 (write64 f off x s) := by
  dsimp only [write64]
  repeat' first
    | with_reducible assumption
    | intro _
    | with_reducible apply modVec_kept
    | with_reducible apply ringOffWrite_kept
    | with_reducible apply bufFreeWrite_kept
    | with_reducible apply eccWrite_kept
    | with_reducible apply ite_kept
    | split

theorem setWbuf_kept (f off : Nat) (v : Option W32) (s : State) {b0 : State} (h0s : Kept b0 s) : Kept b0 (setWbuf f off v s) := by
  dsimp only [setWbuf]
  repeat' first
    | with_reducible assumption
    | intro _
    | with_reducible apply ite_kept
    | split
    | (refine Kept.lit rfl rfl rfl rfl rfl rfl ?_)

theorem setLatch_kept (f off : Nat) (v : Option W32) (s : State) {b0 : State} (h0s : Kept b0 s) : Kept b0 (setLatch f off v s) := by
  dsimp only [setLatch]
  repeat' first
    | with_reducible assumption
    | intro _
    | with_reducible apply ite_kept
    | split
    | (refine Kept.lit rfl rfl rfl rfl rfl rfl ?_)

theorem holdTimer_kept (k x : Nat) (s : State) {b0 : State} (h0s : Kept b0 s) : Kept b0 (holdTimer k x s) := by
  dsimp only [holdTimer]
  repeat' first
    | with_reducible assumption
    | intro _
    | with_reducible apply setClaim_kept
    | with_reducible apply ite_kept

theorem vecCtrl_kept {f v x : Nat} {s t b0 : State} (e : writeVecCtrl f v x s = some t) (h0 : Kept b0 s) : Kept b0 t := by
  unfold writeVecCtrl at e
  split at e <;> cases e
  exact modVec_kept _ _ _ _ h0

theorem fnWrite32_kept {f off x : Nat} {s t b0 : State} (e : fnWrite32 f off x s = some t) (h0 : Kept b0 s) : Kept b0 t := by
  unfold fnWrite32 at e
  repeat' split at e
  all_goals first
    | exact vecCtrl_kept e h0
    | (cases e; done)
    | (cases e; exact h0)
    | (cases e; exact modRing_kept _ _ _ _ h0)
    | (cases e; exact modVec_kept _ _ _ _ h0)

theorem pfWrite32_kept {off x : Nat} {s t b0 : State} (e : pfWrite32 off x s = some t) (h0 : Kept b0 s) : Kept b0 t := by
  unfold pfWrite32 at e
  repeat' split at e
  all_goals first
    | (cases e; done)
    | (cases e; exact h0)
    | (cases e; exact eccWrite_kept _ _ _ h0)
    | (cases e; exact .lit rfl rfl rfl rfl rfl rfl h0)

theorem sumacWrite32_kept {off x : Nat} {s t b0 : State} (e : sumacWrite32 off x s = some t) (h0 : Kept b0 s) : Kept b0 t := by
  unfold sumacWrite32 at e
  split at e
  · cases e; exact modGroup_kept _ _ _ h0
  · cases e; exact ite_kept h0 (holdTimer_kept _ _ _ (modGroup_kept _ _ _ h0))
  · cases e; exact ite_kept (setEvRoute_kept _ _ _ h0) h0
  · split at e <;> cases e
    exact h0

theorem registerWriteEffect_kept (f off width : Nat) (v : W64) (s : State) {b0 : State} (h0 : Kept b0 s) :
    Kept b0 (registerWriteEffect f off width v s) := by
  unfold registerWriteEffect
  split
  · split
    · exact getD_kept (fun t e => sumacWrite32_kept e h0) (notTaken_kept _ h0)
    · exact notTaken_kept _ h0
  · split
    · exact notTaken_kept _ h0
    · split
      · split
        · exact setWbuf_kept _ _ _ _ (write64_kept _ _ _ _ h0)
        · split
          · exact badAccess_kept _ _ h0
          · exact h0
      · split
        · refine getD_kept (fun t e => ?_) (notTaken_kept _ h0)
          unfold write32 at e
          split at e
          · exact pfWrite32_kept e h0
          · exact fnWrite32_kept e h0
        · split
          · exact notTaken_kept _ h0
          · exact h0

theorem badSizeEffect_kept (f bar off size : Nat) (s : State) {b0 : State} (h0s : Kept b0 s) : Kept b0 (badSizeEffect f bar off size s) := by
  dsimp only [badSizeEffect]
  repeat' first
    | with_reducible assumption
    | intro _
    | with_reducible apply when_kept
    | with_reducible apply setReply_kept
    | with_reducible apply badAccess_kept

theorem noteResidency_kept (f off : Nat) (s : State) {b0 : State} (h0s : Kept b0 s) : Kept b0 (noteResidency f off s) := by
  dsimp only [noteResidency]
  repeat' first
    | with_reducible assumption
    | intro _
    | with_reducible apply noteIdle_kept
    | with_reducible apply ite_kept

theorem halfReadLowEffect_kept (f : Nat) (off : ReadAt) (s : State) {b0 : State} (h0s : Kept b0 s) : Kept b0 (halfReadLowEffect f off s) := by
  dsimp only [halfReadLowEffect]
  repeat' first
    | with_reducible assumption
    | intro _
    | with_reducible apply setReply_kept
    | with_reducible apply notTaken_kept
    | with_reducible apply setLatch_kept
    | with_reducible apply noteResidency_kept
    | with_reducible apply ite_kept
    | split

theorem halfReadHighEffect_kept (f off : Nat) (s : State) {b0 : State} (h0s : Kept b0 s) : Kept b0 (halfReadHighEffect f off s) := by
  dsimp only [halfReadHighEffect]
  repeat' first
    | with_reducible assumption
    | intro _
    | with_reducible apply setReply_kept
    | with_reducible apply notTaken_kept
    | with_reducible apply setLatch_kept
    | with_reducible apply ite_kept
    | split

theorem halfWriteLowEffect_kept (f off : Nat) (v : W32) (s : State) {b0 : State} (h0s : Kept b0 s) : Kept b0 (halfWriteLowEffect f off v s) := by
  dsimp only [halfWriteLowEffect]
  repeat' first
    | with_reducible assumption
    | intro _
    | with_reducible apply notTaken_kept
    | with_reducible apply setWbuf_kept
    | with_reducible apply ite_kept
    | split

theorem halfWriteHighEffect_kept (f off : Nat) (v : W32) (s : State) {b0 : State} (h0s : Kept b0 s) : Kept b0 (halfWriteHighEffect f off v s) := by
  dsimp only [halfWriteHighEffect]
  repeat' first
    | with_reducible assumption
    | intro _
    | with_reducible apply notTaken_kept
    | with_reducible apply write64_kept
    | with_reducible apply setWbuf_kept
    | with_reducible apply ite_kept
    | split

theorem readDroppedDbEffect_kept (f : Nat) (s : State) {b0 : State} (h0s : Kept b0 s) : Kept b0 (readDroppedDbEffect f s) := by
  dsimp only [readDroppedDbEffect]
  repeat' first
    | with_reducible assumption
    | intro _
    | with_reducible apply when_kept
    | with_reducible apply setReply_kept
    | with_reducible apply modFn_kept

theorem readBadAccessEffect_kept (f : Nat) (s : State) {b0 : State} (h0s : Kept b0 s) : Kept b0 (readBadAccessEffect f s) := by
  dsimp only [readBadAccessEffect]
  repeat' first
    | with_reducible assumption
    | intro _
    | with_reducible apply when_kept
    | with_reducible apply setReply_kept
    | with_reducible apply modFn_kept

theorem readAtPowerUp_kept (e : Nat × Option (BitVec 16)) (s : State) {b0 : State} (h0s : Kept b0 s) : Kept b0 (readAtPowerUp e s) := by
  dsimp only [readAtPowerUp]
  repeat' first
    | with_reducible assumption
    | intro _
    | with_reducible apply modSensor_kept

theorem powerOnEffect_kept (straps : BitVec 5) (l : List (Nat × Option (BitVec 16))) (s : State) {b0 : State} (h0s : Kept b0 s) : Kept b0 (powerOnEffect straps l s) := by
  dsimp only [powerOnEffect]
  repeat' first
    | with_reducible assumption
    | intro _
    | with_reducible apply foldState_kept
    | with_reducible apply notTaken_kept
    | with_reducible apply coldState_kept
    | with_reducible apply moduleStop_kept
    | with_reducible apply readAtPowerUp_kept
    | with_reducible apply ite_kept
    | split
    | (refine Kept.lit rfl rfl rfl rfl rfl rfl ?_)

theorem undervoltageStopEffect_kept (s : State) {b0 : State} (h0s : Kept b0 s) : Kept b0 (undervoltageStopEffect s) := by
  dsimp only [undervoltageStopEffect]
  repeat' first
    | with_reducible assumption
    | intro _
    | with_reducible apply notTaken_kept
    | with_reducible apply coldState_kept
    | with_reducible apply ite_kept
    | split
    | (refine Kept.lit rfl rfl rfl rfl rfl rfl ?_)

theorem powerLossClearEffect_kept (s : State) {b0 : State} (h0s : Kept b0 s) : Kept b0 (powerLossClearEffect s) := by
  dsimp only [powerLossClearEffect]
  repeat' first
    | with_reducible assumption
    | intro _
    | with_reducible apply when_kept
    | with_reducible apply ite_kept
    | split
    | (refine Kept.lit rfl rfl rfl rfl rfl rfl ?_)

theorem railsGoodEffect_kept (s : State) {b0 : State} (h0s : Kept b0 s) : Kept b0 (railsGoodEffect s) := by
  dsimp only [railsGoodEffect]
  repeat' first
    | with_reducible assumption
    | intro _
    | with_reducible apply when_kept
    | with_reducible apply ite_kept
    | split
    | (refine Kept.lit rfl rfl rfl rfl rfl rfl ?_)

theorem perstAssertEffect_kept (second : Bool) (s : State) {b0 : State} (h0s : Kept b0 s) : Kept b0 (perstAssertEffect second s) := by
  dsimp only [perstAssertEffect]
  repeat' first
    | with_reducible assumption
    | intro _
    | with_reducible apply beginReset_kept
    | with_reducible apply ite_kept
    | split
    | (refine Kept.lit rfl rfl rfl rfl rfl rfl ?_)

theorem perstDeassertEffect_kept (second : Bool) (s : State) {b0 : State} (h0s : Kept b0 s) : Kept b0 (perstDeassertEffect second s) := by
  dsimp only [perstDeassertEffect]
  repeat' first
    | with_reducible assumption
    | intro _
    | with_reducible apply ite_kept
    | split
    | (refine Kept.lit rfl rfl rfl rfl rfl rfl ?_)

theorem resetReleaseEffect_kept (straps : BitVec 5) (s : State) {b0 : State} (h0s : Kept b0 s) : Kept b0 (resetReleaseEffect straps s) := by
  dsimp only [resetReleaseEffect]
  repeat' first
    | with_reducible assumption
    | intro _
    | with_reducible apply notTaken_kept
    | with_reducible apply coldState_kept
    | with_reducible apply ite_kept
    | split
    | (refine Kept.lit rfl rfl rfl rfl rfl rfl ?_)

theorem enumerateFar_kept (q : Nat) (s : State) {b0 : State} (h0s : Kept b0 s) : Kept b0 (enumerateFar q s) := by
  dsimp only [enumerateFar, draw]
  repeat' first
    | with_reducible assumption
    | intro _
    | (with_reducible refine draw_kept (by assumption) ?_)
    | with_reducible apply modFarPort_kept
    | with_reducible apply ite_kept
    | split
    | (refine Kept.lit rfl rfl rfl rfl rfl rfl ?_)

theorem chooseInterleave_kept (s : State) {b0 : State} (h0s : Kept b0 s) : Kept b0 (chooseInterleave s) := by
  dsimp only [chooseInterleave]
  repeat' first
    | with_reducible assumption
    | intro _
    | with_reducible apply ite_kept
    | split
    | (refine Kept.lit rfl rfl rfl rfl rfl rfl ?_)
    | (refine Kept.litMem rfl rfl rfl rfl rfl rfl rfl rfl rfl rfl rfl ?_)

theorem applyRetired_kept (s : State) {b0 : State} (h0s : Kept b0 s) : Kept b0 (applyRetired s) := by
  dsimp only [applyRetired]
  repeat' first
    | with_reducible assumption
    | intro _
    | with_reducible apply foldState_kept
    | with_reducible apply modFrame_kept
    | with_reducible apply retireFrames_kept
    | with_reducible apply ite_kept
    | split

theorem claimFarModes_kept (s : State) {b0 : State} (h0s : Kept b0 s) : Kept b0 (claimFarModes s) := by
  dsimp only [claimFarModes]
  repeat' first
    | with_reducible assumption
    | intro _
    | with_reducible apply setClaim_kept
    | with_reducible apply ite_kept

theorem pfReadyEffect_kept (s : State) {b0 : State} (h0s : Kept b0 s) : Kept b0 (pfReadyEffect s) := by
  dsimp only [pfReadyEffect]
  repeat' first
    | with_reducible assumption
    | intro _
    | with_reducible apply notTaken_kept
    | with_reducible apply bootImages_kept
    | with_reducible apply enumerateFar_kept
    | with_reducible apply chooseInterleave_kept
    | with_reducible apply applyRetired_kept
    | with_reducible apply claimFarModes_kept
    | with_reducible apply ite_kept
    | split
    | (refine Kept.lit rfl rfl rfl rfl rfl rfl ?_)

theorem configurationRequestEffect_kept (f : Nat) (d3hot : Option Bool) (s : State) {b0 : State} (h0s : Kept b0 s) : Kept b0 (configurationRequestEffect f d3hot s) := by
  dsimp only [configurationRequestEffect]
  repeat' first
    | with_reducible assumption
    | intro _
    | with_reducible apply setReply_kept
    | with_reducible apply notTaken_kept
    | with_reducible apply ite_kept
    | split
    | (refine Kept.lit rfl rfl rfl rfl rfl rfl ?_)

theorem stopFar_kept (q : Nat) (s : State) {b0 : State} (h0s : Kept b0 s) : Kept b0 (stopFar q s) := by
  dsimp only [stopFar]
  repeat' first
    | with_reducible assumption
    | intro _
    | with_reducible apply modFarPort_kept
    | with_reducible apply faultSettled_kept
    | with_reducible apply settleFarRecord_kept
    | with_reducible apply ite_kept

theorem stopPorts_kept (s : State) {b0 : State} (h0s : Kept b0 s) : Kept b0 (stopPorts s) := by
  dsimp only [stopPorts]
  repeat' first
    | with_reducible assumption
    | intro _
    | with_reducible apply foldState_kept
    | with_reducible apply portFailed_kept

theorem referenceClockLossEffect_kept (input : Nat) (s : State) {b0 : State} (h0s : Kept b0 s) : Kept b0 (referenceClockLossEffect input s) := by
  dsimp only [referenceClockLossEffect]
  repeat' first
    | with_reducible assumption
    | intro _
    | with_reducible apply stopFar_kept
    | with_reducible apply stopPorts_kept
    | with_reducible apply ite_kept
    | split
    | (refine Kept.lit rfl rfl rfl rfl rfl rfl ?_)

theorem idleStateEntryEffect_kept (s : State) {b0 : State} (h0s : Kept b0 s) : Kept b0 (idleStateEntryEffect s) := by
  dsimp only [idleStateEntryEffect]
  repeat' first
    | with_reducible assumption
    | intro _
    | with_reducible apply notTaken_kept
    | with_reducible apply leaveIdle_kept
    | with_reducible apply coldState_kept
    | with_reducible apply setPhase_kept
    | with_reducible apply ite_kept
    | split
    | (refine Kept.lit rfl rfl rfl rfl rfl rfl ?_)

theorem hostWake_kept (w : WakeCause) (s : State) {b0 : State} (h0s : Kept b0 s) : Kept b0 (hostWake w s) := by
  dsimp only [hostWake]
  repeat' first
    | with_reducible assumption
    | intro _
    | with_reducible apply raise_kept
    | with_reducible apply ite_kept
    | split

theorem idleWakeEffect_kept (w : WakeCause) (s : State) {b0 : State} (h0s : Kept b0 s) : Kept b0 (idleWakeEffect w s) := by
  dsimp only [idleWakeEffect]
  repeat' first
    | with_reducible assumption
    | intro _
    | with_reducible apply when_kept
    | with_reducible apply leaveIdle_kept
    | with_reducible apply beginReset_kept
    | with_reducible apply hostWake_kept
    | with_reducible apply ite_kept

theorem pwrIdleCtrlWriteEffect_kept (v : W32) (s : State) {b0 : State} (h0s : Kept b0 s) : Kept b0 (pwrIdleCtrlWriteEffect v s) := by
  dsimp only [pwrIdleCtrlWriteEffect]
  repeat' first
    | with_reducible assumption
    | intro _
    | with_reducible apply notTaken_kept
    | with_reducible apply settleIdle_kept
    | with_reducible apply ite_kept
    | split
    | (refine Kept.lit rfl rfl rfl rfl rfl rfl ?_)

theorem wakeInAssertEffect_kept (s : State) {b0 : State} (h0s : Kept b0 s) : Kept b0 (wakeInAssertEffect s) := by
  dsimp only [wakeInAssertEffect]
  repeat' first
    | with_reducible assumption
    | intro _
    | with_reducible apply when_kept
    | with_reducible apply raise_kept

theorem setDoe_kept (f : Nat) (d : Doe) (s : State) {b0 : State} (h0s : Kept b0 s) : Kept b0 (setDoe f d s) := by
  dsimp only [setDoe]
  repeat' first
    | with_reducible assumption
    | intro _
    | with_reducible apply ite_kept
    | split
    | (refine Kept.lit rfl rfl rfl rfl rfl rfl ?_)

theorem spdmAnswer_kept (b : List Byte) (s : State) {b0 : State} (h0s : Kept b0 s) : Kept b0 (spdmAnswer b s) := by
  dsimp only [spdmAnswer]
  repeat' first
    | with_reducible assumption
    | intro _
    | with_reducible apply setReply_kept

theorem spdmError_kept (s : State) {b0 : State} (h0s : Kept b0 s) : Kept b0 (spdmError s) := by
  dsimp only [spdmError]
  repeat' first
    | with_reducible assumption
    | intro _
    | with_reducible apply setReply_kept

theorem onDoe_kept (f : Nat) (stage : Doe → Bool) (go : State → State) (s : State) {b0 : State} (h0s : Kept b0 s) (h_go : ∀ (t : State), Kept b0 t → Kept b0 (go t)) : Kept b0 (onDoe f stage go s) := by
  dsimp only [onDoe]
  repeat' first
    | with_reducible assumption
    | intro _
    | with_reducible apply notTaken_kept
    | with_reducible apply spdmError_kept
    | with_reducible apply h_go
    | with_reducible apply ite_kept

theorem getVersionEffect_kept (f : Nat) (s : State) {b0 : State} (h0s : Kept b0 s) : Kept b0 (getVersionEffect f s) := by
  dsimp only [getVersionEffect]
  repeat' first
    | with_reducible assumption
    | intro _
    | with_reducible apply setDoe_kept
    | with_reducible apply spdmAnswer_kept
    | with_reducible apply onDoe_kept

theorem getCapabilitiesEffect_kept (f : Nat) (s : State) {b0 : State} (h0s : Kept b0 s) : Kept b0 (getCapabilitiesEffect f s) := by
  dsimp only [getCapabilitiesEffect]
  repeat' first
    | with_reducible assumption
    | intro _
    | with_reducible apply setDoe_kept
    | with_reducible apply spdmAnswer_kept
    | with_reducible apply onDoe_kept

theorem negotiateAlgorithmsEffect_kept (f : Nat) (offered : List Byte) (s : State) {b0 : State} (h0s : Kept b0 s) : Kept b0 (negotiateAlgorithmsEffect f offered s) := by
  dsimp only [negotiateAlgorithmsEffect]
  repeat' first
    | with_reducible assumption
    | intro _
    | with_reducible apply setDoe_kept
    | with_reducible apply spdmAnswer_kept
    | with_reducible apply onDoe_kept

theorem getDigestsEffect_kept (f : Nat) (s : State) {b0 : State} (h0s : Kept b0 s) : Kept b0 (getDigestsEffect f s) := by
  dsimp only [getDigestsEffect]
  repeat' first
    | with_reducible assumption
    | intro _
    | with_reducible apply spdmAnswer_kept
    | with_reducible apply spdmError_kept
    | with_reducible apply onDoe_kept
    | with_reducible apply ite_kept
    | split

theorem getCertificateEffect_kept (f slot off len : Nat) (s : State) {b0 : State} (h0s : Kept b0 s) : Kept b0 (getCertificateEffect f slot off len s) := by
  dsimp only [getCertificateEffect]
  repeat' first
    | with_reducible assumption
    | intro _
    | with_reducible apply spdmAnswer_kept
    | with_reducible apply spdmError_kept
    | with_reducible apply onDoe_kept
    | with_reducible apply ite_kept
    | split

theorem getMeasurementsEffect_kept (f i : Nat) (nonce : List Byte) (s : State) {b0 : State} (h0s : Kept b0 s) : Kept b0 (getMeasurementsEffect f i nonce s) := by
  dsimp only [getMeasurementsEffect]
  repeat' first
    | with_reducible assumption
    | intro _
    | with_reducible apply spdmAnswer_kept
    | with_reducible apply spdmError_kept
    | with_reducible apply onDoe_kept
    | with_reducible apply ite_kept
    | split

theorem setSessions_kept (l : List Session) (s : State) {b0 : State} (h0s : Kept b0 s) : Kept b0 (setSessions l s) := by
  dsimp only [setSessions]
  repeat' first
    | with_reducible assumption
    | intro _
    | with_reducible apply ite_kept
    | split
    | (refine Kept.lit rfl rfl rfl rfl rfl rfl ?_)

theorem keyExchangeEffect_kept (f : Nat) (owner : Bool) (exchange : List Byte) (s : State) {b0 : State} (h0s : Kept b0 s) : Kept b0 (keyExchangeEffect f owner exchange s) := by
  dsimp only [keyExchangeEffect, draw]
  repeat' first
    | with_reducible assumption
    | intro _
    | with_reducible apply setReply_kept
    | (with_reducible refine draw_kept (by assumption) ?_)
    | with_reducible apply spdmAnswer_kept
    | with_reducible apply onDoe_kept
    | with_reducible apply ite_kept
    | split
    | (refine Kept.lit rfl rfl rfl rfl rfl rfl ?_)

theorem finishEffect_kept (f n : Nat) (ok : Bool) (s : State) {b0 : State} (h0s : Kept b0 s) : Kept b0 (finishEffect f n ok s) := by
  dsimp only [finishEffect]
  repeat' first
    | with_reducible assumption
    | intro _
    | with_reducible apply notTaken_kept
    | with_reducible apply spdmAnswer_kept
    | with_reducible apply spdmError_kept
    | with_reducible apply setSessions_kept
    | with_reducible apply ite_kept
    | split

theorem heartbeatEffect_kept (f n : Nat) (s : State) {b0 : State} (h0s : Kept b0 s) : Kept b0 (heartbeatEffect f n s) := by
  dsimp only [heartbeatEffect]
  repeat' first
    | with_reducible assumption
    | intro _
    | with_reducible apply notTaken_kept
    | with_reducible apply spdmAnswer_kept
    | with_reducible apply spdmError_kept
    | with_reducible apply ite_kept

theorem endSession_kept (x : Session) (s : State) {b0 : State} (h0s : Kept b0 s) : Kept b0 (endSession x s) := by
  dsimp only [endSession]
  repeat' first
    | with_reducible assumption
    | intro _
    | with_reducible apply modFn_kept
    | with_reducible apply beginShutdown_kept
    | with_reducible apply clearFn_kept
    | with_reducible apply setSessions_kept
    | with_reducible apply ite_kept
    | split

theorem spdmHeartbeatTimeoutEffect_kept (f n : Nat) (s : State) {b0 : State} (h0s : Kept b0 s) : Kept b0 (spdmHeartbeatTimeoutEffect f n s) := by
  dsimp only [spdmHeartbeatTimeoutEffect]
  repeat' first
    | with_reducible assumption
    | intro _
    | with_reducible apply notTaken_kept
    | with_reducible apply endSession_kept
    | with_reducible apply ite_kept
    | split

theorem keyUpdateEffect_kept (f n : Nat) (s : State) {b0 : State} (h0s : Kept b0 s) : Kept b0 (keyUpdateEffect f n s) := by
  dsimp only [keyUpdateEffect]
  repeat' first
    | with_reducible assumption
    | intro _
    | with_reducible apply notTaken_kept
    | with_reducible apply spdmAnswer_kept
    | with_reducible apply spdmError_kept
    | with_reducible apply setSessions_kept
    | with_reducible apply ite_kept
    | split

theorem endSessionEffect_kept (f n : Nat) (s : State) {b0 : State} (h0s : Kept b0 s) : Kept b0 (endSessionEffect f n s) := by
  dsimp only [endSessionEffect]
  repeat' first
    | with_reducible assumption
    | intro _
    | with_reducible apply notTaken_kept
    | with_reducible apply spdmAnswer_kept
    | with_reducible apply spdmError_kept
    | with_reducible apply endSession_kept
    | with_reducible apply ite_kept
    | split

end Sys2Proof.Machine
end

