-- ==== Sys2Proof/Laws/Layers.lean ====
section
/-!
SUPPORT. The layers of a STEP keep the first fault that their reads met (R319, R320).
-/
namespace Sys2Proof.Machine

theorem iter_keeps {α : Type} {P : α → Prop} {f : Nat → α → α} (hf : ∀ n a, P a → P (f n a)) :
    ∀ (k lo : Nat) (a : α), P a → P (iter f lo k a)
  | 0, _, _, h => h
  | k + 1, lo, a, h => iter_keeps hf k (lo + 1) (f lo a) (hf lo a h)

theorem foldl_keeps {α β : Type} {P : α → Prop} {f : α → β → α} (hf : ∀ a e, P a → P (f a e)) :
    ∀ (l : List β) (a : α), P a → P (l.foldl f a)
  | [], _, h => h
  | e :: l, a, h => foldl_keeps hf l (f a e) (hf a e h)

theorem readRanges_fault {p : Nat} {clove : Bool} {l : List (Nat × List (Nat × Nat))} {x : StepFlt} (a : Option StepFlt × State)
    (h : a.1 = some x) : (readRanges p clove l a).1 = some x := by
  simp [readRanges, h]

theorem projectRead_fault {c : LayerCtx} {layer : Nat} {x : StepFlt} (a : Batch × State) (proj : Nat) (h : a.1.fault = some x) :
    (projectRead c layer a proj).1.fault = some x :=
  readRanges_fault _ (readRanges_fault _ h)

theorem noteList_fault {c : LayerCtx} {w : StepWork} {l : Nat} {x : StepFlt} (a : Option StepFlt × State) (h : a.1 = some x) :
    (noteList c w l a).1 = some x := by
  unfold noteList
  refine foldl_keeps (P := fun a : Option StepFlt × State => a.1 = some x) (fun a e h => ?_) _ a h
  refine foldl_keeps (P := fun a : Option StepFlt × State => a.1 = some x) (fun a g h => ?_) _ a h
  simp [h]

theorem noteAttention_fault {c : LayerCtx} {layer : Nat} {ws : List StepWork} {b : Batch} {s : State} {x : StepFlt}
    (h : b.fault = some x) : (noteAttention c layer ws b s).1.fault = some x := by
  unfold noteAttention
  refine foldl_keeps (P := fun a : Option StepFlt × State => a.1 = some x) (fun a w h => ?_) ws (b.fault, s) h
  exact iter_keeps (P := fun a : Option StepFlt × State => a.1 = some x) (fun n a h => noteList_fault a h) _ _ a h

theorem runLayer_fault {c : LayerCtx} {ws : List StepWork} {x : StepFlt} (layer : Nat) (a : Batch × State)
    (h : a.1.fault = some x) : (runLayer c ws layer a).1.fault = some x := by
  unfold runLayer
  refine foldl_keeps (P := fun b : Batch × State => b.1.fault = some x) (fun b e h => projectRead_fault b e h) _ _ ?_
  refine noteAttention_fault (b := (writeKv c layer _ _).1) ?_
  exact foldl_keeps (P := fun b : Batch × State => b.1.fault = some x) (fun b e h => projectRead_fault b e h) _ _ h

/-- The first fault that a STEP's reads met stays its fault. -/
theorem runLayers_fault {c : LayerCtx} {ws : List StepWork} {b : Batch} {s : State} {x : StepFlt}
    (h : (noteWeights c b s).1.fault = some x) : (runLayers c ws b s).1.fault = some x :=
  iter_keeps (P := fun a : Batch × State => a.1.fault = some x) (fun n a h => runLayer_fault n a h) _ _ _ h

end Sys2Proof.Machine
end

