-- ==== Sys2Proof/Laws/Reply.lean ====
section
/-!
SUPPORT. The reply of the last command is read by nothing: each reader of the state sees the same whatever it is.
-/
namespace Sys2Proof.Machine

@[simp] theorem fnOf_setReply (rep : Reply) (s : State) (f : Nat) : fnOf (setReply rep s) f = fnOf s f := rfl
@[simp] theorem ringOf_setReply (rep : Reply) (s : State) (f r : Nat) : ringOf (setReply rep s) f r = ringOf s f r := rfl
@[simp] theorem bufOf_setReply (rep : Reply) (s : State) (f b : Nat) : bufOf (setReply rep s) f b = bufOf s f b := rfl
@[simp] theorem vecOf_setReply (rep : Reply) (s : State) (f v : Nat) : vecOf (setReply rep s) f v = vecOf s f v := rfl
@[simp] theorem cmdOf_setReply (rep : Reply) (s : State) (c : Nat) : cmdOf (setReply rep s) c = cmdOf s c := rfl
@[simp] theorem partOf_setReply (rep : Reply) (s : State) (p : Nat) : partOf (setReply rep s) p = partOf s p := rfl
@[simp] theorem coreOf_setReply (rep : Reply) (s : State) (n : Nat) : coreOf (setReply rep s) n = coreOf s n := rfl
@[simp] theorem spadOf_setReply (rep : Reply) (s : State) (n : Nat) : spadOf (setReply rep s) n = spadOf s n := rfl
@[simp] theorem moverOf_setReply (rep : Reply) (s : State) (m : Nat) : moverOf (setReply rep s) m = moverOf s m := rfl
@[simp] theorem cloveOf_setReply (rep : Reply) (s : State) (g : Nat) : cloveOf (setReply rep s) g = cloveOf s g := rfl
@[simp] theorem frameOf_setReply (rep : Reply) (s : State) (n : Nat) : frameOf (setReply rep s) n = frameOf s n := rfl
@[simp] theorem portOf_setReply (rep : Reply) (s : State) (pt : Nat) : portOf (setReply rep s) pt = portOf s pt := rfl
@[simp] theorem groupOf_setReply (rep : Reply) (s : State) (k : Nat) : groupOf (setReply rep s) k = groupOf s k := rfl
@[simp] theorem targetOf_setReply (rep : Reply) (s : State) (t : Nat) : targetOf (setReply rep s) t = targetOf s t := rfl
@[simp] theorem routeOf_setReply (rep : Reply) (s : State) (k : Nat) : routeOf (setReply rep s) k = routeOf s k := rfl
@[simp] theorem sensorOf_setReply (rep : Reply) (s : State) (n : Nat) : sensorOf (setReply rep s) n = sensorOf s n := rfl
@[simp] theorem farPortOf_setReply (rep : Reply) (s : State) (q : Nat) : farPortOf (setReply rep s) q = farPortOf s q := rfl
@[simp] theorem eccOf_setReply (rep : Reply) (s : State) (st : Nat) : eccOf (setReply rep s) st = eccOf s st := rfl
@[simp] theorem claimOf_setReply (rep : Reply) (s : State) (id : Nat) : claimOf (setReply rep s) id = claimOf s id := rfl
@[simp] theorem far1Host_setReply (rep : Reply) (s : State) : far1Host (setReply rep s) = far1Host s := rfl
@[simp] theorem fnExists_setReply (rep : Reply) (s : State) (f : Nat) : fnExists (setReply rep s) f = fnExists s f := rfl
@[simp] theorem onFar1_setReply (rep : Reply) (s : State) (f : Nat) : onFar1 (setReply rep s) f = onFar1 s f := rfl
@[simp] theorem hostLink_setReply (rep : Reply) (s : State) (f : Nat) : hostLink (setReply rep s) f = hostLink s f := rfl
@[simp] theorem hostHeld_setReply (rep : Reply) (s : State) (f : Nat) (uses : Bool) : hostHeld (setReply rep s) f uses = hostHeld s f uses := rfl
@[simp] theorem hostUp_setReply (rep : Reply) (s : State) (f : Nat) : hostUp (setReply rep s) f = hostUp s f := rfl
@[simp] theorem running_setReply (rep : Reply) (s : State) : running (setReply rep s) = running s := rfl
@[simp] theorem controllerRuns_setReply (rep : Reply) (s : State) : controllerRuns (setReply rep s) = controllerRuns s := rfl
@[simp] theorem holdOf_setReply (rep : Reply) (s : State) (k : Nat) : holdOf (setReply rep s) k = holdOf s k := rfl
@[simp] theorem deliverable_setReply (rep : Reply) (s : State) (k : Nat) : deliverable (setReply rep s) k = deliverable s k := rfl
@[simp] theorem offer_setReply (rep : Reply) (s : State) (t : Nat) : offer (setReply rep s) t = offer s t := rfl
@[simp] theorem homeOf_setReply (rep : Reply) (s : State) (f : Nat) : homeOf (setReply rep s) f = homeOf s f := rfl
@[simp] theorem fnsOf_setReply (rep : Reply) (s : State) (p : Nat) : fnsOf (setReply rep s) p = fnsOf s p := rfl
@[simp] theorem physCore_setReply (rep : Reply) (s : State) (p i : Nat) : physCore (setReply rep s) p i = physCore s p i := rfl
@[simp] theorem partCores_setReply (rep : Reply) (s : State) (p : Nat) : partCores (setReply rep s) p = partCores s p := rfl
@[simp] theorem coreHolder_setReply (rep : Reply) (s : State) (n : Nat) : coreHolder (setReply rep s) n = coreHolder s n := rfl
@[simp] theorem runningJob_setReply (rep : Reply) (s : State) (p : Nat) : runningJob (setReply rep s) p = runningJob s p := rfl
@[simp] theorem cmdsWhere_setReply (rep : Reply) (s : State) (q : Cmd → Bool) : cmdsWhere (setReply rep s) q = cmdsWhere s q := rfl
@[simp] theorem rawWord_setReply (rep : Reply) (s : State) (g off : Nat) : rawWord (setReply rep s) g off = rawWord s g off := rfl
@[simp] theorem readWord_setReply (rep : Reply) (s : State) (g off : Nat) : readWord (setReply rep s) g off = readWord s g off := rfl
@[simp] theorem testWindow_setReply (rep : Reply) (s : State) (g off : Nat) : testWindow (setReply rep s) g off = testWindow s g off := rfl
@[simp] theorem ctOf_setReply (rep : Reply) (s : State) (n : Nat) : ctOf (setReply rep s) n = ctOf s n := rfl
@[simp] theorem chunkOf_setReply (rep : Reply) (s : State) (p c : Nat) : chunkOf (setReply rep s) p c = chunkOf s p c := rfl
@[simp] theorem devLoc_setReply (rep : Reply) (s : State) (p x : Nat) : devLoc (setReply rep s) p x = devLoc s p x := rfl
@[simp] theorem devOk_setReply (rep : Reply) (s : State) (p x n : Nat) : devOk (setReply rep s) p x n = devOk s p x n := rfl
@[simp] theorem devWord_setReply (rep : Reply) (s : State) (p x : Nat) : devWord (setReply rep s) p x = devWord s p x := rfl
@[simp] theorem devGet_setReply (rep : Reply) (s : State) (p x n : Nat) : devGet (setReply rep s) p x n = devGet s p x n := rfl
@[simp] theorem devStack_setReply (rep : Reply) (s : State) (p x : Nat) : devStack (setReply rep s) p x = devStack s p x := rfl
@[simp] theorem planeLocal_setReply (rep : Reply) (s : State) (pchunk : Nat) : planeLocal (setReply rep s) pchunk = planeLocal s pchunk := rfl
@[simp] theorem stagingOk_setReply (rep : Reply) (s : State) (p off n : Nat) : stagingOk (setReply rep s) p off n = stagingOk s p off n := rfl
@[simp] theorem farPortAt_setReply (rep : Reply) (s : State) (a : Nat) : farPortAt (setReply rep s) a = farPortAt s a := rfl
@[simp] theorem farAddr_setReply (rep : Reply) (s : State) (p x : Nat) : farAddr (setReply rep s) p x = farAddr s p x := rfl
@[simp] theorem farOk_setReply (rep : Reply) (s : State) (p x n : Nat) : farOk (setReply rep s) p x n = farOk s p x n := rfl
@[simp] theorem farDead_setReply (rep : Reply) (s : State) (a : Nat) : farDead (setReply rep s) a = farDead s a := rfl
@[simp] theorem farKeyOf_setReply (rep : Reply) (s : State) (p : Nat) : farKeyOf (setReply rep s) p = farKeyOf s p := rfl
@[simp] theorem farUnder_setReply (rep : Reply) (s : State) (key a : Nat) : farUnder (setReply rep s) key a = farUnder s key a := rfl
@[simp] theorem farByte_setReply (rep : Reply) (s : State) (key a : Nat) : farByte (setReply rep s) key a = farByte s key a := rfl
@[simp] theorem farGet_setReply (rep : Reply) (s : State) (p x n : Nat) : farGet (setReply rep s) p x n = farGet s p x n := rfl
@[simp] theorem hostKey_setReply (rep : Reply) (s : State) (f a : Nat) : hostKey (setReply rep s) f a = hostKey s f a := rfl
@[simp] theorem hostRaw_setReply (rep : Reply) (s : State) (f a n : Nat) : hostRaw (setReply rep s) f a n = hostRaw s f a n := rfl
@[simp] theorem hostBuf_setReply (rep : Reply) (s : State) (f a n : Nat) (write : Bool) : hostBuf (setReply rep s) f a n write = hostBuf s f a n write := rfl
@[simp] theorem hostOk_setReply (rep : Reply) (s : State) (f a n : Nat) (write : Bool) : hostOk (setReply rep s) f a n write = hostOk s f a n write := rfl
@[simp] theorem openSegment_setReply (rep : Reply) (s : State) (f b k : Nat) : openSegment (setReply rep s) f b k = openSegment s f b k := rfl
@[simp] theorem hostGet_setReply (rep : Reply) (s : State) (f a n : Nat) : hostGet (setReply rep s) f a n = hostGet s f a n := rfl
@[simp] theorem routeEntry_setReply (rep : Reply) (s : State) (dst : Nat) : routeEntry (setReply rep s) dst = routeEntry s dst := rfl
@[simp] theorem portActive_setReply (rep : Reply) (s : State) (pt : Nat) : portActive (setReply rep s) pt = portActive s pt := rfl
@[simp] theorem usableRoute_setReply (rep : Reply) (s : State) (dst : Nat) : usableRoute (setReply rep s) dst = usableRoute s dst := rfl
@[simp] theorem outVc_setReply (rep : Reply) (s : State) (out : Nat) (control : Bool) (arrival : Option (Nat × Nat)) : outVc (setReply rep s) out control arrival = outVc s out control arrival := rfl
@[simp] theorem ownId_setReply (rep : Reply) (s : State) : ownId (setReply rep s) = ownId s := rfl
@[simp] theorem cmdRuns_setReply (rep : Reply) (s : State) (c : Nat) : cmdRuns (setReply rep s) c = cmdRuns s c := rfl
@[simp] theorem fabricIdle_setReply (rep : Reply) (s : State) (j : Nat × Nat) : fabricIdle (setReply rep s) j = fabricIdle s j := rfl
@[simp] theorem chosenMover_setReply (rep : Reply) (s : State) : chosenMover (setReply rep s) = chosenMover s := rfl
@[simp] theorem movOpen_setReply (rep : Reply) (s : State) (m : Nat) : movOpen (setReply rep s) m = movOpen s m := rfl
@[simp] theorem groupCmds_setReply (rep : Reply) (s : State) (f r g : Nat) : groupCmds (setReply rep s) f r g = groupCmds s f r g := rfl
@[simp] theorem inFlight_setReply (rep : Reply) (s : State) (f r : Nat) : inFlight (setReply rep s) f r = inFlight s f r := rfl
@[simp] theorem coresOf_setReply (rep : Reply) (s : State) (c : Nat) : coresOf (setReply rep s) c = coresOf s c := rfl
@[simp] theorem sectorData_setReply (rep : Reply) (s : State) (g off : Nat) : sectorData (setReply rep s) g off = sectorData s g off := rfl
@[simp] theorem windowDefers_setReply (rep : Reply) (s : State) (g off n : Nat) : windowDefers (setReply rep s) g off n = windowDefers s g off n := rfl
@[simp] theorem chunkMoving_setReply (rep : Reply) (s : State) (k : Nat) : chunkMoving (setReply rep s) k = chunkMoving s k := rfl
@[simp] theorem devMoving_setReply (rep : Reply) (s : State) (p : Nat) (l : List (Nat × Nat)) : devMoving (setReply rep s) p l = devMoving s p l := rfl
@[simp] theorem devDeferred_setReply (rep : Reply) (s : State) (p : Nat) (l : List (Nat × Nat)) : devDeferred (setReply rep s) p l = devDeferred s p l := rfl
@[simp] theorem bwBudget_setReply (rep : Reply) (s : State) (p st : Nat) : bwBudget (setReply rep s) p st = bwBudget s p st := rfl
@[simp] theorem bwWaits_setReply (rep : Reply) (s : State) (p st : Nat) : bwWaits (setReply rep s) p st = bwWaits s p st := rfl
@[simp] theorem devCapped_setReply (rep : Reply) (s : State) (p : Nat) (l : List (Nat × Nat)) : devCapped (setReply rep s) p l = devCapped s p l := rfl
@[simp] theorem farHeldAt_setReply (rep : Reply) (s : State) (p : Nat) (l : List (Nat × Nat)) : farHeldAt (setReply rep s) p l = farHeldAt s p l := rfl
@[simp] theorem accessNow_setReply (rep : Reply) (key p : Nat) (l far : List (Nat × Nat)) (s : State) : accessNow key p l far (setReply rep s) = accessNow key p l far s := rfl
@[simp] theorem keptImages_setReply (rep : Reply) (s : State) (p : Nat) : keptImages (setReply rep s) p = keptImages s p := rfl
@[simp] theorem imageCores_setReply (rep : Reply) (s : State) (c : Nat) : imageCores (setReply rep s) c = imageCores s c := rfl
@[simp] theorem jobsOf_setReply (rep : Reply) (s : State) (p : Nat) : jobsOf (setReply rep s) p = jobsOf s p := rfl
@[simp] theorem jobRing_setReply (rep : Reply) (s : State) (j : Nat × Nat) : jobRing (setReply rep s) j = jobRing s j := rfl
@[simp] theorem readyJobs_setReply (rep : Reply) (s : State) (p : Nat) : readyJobs (setReply rep s) p = readyJobs s p := rfl
@[simp] theorem minClass_setReply (rep : Reply) (s : State) (l : List (Nat × Nat)) : minClass (setReply rep s) l = minClass s l := rfl
@[simp] theorem pickJob_setReply (rep : Reply) (s : State) (p : Nat) : pickJob (setReply rep s) p = pickJob s p := rfl
@[simp] theorem engineClean_setReply (rep : Reply) (s : State) (j : Nat × Nat) : engineClean (setReply rep s) j = engineClean s j := rfl
@[simp] theorem inheriting_setReply (rep : Reply) (s : State) (w : Waiter) : inheriting (setReply rep s) w = inheriting s w := rfl
@[simp] theorem semVal_setReply (rep : Reply) (s : State) (n : Nat) : semVal (setReply rep s) n = semVal s n := rfl
@[simp] theorem semNum_setReply (rep : Reply) (s : State) (p i : Nat) : semNum (setReply rep s) p i = semNum s p i := rfl
@[simp] theorem semUse_setReply (rep : Reply) (s : State) (p : Nat) : semUse (setReply rep s) p = semUse s p := rfl
@[simp] theorem wordCore_setReply (rep : Reply) (s : State) (c i : Nat) : wordCore (setReply rep s) c i = wordCore s c i := rfl
@[simp] theorem fenceFree_setReply (rep : Reply) (s : State) (x : Cmd) : fenceFree (setReply rep s) x = fenceFree s x := rfl
@[simp] theorem anyWarn_setReply (rep : Reply) (s : State) : anyWarn (setReply rep s) = anyWarn s := rfl
@[simp] theorem anyThrottle_setReply (rep : Reply) (s : State) : anyThrottle (setReply rep s) = anyThrottle s := rfl
@[simp] theorem boostBarred_setReply (rep : Reply) (s : State) : boostBarred (setReply rep s) = boostBarred s := rfl
@[simp] theorem coolantBroken_setReply (rep : Reply) (s : State) : coolantBroken (setReply rep s) = coolantBroken s := rfl
@[simp] theorem tempOf_setReply (rep : Reply) (s : State) (n : Nat) : tempOf (setReply rep s) n = tempOf s n := rfl
@[simp] theorem margin_setReply (rep : Reply) (s : State) (n : Nat) : margin (setReply rep s) n = margin s n := rfl
@[simp] theorem hottest_setReply (rep : Reply) (s : State) : hottest (setReply rep s) = hottest s := rfl
@[simp] theorem hottestDram_setReply (rep : Reply) (s : State) (st : Nat) : hottestDram (setReply rep s) st = hottestDram s st := rfl
@[simp] theorem effLimit_setReply (rep : Reply) (s : State) : effLimit (setReply rep s) = effLimit s := rfl
@[simp] theorem portsQuiet_setReply (rep : Reply) (s : State) : portsQuiet (setReply rep s) = portsQuiet s := rfl
@[simp] theorem noPartition_setReply (rep : Reply) (s : State) : noPartition (setReply rep s) = noPartition s := rfl
@[simp] theorem permitted_setReply (rep : Reply) (s : State) : permitted (setReply rep s) = permitted s := rfl
@[simp] theorem deviceIdle_setReply (rep : Reply) (s : State) : deviceIdle (setReply rep s) = deviceIdle s := rfl
@[simp] theorem fnStatus_setReply (rep : Reply) (s : State) (f : Nat) : fnStatus (setReply rep s) f = fnStatus s f := rfl
@[simp] theorem fnCtrl_setReply (rep : Reply) (s : State) (f : Nat) : fnCtrl (setReply rep s) f = fnCtrl s f := rfl
@[simp] theorem ringStateReg_setReply (rep : Reply) (s : State) (f r : Nat) : ringStateReg (setReply rep s) f r = ringStateReg s f r := rfl
@[simp] theorem pba_setReply (rep : Reply) (s : State) (f : Nat) : pba (setReply rep s) f = pba s f := rfl
@[simp] theorem fnReg32_setReply (rep : Reply) (s : State) (f off : Nat) : fnReg32 (setReply rep s) f off = fnReg32 s f off := rfl
@[simp] theorem fnReg64_setReply (rep : Reply) (s : State) (f off : Nat) : fnReg64 (setReply rep s) f off = fnReg64 s f off := rfl
@[simp] theorem runSuspendedOn_setReply (rep : Reply) (s : State) (n : Nat) : runSuspendedOn (setReply rep s) n = runSuspendedOn s n := rfl
@[simp] theorem safState_setReply (rep : Reply) (s : State) (n : Nat) : safState (setReply rep s) n = safState s n := rfl
@[simp] theorem safStatus_setReply (rep : Reply) (s : State) (n : Nat) : safStatus (setReply rep s) n = safStatus s n := rfl
@[simp] theorem movStatus_setReply (rep : Reply) (s : State) (m : Nat) : movStatus (setReply rep s) m = movStatus s m := rfl
@[simp] theorem retFrames_setReply (rep : Reply) (s : State) (g : Nat) : retFrames (setReply rep s) g = retFrames s g := rfl
@[simp] theorem framesPerBank_setReply (rep : Reply) (s : State) : framesPerBank (setReply rep s) = framesPerBank s := rfl
@[simp] theorem frameExists_setReply (rep : Reply) (s : State) (n : Nat) : frameExists (setReply rep s) n = frameExists s n := rfl
@[simp] theorem freeFrames_setReply (rep : Reply) (s : State) (g : Nat) : freeFrames (setReply rep s) g = freeFrames s g := rfl
@[simp] theorem framesUsed_setReply (rep : Reply) (s : State) (p : Nat) : framesUsed (setReply rep s) p = framesUsed s p := rfl
@[simp] theorem framesSpec_setReply (rep : Reply) (s : State) (p : Nat) : framesSpec (setReply rep s) p = framesSpec s p := rfl
@[simp] theorem slotsUsed_setReply (rep : Reply) (s : State) (p : Nat) : slotsUsed (setReply rep s) p = slotsUsed s p := rfl
@[simp] theorem ovqKv_setReply (rep : Reply) (s : State) (p : Nat) : ovqKv (setReply rep s) p = ovqKv s p := rfl
@[simp] theorem ovqSlot_setReply (rep : Reply) (s : State) (p : Nat) : ovqSlot (setReply rep s) p = ovqSlot s p := rfl
@[simp] theorem ovqSem_setReply (rep : Reply) (s : State) (p : Nat) : ovqSem (setReply rep s) p = ovqSem s p := rfl
@[simp] theorem partStateReg_setReply (rep : Reply) (s : State) (p : Nat) : partStateReg (setReply rep s) p = partStateReg s p := rfl
@[simp] theorem farStatus_setReply (rep : Reply) (s : State) (q : Nat) : farStatus (setReply rep s) q = farStatus s q := rfl
@[simp] theorem pwrCtrl_setReply (rep : Reply) (s : State) : pwrCtrl (setReply rep s) = pwrCtrl s := rfl
@[simp] theorem fixedHeld_setReply (rep : Reply) (s : State) : fixedHeld (setReply rep s) = fixedHeld s := rfl
@[simp] theorem pwrStatus_setReply (rep : Reply) (s : State) : pwrStatus (setReply rep s) = pwrStatus s := rfl
@[simp] theorem sensorReg_setReply (rep : Reply) (s : State) (n : Nat) : sensorReg (setReply rep s) n = sensorReg s n := rfl
@[simp] theorem thmStatus_setReply (rep : Reply) (s : State) : thmStatus (setReply rep s) = thmStatus s := rfl
@[simp] theorem thmShutdown_setReply (rep : Reply) (s : State) : thmShutdown (setReply rep s) = thmShutdown s := rfl
@[simp] theorem pwrPower_setReply (rep : Reply) (s : State) : pwrPower (setReply rep s) = pwrPower s := rfl
@[simp] theorem evHoldoff_setReply (rep : Reply) (s : State) (k : Nat) : evHoldoff (setReply rep s) k = evHoldoff s k := rfl
@[simp] theorem evClaim_setReply (rep : Reply) (s : State) (t : Nat) : evClaim (setReply rep s) t = evClaim s t := rfl
@[simp] theorem flogNumber_setReply (rep : Reply) (s : State) (i : Nat) : flogNumber (setReply rep s) i = flogNumber s i := rfl
@[simp] theorem secLc_setReply (rep : Reply) (s : State) : secLc (setReply rep s) = secLc s := rfl
@[simp] theorem secBoot_setReply (rep : Reply) (s : State) : secBoot (setReply rep s) = secBoot s := rfl
@[simp] theorem secSumac_setReply (rep : Reply) (s : State) : secSumac (setReply rep s) = secSumac s := rfl
@[simp] theorem secWipe_setReply (rep : Reply) (s : State) : secWipe (setReply rep s) = secWipe s := rfl
@[simp] theorem secSvn_setReply (rep : Reply) (s : State) (i : Nat) : secSvn (setReply rep s) i = secSvn s i := rfl
@[simp] theorem rstCause_setReply (rep : Reply) (s : State) : rstCause (setReply rep s) = rstCause s := rfl
@[simp] theorem rstSsc_setReply (rep : Reply) (s : State) : rstSsc (setReply rep s) = rstSsc s := rfl
@[simp] theorem anyInFlight_setReply (rep : Reply) (s : State) : anyInFlight (setReply rep s) = anyInFlight s := rfl
@[simp] theorem pinDrive_setReply (rep : Reply) (s : State) (n : Nat) : pinDrive (setReply rep s) n = pinDrive s n := rfl
@[simp] theorem gpioIn_setReply (rep : Reply) (s : State) : gpioIn (setReply rep s) = gpioIn s := rfl
@[simp] theorem memReg32_setReply (rep : Reply) (s : State) (off : Nat) : memReg32 (setReply rep s) off = memReg32 s off := rfl
@[simp] theorem hubReg32_setReply (rep : Reply) (s : State) (off : Nat) : hubReg32 (setReply rep s) off = hubReg32 s off := rfl
@[simp] theorem unitReg32_setReply (rep : Reply) (s : State) (off : Nat) : unitReg32 (setReply rep s) off = unitReg32 s off := rfl
@[simp] theorem reg32_setReply (rep : Reply) (s : State) (f off : Nat) : reg32 (setReply rep s) f off = reg32 s f off := rfl
@[simp] theorem vfState_setReply (rep : Reply) (s : State) (f : Nat) : vfState (setReply rep s) f = vfState s f := rfl
@[simp] theorem pfReg64_setReply (rep : Reply) (s : State) (off : Nat) : pfReg64 (setReply rep s) off = pfReg64 s off := rfl
@[simp] theorem reg64_setReply (rep : Reply) (s : State) (f off : Nat) : reg64 (setReply rep s) f off = reg64 s f off := rfl
@[simp] theorem ringsOf_setReply (rep : Reply) (s : State) (f : Nat) : ringsOf (setReply rep s) f = ringsOf s f := rfl
@[simp] theorem classAccepted_setReply (rep : Reply) (s : State) (f cls : Nat) : classAccepted (setReply rep s) f cls = classAccepted s f cls := rfl
@[simp] theorem startFault_setReply (rep : Reply) (s : State) (x : Cmd) : startFault (setReply rep s) x = startFault s x := rfl
@[simp] theorem readDescriptor_setReply (rep : Reply) (s : State) (f r : Nat) : readDescriptor (setReply rep s) f r = readDescriptor s f r := rfl
@[simp] theorem slotFree_setReply (rep : Reply) (s : State) (f r : Nat) : slotFree (setReply rep s) f r = slotFree s f r := rfl
@[simp] theorem groupClosed_setReply (rep : Reply) (s : State) (x : Cmd) : groupClosed (setReply rep s) x = groupClosed s x := rfl
@[simp] theorem othersOpen_setReply (rep : Reply) (s : State) (c : Nat) : othersOpen (setReply rep s) c = othersOpen s c := rfl
@[simp] theorem isAside_setReply (rep : Reply) (s : State) (p i : Nat) : isAside (setReply rep s) p i = isAside s p i := rfl
@[simp] theorem indexImage_setReply (rep : Reply) (s : State) (p i : Nat) : indexImage (setReply rep s) p i = indexImage s p i := rfl
@[simp] theorem savedImage_setReply (rep : Reply) (s : State) (p : Nat) (wait : Bool) (i : Nat) : savedImage (setReply rep s) p wait i = savedImage s p wait i := rfl
@[simp] theorem coreIndices_setReply (rep : Reply) (s : State) (p : Nat) : coreIndices (setReply rep s) p = coreIndices s p := rfl
@[simp] theorem stagingOf_setReply (rep : Reply) (s : State) (p : Nat) : stagingOf (setReply rep s) p = stagingOf s p := rfl
@[simp] theorem jobCores_setReply (rep : Reply) (s : State) (j : Nat × Nat) : jobCores (setReply rep s) j = jobCores s j := rfl
@[simp] theorem jobOnCloves_setReply (rep : Reply) (s : State) (j : Nat × Nat) : jobOnCloves (setReply rep s) j = jobOnCloves s j := rfl
@[simp] theorem stopDone_setReply (rep : Reply) (s : State) (j : Nat × Nat) : stopDone (setReply rep s) j = stopDone s j := rfl
@[simp] theorem groupOver_setReply (rep : Reply) (s : State) (j : Nat × Nat) : groupOver (setReply rep s) j = groupOver s j := rfl
@[simp] theorem restoredStaging_setReply (rep : Reply) (s : State) (p : Nat) (sp : Space) : restoredStaging (setReply rep s) p sp = restoredStaging s p sp := rfl
@[simp] theorem activeJob_setReply (rep : Reply) (s : State) (p : Nat) : activeJob (setReply rep s) p = activeJob s p := rfl
@[simp] theorem runHeld_setReply (rep : Reply) (s : State) (c : Nat) : runHeld (setReply rep s) c = runHeld s c := rfl
@[simp] theorem stopStands_setReply (rep : Reply) (s : State) (p : Nat) (j : Nat × Nat) : stopStands (setReply rep s) p j = stopStands s p j := rfl
@[simp] theorem dbDropped_setReply (rep : Reply) (s : State) (f r : Nat) : dbDropped (setReply rep s) f r = dbDropped s f r := rfl
@[simp] theorem canFetch_setReply (rep : Reply) (s : State) (f r : Nat) : canFetch (setReply rep s) f r = canFetch s f r := rfl
@[simp] theorem fetchedCmd_setReply (rep : Reply) (s : State) (f r : Nat) : fetchedCmd (setReply rep s) f r = fetchedCmd s f r := rfl
@[simp] theorem jobRuns_setReply (rep : Reply) (s : State) (x : Cmd) : jobRuns (setReply rep s) x = jobRuns s x := rfl
@[simp] theorem canStart_setReply (rep : Reply) (s : State) (c : Nat) : canStart (setReply rep s) c = canStart s c := rfl
@[simp] theorem canComplete_setReply (rep : Reply) (s : State) (c : Nat) : canComplete (setReply rep s) c = canComplete s c := rfl
@[simp] theorem canDrain_setReply (rep : Reply) (s : State) (f r : Nat) : canDrain (setReply rep s) f r = canDrain s f r := rfl
@[simp] theorem chunkAt_setReply (rep : Reply) (s : State) (g off : Nat) : chunkAt (setReply rep s) g off = chunkAt s g off := rfl
@[simp] theorem isRetired_setReply (rep : Reply) (s : State) (u : RetUnit) : isRetired (setReply rep s) u = isRetired s u := rfl
@[simp] theorem mapOf_setReply (rep : Reply) (s : State) (k : Nat) : mapOf (setReply rep s) k = mapOf s k := rfl
@[simp] theorem entryOwner_setReply (rep : Reply) (s : State) (n : Nat) : entryOwner (setReply rep s) n = entryOwner s n := rfl
@[simp] theorem withheld_setReply (rep : Reply) (s : State) (k : Nat) : withheld (setReply rep s) k = withheld s k := rfl
@[simp] theorem freeInterleaved_setReply (rep : Reply) (s : State) (k : Nat) : freeInterleaved (setReply rep s) k = freeInterleaved s k := rfl
@[simp] theorem hardDetail_setReply (rep : Reply) (s : State) (g off : Nat) : hardDetail (setReply rep s) g off = hardDetail s g off := rfl
@[simp] theorem holdersAt_setReply (rep : Reply) (s : State) (g off : Nat) : holdersAt (setReply rep s) g off = holdersAt s g off := rfl
@[simp] theorem followMove_setReply (rep : Reply) (m : ChunkMove) (s : State) (h : Nat × Deferred) : followMove m (setReply rep s) h = followMove m s h := rfl
@[simp] theorem windowOver_setReply (rep : Reply) (s : State) (k : Nat) : windowOver (setReply rep s) k = windowOver s k := rfl
@[simp] theorem rawReady_setReply (rep : Reply) (s : State) (st : Nat) : rawReady (setReply rep s) st = rawReady s st := rfl
@[simp] theorem farUp_setReply (rep : Reply) (s : State) (q : Nat) : farUp (setReply rep s) q = farUp s q := rfl
@[simp] theorem classReady_setReply (rep : Reply) (s : State) (c cls : Nat) : classReady (setReply rep s) c cls = classReady s c cls := rfl
@[simp] theorem cmdPart_setReply (rep : Reply) (x : Cmd) (s : State) : cmdPart x (setReply rep s) = cmdPart x s := rfl
@[simp] theorem semInUse_setReply (rep : Reply) (s : State) (n : Nat) : semInUse (setReply rep s) n = semInUse s n := rfl
@[simp] theorem semOverQuota_setReply (rep : Reply) (s : State) (p n : Nat) : semOverQuota (setReply rep s) p n = semOverQuota s p n := rfl
@[simp] theorem fenceTargets_setReply (rep : Reply) (s : State) (c : Nat) : fenceTargets (setReply rep s) c = fenceTargets s c := rfl
@[simp] theorem othersTotal_setReply (rep : Reply) (s : State) (p : Nat) (g : Part → Nat) : othersTotal (setReply rep s) p g = othersTotal s p g := rfl
@[simp] theorem quotaBeyond_setReply (rep : Reply) (s : State) (p kind v : Nat) : quotaBeyond (setReply rep s) p kind v = quotaBeyond s p kind v := rfl
@[simp] theorem shareInForce_setReply (rep : Reply) (s : State) (p : Nat) : shareInForce (setReply rep s) p = shareInForce s p := rfl
@[simp] theorem runFlags_setReply (rep : Reply) (s : State) (c : Nat) : runFlags (setReply rep s) c = runFlags s c := rfl
@[simp] theorem bodyGet_setReply (rep : Reply) (s : State) (x : Cmd) (host : Bool) (a n : Nat) : bodyGet (setReply rep s) x host a n = bodyGet s x host a n := rfl
@[simp] theorem entriesRead_setReply (rep : Reply) (s : State) (x : Cmd) (bs : List Byte) (bad : Bool) : entriesRead (setReply rep s) x bs bad = entriesRead s x bs bad := rfl
@[simp] theorem runFault_setReply (rep : Reply) (s : State) (x : Cmd) : runFault (setReply rep s) x = runFault s x := rfl
@[simp] theorem runBusy_setReply (rep : Reply) (s : State) (x : Cmd) : runBusy (setReply rep s) x = runBusy s x := rfl
@[simp] theorem fetchWordAt_setReply (rep : Reply) (s : State) (x : Core) (i : Nat) : fetchWordAt (setReply rep s) x i = fetchWordAt s x i := rfl
@[simp] theorem acquireFault_setReply (rep : Reply) (s : State) (x : Core) (w : Nat) : acquireFault (setReply rep s) x w = acquireFault s x w := rfl
@[simp] theorem semFault_setReply (rep : Reply) (s : State) (x : Core) (w : Nat) : semFault (setReply rep s) x w = semFault s x w := rfl
@[simp] theorem decodeFault_setReply (rep : Reply) (s : State) (x : Core) (w : Nat) : decodeFault (setReply rep s) x w = decodeFault s x w := rfl
@[simp] theorem coreIssues_setReply (rep : Reply) (s : State) (n : Nat) : coreIssues (setReply rep s) n = coreIssues s n := rfl
@[simp] theorem semReplayed_setReply (rep : Reply) (s : State) (n : Nat) : semReplayed (setReply rep s) n = semReplayed s n := rfl
@[simp] theorem coreJob_setReply (rep : Reply) (s : State) (n : Nat) : coreJob (setReply rep s) n = coreJob s n := rfl
@[simp] theorem causesInheritance_setReply (rep : Reply) (s : State) (w : Waiter) : causesInheritance (setReply rep s) w = causesInheritance s w := rfl
@[simp] theorem waitPlace_setReply (rep : Reply) (s : State) (p c i : Nat) : waitPlace (setReply rep s) p c i = waitPlace s p c i := rfl
@[simp] theorem spRead_setReply (rep : Reply) (s : State) (x : Cmd) (t : TDesc) (a n : Nat) : spRead (setReply rep s) x t a n = spRead s x t a n := rfl
@[simp] theorem spWriteOk_setReply (rep : Reply) (s : State) (x : Cmd) (t : TDesc) (a n : Nat) : spWriteOk (setReply rep s) x t a n = spWriteOk s x t a n := rfl
@[simp] theorem elemRead_setReply (rep : Reply) (s : State) (x : Cmd) (t : TDesc) (off : Int) (sidx : Nat) : elemRead (setReply rep s) x t off sidx = elemRead s x t off sidx := rfl
@[simp] theorem tdescFaults_setReply (rep : Reply) (s : State) (x : Cmd) (side : Nat) (t : TDesc) : tdescFaults (setReply rep s) x side t = tdescFaults s x side t := rfl
@[simp] theorem indexRead_setReply (rep : Reply) (s : State) (x : Cmd) (t : TDesc) : indexRead (setReply rep s) x t = indexRead s x t := rfl
@[simp] theorem indexClean_setReply (rep : Reply) (s : State) (x : Cmd) (t : TDesc) (i : Nat) : indexClean (setReply rep s) x t i = indexClean s x t i := rfl
@[simp] theorem indexFaults_setReply (rep : Reply) (s : State) (x : Cmd) (t : TDesc) : indexFaults (setReply rep s) x t = indexFaults s x t := rfl
@[simp] theorem itemVal_setReply (rep : Reply) (s : State) (x : Cmd) (src : TDesc) (i : Item) : itemVal (setReply rep s) x src i = itemVal s x src i := rfl
@[simp] theorem convItem_setReply (rep : Reply) (s : State) (x : Cmd) (rd : Rnd) (src dst : TDesc) (o : Out) (i : Item) : convItem (setReply rep s) x rd src dst o i = convItem s x rd src dst o i := rfl
@[simp] theorem memberVal_setReply (rep : Reply) (s : State) (x : Cmd) (src dst : TDesc) (m : Bool × Item) : memberVal (setReply rep s) x src dst m = memberVal s x src dst m := rfl
@[simp] theorem convBlock_setReply (rep : Reply) (s : State) (x : Cmd) (rd : Rnd) (src dst : TDesc) (o : Out) (g : Nat × List Item) : convBlock (setReply rep s) x rd src dst o g = convBlock s x rd src dst o g := rfl
@[simp] theorem dstWriteOk_setReply (rep : Reply) (s : State) (x : Cmd) (dst : TDesc) (i : Item) : dstWriteOk (setReply rep s) x dst i = dstWriteOk s x dst i := rfl
@[simp] theorem itemReads_setReply (rep : Reply) (s : State) (x : Cmd) (src dst : TDesc) (i : Item) : itemReads (setReply rep s) x src dst i = itemReads s x src dst i := rfl
@[simp] theorem reduceItem_setReply (rep : Reply) (s : State) (x : Cmd) (src dst : TDesc) (z : Reduced) (i : Item) : reduceItem (setReply rep s) x src dst z i = reduceItem s x src dst z i := rfl
@[simp] theorem reduceAll_setReply (rep : Reply) (s : State) (x : Cmd) (src dst : TDesc) (items : List Item) : reduceAll (setReply rep s) x src dst items = reduceAll s x src dst items := rfl
@[simp] theorem itemFault_setReply (rep : Reply) (s : State) (x : Cmd) (src dst : TDesc) (raw : Bool) (i : Item) : itemFault (setReply rep s) x src dst raw i = itemFault s x src dst raw i := rfl
@[simp] theorem keptFault_setReply (rep : Reply) (s : State) (x : Cmd) (dst : TDesc) (m : Bool × Item) : keptFault (setReply rep s) x dst m = keptFault s x dst m := rfl
@[simp] theorem itemPoison_setReply (rep : Reply) (s : State) (x : Cmd) (t : TDesc) (e : Int × Nat) : itemPoison (setReply rep s) x t e = itemPoison s x t e := rfl
@[simp] theorem itemPoisoned_setReply (rep : Reply) (s : State) (x : Cmd) (src dst : TDesc) (i : Item) : itemPoisoned (setReply rep s) x src dst i = itemPoisoned s x src dst i := rfl
@[simp] theorem rawItem_setReply (rep : Reply) (s : State) (x : Cmd) (src dst : TDesc) (o : Out) (i : Item) : rawItem (setReply rep s) x src dst o i = rawItem s x src dst o i := rfl
@[simp] theorem copyPlan_setReply (rep : Reply) (s : State) (x : Cmd) (rd : Rnd) (src dst : TDesc) (sidx didx : List Int) : copyPlan (setReply rep s) x rd src dst sidx didx = copyPlan s x rd src dst sidx didx := rfl
@[simp] theorem outRuns_setReply (rep : Reply) (s : State) (x : Cmd) (dst : TDesc) (o : Out) : outRuns (setReply rep s) x dst o = outRuns s x dst o := rfl
@[simp] theorem tdescRead_setReply (rep : Reply) (s : State) (x : Cmd) (host : Bool) (a side : Nat) : tdescRead (setReply rep s) x host a side = tdescRead s x host a side := rfl
@[simp] theorem copyCheck_setReply (rep : Reply) (s : State) (x : Cmd) (a b : Sum SideFlt TDesc) : copyCheck (setReply rep s) x a b = copyCheck s x a b := rfl
@[simp] theorem deadWrite_setReply (rep : Reply) (s : State) (x : Cmd) (dst : TDesc) (items : List Item) (o : Out) : deadWrite (setReply rep s) x dst items o = deadWrite s x dst items o := rfl
@[simp] theorem copyStartTouches_setReply (rep : Reply) (s : State) (x : Cmd) : copyStartTouches (setReply rep s) x = copyStartTouches s x := rfl
@[simp] theorem indexList_setReply (rep : Reply) (s : State) (x : Cmd) (t : TDesc) : indexList (setReply rep s) x t = indexList s x t := rfl
@[simp] theorem cacheLines_setReply (rep : Reply) (s : State) : cacheLines (setReply rep s) = cacheLines s := rfl
@[simp] theorem frameNum_setReply (rep : Reply) (s : State) (p : Nat) (v : Nat) : frameNum (setReply rep s) p v = frameNum s p v := rfl
@[simp] theorem eligible_setReply (rep : Reply) (s : State) (p g f : Nat) : eligible (setReply rep s) p g f = eligible s p g f := rfl
@[simp] theorem firstEligible_setReply (rep : Reply) (s : State) (p g : Nat) : firstEligible (setReply rep s) p g = firstEligible s p g := rfl
@[simp] theorem bankHas_setReply (rep : Reply) (s : State) (p g k : Nat) : bankHas (setReply rep s) p g k = bankHas s p g k := rfl
@[simp] theorem kvBehind_setReply (rep : Reply) (s : State) (c : Nat) : kvBehind (setReply rep s) c = kvBehind s c := rfl
@[simp] theorem dirRead_setReply (rep : Reply) (s : State) (p d : Nat) : dirRead (setReply rep s) p d = dirRead s p d := rfl
@[simp] theorem imageTargets_setReply (rep : Reply) (s : State) (p : Nat) (e : DirEntry) : imageTargets (setReply rep s) p e = imageTargets s p e := rfl
@[simp] theorem layersOfTag_setReply (rep : Reply) (s : State) (p tag : Nat) : layersOfTag (setReply rep s) p tag = layersOfTag s p tag := rfl
@[simp] theorem targetOk_setReply (rep : Reply) (s : State) (p : Nat) (e : DirEntry) (t : Target) : targetOk (setReply rep s) p e t = targetOk s p e t := rfl
@[simp] theorem adapterOf_setReply (rep : Reply) (s : State) (p i : Nat) : adapterOf (setReply rep s) p i = adapterOf s p i := rfl
@[simp] theorem residentIn_setReply (rep : Reply) (s : State) (p dir : Nat) : residentIn (setReply rep s) p dir = residentIn s p dir := rfl
@[simp] theorem poolPlace_setReply (rep : Reply) (s : State) (p n : Nat) : poolPlace (setReply rep s) p n = poolPlace s p n := rfl
@[simp] theorem lruSlot_setReply (rep : Reply) (s : State) (p : Nat) (busy : List Nat) (keep : Nat → Bool) : lruSlot (setReply rep s) p busy keep = lruSlot s p busy keep := rfl
@[simp] theorem loadFault_setReply (rep : Reply) (s : State) (p dir slot : Nat) : loadFault (setReply rep s) p dir slot = loadFault s p dir slot := rfl
@[simp] theorem startedBefore_setReply (rep : Reply) (s : State) (c cls : Nat) : startedBefore (setReply rep s) c cls = startedBefore s c cls := rfl
@[simp] theorem stepUses_setReply (rep : Reply) (s : State) (c : Nat) : stepUses (setReply rep s) c = stepUses s c := rfl
@[simp] theorem busySlots_setReply (rep : Reply) (s : State) (p : Nat) (x : Cmd) : busySlots (setReply rep s) p x = busySlots s p x := rfl
@[simp] theorem slotRange_setReply (rep : Reply) (s : State) (p i : Nat) : slotRange (setReply rep s) p i = slotRange s p i := rfl
@[simp] theorem adapterFar_setReply (rep : Reply) (s : State) (p dir : Nat) : adapterFar (setReply rep s) p dir = adapterFar s p dir := rfl
@[simp] theorem modelRead_setReply (rep : Reply) (s : State) (p image size : Nat) : modelRead (setReply rep s) p image size = modelRead s p image size := rfl
@[simp] theorem modelChunks_setReply (rep : Reply) (s : State) (p slot : Nat) (isLocal : Bool) : modelChunks (setReply rep s) p slot isLocal = modelChunks s p slot isLocal := rfl
@[simp] theorem placeModel_setReply (rep : Reply) (s : State) (p slot n : Nat) (isLocal : Bool) : placeModel (setReply rep s) p slot n isLocal = placeModel s p slot n isLocal := rfl
@[simp] theorem swapTouches_setReply (rep : Reply) (s : State) (x : Cmd) : swapTouches (setReply rep s) x = swapTouches s x := rfl
@[simp] theorem minSvn_setReply (rep : Reply) (s : State) (t : Nat) : minSvn (setReply rep s) t = minSvn s t := rfl
@[simp] theorem imageError_setReply (rep : Reply) (s : State) (t : Nat) (im : Image) : imageError (setReply rep s) t im = imageError s t im := rfl
@[simp] theorem factoryError_setReply (rep : Reply) (s : State) (t : Nat) : factoryError (setReply rep s) t = factoryError s t := rfl
@[simp] theorem slotImageError_setReply (rep : Reply) (s : State) (sl : FwSlot) (t : Nat) : slotImageError (setReply rep s) sl t = slotImageError s sl t := rfl
@[simp] theorem slotError_setReply (rep : Reply) (s : State) (sl : FwSlot) : slotError (setReply rep s) sl = slotError s sl := rfl
@[simp] theorem bootedSlot_setReply (rep : Reply) (s : State) : bootedSlot (setReply rep s) = bootedSlot s := rfl
@[simp] theorem placedOn_setReply (rep : Reply) (s : State) (n func : Nat) : placedOn (setReply rep s) n func = placedOn s n func := rfl
@[simp] theorem smbusValue_setReply (rep : Reply) (s : State) (code : Nat) : smbusValue (setReply rep s) code = smbusValue s code := rfl
@[simp] theorem bankFlags_setReply (rep : Reply) (s : State) (c : Nat) : bankFlags (setReply rep s) c = bankFlags s c := rfl
@[simp] theorem bankSector_setReply (rep : Reply) (s : State) (g k : Nat) : bankSector (setReply rep s) g k = bankSector s g k := rfl
@[simp] theorem sectorView_setReply (rep : Reply) (s : State) (g : Nat) (q : CloveProg) (k : Nat) : sectorView (setReply rep s) g q k = sectorView s g q k := rfl
@[simp] theorem cloveWord_setReply (rep : Reply) (s : State) (g : Nat) (q : CloveProg) (off : Nat) : cloveWord (setReply rep s) g q off = cloveWord s g q off := rfl
@[simp] theorem cloveWords_setReply (rep : Reply) (s : State) (g : Nat) (q : CloveProg) (off n : Nat) : cloveWords (setReply rep s) g q off n = cloveWords s g q off n := rfl
@[simp] theorem suspendPending_setReply (rep : Reply) (s : State) (q : CloveProg) : suspendPending (setReply rep s) q = suspendPending s q := rfl
@[simp] theorem bankBytes_setReply (rep : Reply) (s : State) (g off n : Nat) : bankBytes (setReply rep s) g off n = bankBytes s g off n := rfl
@[simp] theorem restoreLaid_setReply (rep : Reply) (s : State) (g : Nat) (m : SavedImage) (q : CloveProg) : restoreLaid (setReply rep s) g m q = restoreLaid s g m q := rfl
@[simp] theorem restoreOpen_setReply (rep : Reply) (s : State) (g : Nat) (m : SavedImage) (q : CloveProg) : restoreOpen (setReply rep s) g m q = restoreOpen s g m q := rfl
@[simp] theorem restored_setReply (rep : Reply) (s : State) (g : Nat) (q : CloveProg) : restored (setReply rep s) g q = restored s g q := rfl
@[simp] theorem askLive_setReply (rep : Reply) (s : State) (key : Nat) : askLive (setReply rep s) key = askLive s key := rfl
@[simp] theorem bankServing_setReply (rep : Reply) (s : State) (g : Nat) : bankServing (setReply rep s) g = bankServing s g := rfl
@[simp] theorem activeProg_setReply (rep : Reply) (s : State) (g : Nat) : activeProg (setReply rep s) g = activeProg s g := rfl
@[simp] theorem ldDone_setReply (rep : Reply) (g w : Nat) (s : State) (q : CloveProg) : ldDone g w (setReply rep s) q = ldDone g w s q := rfl
@[simp] theorem onCloves_setReply (rep : Reply) (s : State) (c : Nat) : onCloves (setReply rep s) c = onCloves s c := rfl
@[simp] theorem slotHeld_setReply (rep : Reply) (s : State) (p g j : Nat) : slotHeld (setReply rep s) p g j = slotHeld s p g j := rfl
@[simp] theorem slotsHeld_setReply (rep : Reply) (s : State) (p g off n : Nat) : slotsHeld (setReply rep s) p g off n = slotsHeld s p g off n := rfl
@[simp] theorem computeStack_setReply (rep : Reply) (s : State) (st : Nat) : computeStack (setReply rep s) st = computeStack s st := rfl
@[simp] theorem launchFaults_setReply (rep : Reply) (s : State) (p : Nat) (ls : List Launch) (i : Nat) (e : Launch) : launchFaults (setReply rep s) p ls i e = launchFaults s p ls i e := rfl
@[simp] theorem bankRunOf_setReply (rep : Reply) (s : State) (x : Cmd) : bankRunOf (setReply rep s) x = bankRunOf s x := rfl
@[simp] theorem tableRead_setReply (rep : Reply) (s : State) (x : Cmd) (host : Bool) (a k n : Nat) : tableRead (setReply rep s) x host a k n = tableRead s x host a k n := rfl
@[simp] theorem imageChecks_setReply (rep : Reply) (s : State) (x : Cmd) : imageChecks (setReply rep s) x = imageChecks s x := rfl
@[simp] theorem launchChecks_setReply (rep : Reply) (s : State) (x : Cmd) : launchChecks (setReply rep s) x = launchChecks s x := rfl
@[simp] theorem flushChecks_setReply (rep : Reply) (s : State) (x : Cmd) : flushChecks (setReply rep s) x = flushChecks s x := rfl
@[simp] theorem bankRunFault_setReply (rep : Reply) (s : State) (x : Cmd) : bankRunFault (setReply rep s) x = bankRunFault s x := rfl
@[simp] theorem windowMeets_setReply (rep : Reply) (s : State) (p d a n : Nat) : windowMeets (setReply rep s) p d a n = windowMeets s p d a n := rfl
@[simp] theorem tensorMeets_setReply (rep : Reply) (s : State) (x : Cmd) (host : Bool) (desc a n : Nat) : tensorMeets (setReply rep s) x host desc a n = tensorMeets s x host desc a n := rfl
@[simp] theorem commandMeets_setReply (rep : Reply) (s : State) (d a n : Nat) : commandMeets (setReply rep s) d a n = commandMeets s d a n := rfl
@[simp] theorem flushBusy_setReply (rep : Reply) (s : State) (c : Nat) (e : Nat × Nat) : flushBusy (setReply rep s) c e = flushBusy s c e := rfl
@[simp] theorem writable_setReply (rep : Reply) (s : State) (t k : Nat) : writable (setReply rep s) t k = writable s t k := rfl
@[simp] theorem valueRead_setReply (rep : Reply) (s : State) (x : Cmd) (t : TDesc) (off : Int) : valueRead (setReply rep s) x t off = valueRead s x t off := rfl
@[simp] theorem streamRead_setReply (rep : Reply) (s : State) (x : Cmd) (t : TDesc) : streamRead (setReply rep s) x t = streamRead s x t := rfl
@[simp] theorem fabMover_setReply (rep : Reply) (s : State) : fabMover (setReply rep s) = fabMover s := rfl
@[simp] theorem elemsOk_setReply (rep : Reply) (s : State) (x : Cmd) (t : TDesc) (write : Bool) : elemsOk (setReply rep s) x t write = elemsOk s x t write := rfl
@[simp] theorem fabTensor_setReply (rep : Reply) (s : State) (x : Cmd) (dst : Bool) (d : Sum SideFlt TDesc) : fabTensor (setReply rep s) x dst d = fabTensor s x dst d := rfl
@[simp] theorem domainPart_setReply (rep : Reply) (s : State) (d : Nat) : domainPart (setReply rep s) d = domainPart s d := rfl
@[simp] theorem fabDomain_setReply (rep : Reply) (s : State) (x : Cmd) : fabDomain (setReply rep s) x = fabDomain s x := rfl
@[simp] theorem sendTensor_setReply (rep : Reply) (s : State) (x : Cmd) : sendTensor (setReply rep s) x = sendTensor s x := rfl
@[simp] theorem sendFault_setReply (rep : Reply) (s : State) (x : Cmd) : sendFault (setReply rep s) x = sendFault s x := rfl
@[simp] theorem recvTensor_setReply (rep : Reply) (s : State) (x : Cmd) : recvTensor (setReply rep s) x = recvTensor s x := rfl
@[simp] theorem recvFault_setReply (rep : Reply) (s : State) (x : Cmd) : recvFault (setReply rep s) x = recvFault s x := rfl
@[simp] theorem ackTarget_setReply (rep : Reply) (s : State) (p : Nat) (k : Packet) : ackTarget (setReply rep s) p k = ackTarget s p k := rfl
@[simp] theorem unackedSend_setReply (rep : Reply) (s : State) (c off : Nat) : unackedSend (setReply rep s) c off = unackedSend s c off := rfl
@[simp] theorem ringIds_setReply (rep : Reply) (s : State) (x : Cmd) : ringIds (setReply rep s) x = ringIds s x := rfl
@[simp] theorem collPos_setReply (rep : Reply) (s : State) (ids : List Nat) : collPos (setReply rep s) ids = collPos s ids := rfl
@[simp] theorem ringValid_setReply (rep : Reply) (s : State) (ids : List Nat) : ringValid (setReply rep s) ids = ringValid s ids := rfl
@[simp] theorem collSrc_setReply (rep : Reply) (s : State) (x : Cmd) : collSrc (setReply rep s) x = collSrc s x := rfl
@[simp] theorem collDst_setReply (rep : Reply) (s : State) (x : Cmd) : collDst (setReply rep s) x = collDst s x := rfl
@[simp] theorem collPair_setReply (rep : Reply) (s : State) (x : Cmd) (ring : Bool) (src dst : TDesc) : collPair (setReply rep s) x ring src dst = collPair s x ring src dst := rfl
@[simp] theorem ownSums_setReply (rep : Reply) (s : State) (x : Cmd) (t : TDesc) : ownSums (setReply rep s) x t = ownSums s x t := rfl
@[simp] theorem collFaults_setReply (rep : Reply) (s : State) (x : Cmd) : collFaults (setReply rep s) x = collFaults s x := rfl
@[simp] theorem collDescX_setReply (rep : Reply) (x : CollCtx) (s : State) : collDescX x (setReply rep s) = collDescX x s := rfl
@[simp] theorem stepOver_setReply (rep : Reply) (s : State) (x : CollCtx) : stepOver (setReply rep s) x = stepOver s x := rfl
@[simp] theorem collReady_setReply (rep : Reply) (s : State) (c : Nat) : collReady (setReply rep s) c = collReady s c := rfl
@[simp] theorem collOld_setReply (rep : Reply) (s : State) (k : Packet) : collOld (setReply rep s) k = collOld s k := rfl
@[simp] theorem collFor_setReply (rep : Reply) (f : CollCtx → Bool) (k : Packet) (s : State) : collFor f k (setReply rep s) = collFor f k s := rfl
@[simp] theorem block10_setReply (rep : Reply) (s : State) : block10 (setReply rep s) = block10 s := rfl
@[simp] theorem packetWay_setReply (rep : Reply) (s : State) (pt : Nat) (y : Flit) : packetWay (setReply rep s) pt y = packetWay s pt y := rfl
@[simp] theorem stepGet_setReply (rep : Reply) (s : State) (x : Cmd) (host : Bool) (i a n : Nat) : stepGet (setReply rep s) x host i a n = stepGet s x host i a n := rfl
@[simp] theorem stepTokens_setReply (rep : Reply) (s : State) (k : StepCtx) (q : StepReq) : stepTokens (setReply rep s) k q = stepTokens s k q := rfl
@[simp] theorem stepTree_setReply (rep : Reply) (s : State) (k : StepCtx) (q : StepReq) : stepTree (setReply rep s) k q = stepTree s k q := rfl
@[simp] theorem stepAdapter_setReply (rep : Reply) (s : State) (k : StepCtx) (q : StepReq) : stepAdapter (setReply rep s) k q = stepAdapter s k q := rfl
@[simp] theorem journalReadable_setReply (rep : Reply) (s : State) (p : Nat) : journalReadable (setReply rep s) p = journalReadable s p := rfl
@[simp] theorem frameHolder_setReply (rep : Reply) (s : State) (n : Nat) : frameHolder (setReply rep s) n = frameHolder s n := rfl
@[simp] theorem wordPlace_setReply (rep : Reply) (s : State) (p g off : Nat) : wordPlace (setReply rep s) p g off = wordPlace s p g off := rfl
@[simp] theorem chunkBank_setReply (rep : Reply) (s : State) (p c : Nat) : chunkBank (setReply rep s) p c = chunkBank s p c := rfl
@[simp] theorem wordRetiring_setReply (rep : Reply) (s : State) (g off : Nat) : wordRetiring (setReply rep s) g off = wordRetiring s g off := rfl
@[simp] theorem wordOfKv_setReply (rep : Reply) (s : State) (p g off : Nat) : wordOfKv (setReply rep s) p g off = wordOfKv s p g off := rfl
@[simp] theorem modelParts_setReply (rep : Reply) (s : State) (p : Nat) (m : ModelSlot) : modelParts (setReply rep s) p m = modelParts s p m := rfl
@[simp] theorem factorCol_setReply (rep : Reply) (s : State) (x : Cmd) (e : DirEntry) (at_ k n c : Nat) : factorCol (setReply rep s) x e at_ k n c = factorCol s x e at_ k n c := rfl
@[simp] theorem sideU_setReply (rep : Reply) (s : State) (x : Cmd) (e : DirEntry) (at_ dIn : Nat) (row : List Val) : sideU (setReply rep s) x e at_ dIn row = sideU s x e at_ dIn row := rfl
@[simp] theorem sideV_setReply (rep : Reply) (s : State) (x : Cmd) (e : DirEntry) (at_ dOut : Nat) (u : List Val) (j : Nat) : sideV (setReply rep s) x e at_ dOut u j = sideV s x e at_ dOut u j := rfl
@[simp] theorem slotTarget_setReply (rep : Reply) (s : State) (p layer proj slot : Nat) : slotTarget (setReply rep s) p layer proj slot = slotTarget s p layer proj slot := rfl
@[simp] theorem segmentSide_setReply (rep : Reply) (s : State) (x : Cmd) (p layer proj slot : Nat) (rows : List (Nat × List Val)) : segmentSide (setReply rep s) x p layer proj slot rows = segmentSide s x p layer proj slot rows := rfl
@[simp] theorem sideProducts_setReply (rep : Reply) (s : State) (c : LayerCtx) (layer proj : Nat) (rows : List BatchRow) (xs : List (List Val)) : sideProducts (setReply rep s) c layer proj rows xs = sideProducts s c layer proj rows xs := rfl
@[simp] theorem sideRanges_setReply (rep : Reply) (s : State) (c : LayerCtx) (layer proj : Nat) (rows : List BatchRow) : sideRanges (setReply rep s) c layer proj rows = sideRanges s c layer proj rows := rfl
@[simp] theorem project_setReply (rep : Reply) (s : State) (c : LayerCtx) (layer : Nat) (b : Batch) (proj : Nat) : project (setReply rep s) c layer b proj = project s c layer b proj := rfl
@[simp] theorem storedRow_setReply (rep : Reply) (s : State) (p v : Nat) (r : KvRec) (side t : Nat) : storedRow (setReply rep s) p v r side t = storedRow s p v r side t := rfl
@[simp] theorem frameRows_setReply (rep : Reply) (s : State) (c : LayerCtx) (r : KvRec) (v : Option Nat) (ts : List Nat) : frameRows (setReply rep s) c r v ts = frameRows s c r v ts := rfl
@[simp] theorem frameCompute_setReply (rep : Reply) (s : State) (p v : Nat) : frameCompute (setReply rep s) p v = frameCompute s p v := rfl
@[simp] theorem listBanks_setReply (rep : Reply) (s : State) (p : Nat) (l : List (Nat × Nat)) : listBanks (setReply rep s) p l = listBanks s p l := rfl
@[simp] theorem freeRows_setReply (rep : Reply) (k : StepCtx) (l : List StepWork) (s : State) : freeRows k l (setReply rep s) = freeRows k l s := rfl
@[simp] theorem stepOnCloves_setReply (rep : Reply) (s : State) (k : StepCtx) (rows : Nat) : stepOnCloves (setReply rep s) k rows = stepOnCloves s k rows := rfl
@[simp] theorem stepWaits_setReply (rep : Reply) (s : State) (c : Nat) : stepWaits (setReply rep s) c = stepWaits s c := rfl
@[simp] theorem evictPart_setReply (rep : Reply) (x : Cmd) (s : State) : evictPart x (setReply rep s) = evictPart x s := rfl
@[simp] theorem reclaimed_setReply (rep : Reply) (s : State) (p target used0 : Nat) : reclaimed (setReply rep s) p target used0 = reclaimed s p target used0 := rfl
@[simp] theorem busyParts_setReply (rep : Reply) (s : State) (q : Nat → Cmd → Bool) : busyParts (setReply rep s) q = busyParts s q := rfl
@[simp] theorem coreParts_setReply (rep : Reply) (s : State) (n : Nat) : coreParts (setReply rep s) n = coreParts s n := rfl
@[simp] theorem cloveJobs_setReply (rep : Reply) (s : State) (g : Nat) : cloveJobs (setReply rep s) g = cloveJobs s g := rfl
@[simp] theorem cloveParts_setReply (rep : Reply) (s : State) (g : Nat) : cloveParts (setReply rep s) g = cloveParts s g := rfl
@[simp] theorem moverParts_setReply (rep : Reply) (s : State) (m : Nat) : moverParts (setReply rep s) m = moverParts s m := rfl
@[simp] theorem anyParts_setReply (rep : Reply) (s : State) : anyParts (setReply rep s) = anyParts s := rfl
@[simp] theorem acParts_setReply (rep : Reply) (s : State) (a : Nat) : acParts (setReply rep s) a = acParts s a := rfl
@[simp] theorem groupKey_setReply (rep : Reply) (s : State) (j : Nat × Nat) : groupKey (setReply rep s) j = groupKey s j := rfl
@[simp] theorem dueUnits_setReply (rep : Reply) (k : Nat) (s : State) (key : Nat) : dueUnits k (setReply rep s) key = dueUnits k s key := rfl
@[simp] theorem groupFree_setReply (rep : Reply) (s : State) (k : Nat) : groupFree (setReply rep s) k = groupFree s k := rfl
@[simp] theorem freeCore_setReply (rep : Reply) (s : State) : freeCore (setReply rep s) = freeCore s := rfl
@[simp] theorem restCores_setReply (rep : Reply) (s : State) (p : Nat) : restCores (setReply rep s) p = restCores s p := rfl
@[simp] theorem restCore_setReply (rep : Reply) (s : State) (p : Nat) : restCore (setReply rep s) p = restCore s p := rfl
@[simp] theorem indicesOn_setReply (rep : Reply) (s : State) (p n : Nat) : indicesOn (setReply rep s) p n = indicesOn s p n := rfl
@[simp] theorem coreJobs_setReply (rep : Reply) (s : State) (n : Nat) : coreJobs (setReply rep s) n = coreJobs s n := rfl
@[simp] theorem freeAc_setReply (rep : Reply) (s : State) : freeAc (setReply rep s) = freeAc s := rfl
@[simp] theorem wroteWord_setReply (rep : Reply) (s : State) (p : Nat) (j : Nat × Nat) (g off : Nat) : wroteWord (setReply rep s) p j g off = wroteWord s p j g off := rfl
@[simp] theorem groupLost_setReply (rep : Reply) (s : State) (cs : List Nat) : groupLost (setReply rep s) cs = groupLost s cs := rfl
@[simp] theorem sessionOf_setReply (rep : Reply) (s : State) (f n : Nat) : sessionOf (setReply rep s) f n = sessionOf s f n := rfl
@[simp] theorem pfSession_setReply (rep : Reply) (s : State) (n : Nat) : pfSession (setReply rep s) n = pfSession s n := rfl
@[simp] theorem ownerSession_setReply (rep : Reply) (s : State) (n : Nat) : ownerSession (setReply rep s) n = ownerSession s n := rfl
@[simp] theorem allowed_setReply (rep : Reply) (s : State) (op : Nat) (n : Nat) : allowed (setReply rep s) op n = allowed s op n := rfl
@[simp] theorem liveParts_setReply (rep : Reply) (s : State) : liveParts (setReply rep s) = liveParts s := rfl
@[simp] theorem semRanges_setReply (rep : Reply) (s : State) : semRanges (setReply rep s) = semRanges s := rfl
@[simp] theorem ctRanges_setReply (rep : Reply) (s : State) (but : Nat) : ctRanges (setReply rep s) but = ctRanges s but := rfl
@[simp] theorem farRanges_setReply (rep : Reply) (s : State) : farRanges (setReply rep s) = farRanges s := rfl
@[simp] theorem farTotal_setReply (rep : Reply) (s : State) : farTotal (setReply rep s) = farTotal s := rfl
@[simp] theorem sumParts_setReply (rep : Reply) (s : State) (f : Part → Nat) : sumParts (setReply rep s) f = sumParts s f := rfl
@[simp] theorem freeChunk_setReply (rep : Reply) (s : State) (k : Nat) : freeChunk (setReply rep s) k = freeChunk s k := rfl
@[simp] theorem holdsRetired_setReply (rep : Reply) (s : State) (k : Nat) : holdsRetired (setReply rep s) k = holdsRetired s k := rfl
@[simp] theorem choiceOk_setReply (rep : Reply) (s : State) (l : List (Nat × Bool)) (n pool : Nat) : choiceOk (setReply rep s) l n pool = choiceOk s l n pool := rfl
@[simp] theorem chunksLack_setReply (rep : Reply) (s : State) (n pool : Nat) : chunksLack (setReply rep s) n pool = chunksLack s n pool := rfl
@[simp] theorem othersOn_setReply (rep : Reply) (s : State) (st : Nat) : othersOn (setReply rep s) st = othersOn s st := rfl
@[simp] theorem modesDiffer_setReply (rep : Reply) (s : State) (m : BitVec 8) : modesDiffer (setReply rep s) m = modesDiffer s m := rfl
@[simp] theorem stagingHeld_setReply (rep : Reply) (s : State) (m : W64) : stagingHeld (setReply rep s) m = stagingHeld s m := rfl
@[simp] theorem heldResult_setReply (rep : Reply) (s : State) (i : Nat) : heldResult (setReply rep s) i = heldResult s i := rfl
@[simp] theorem createLacks_setReply (rep : Reply) (s : State) (a : PartParams) : createLacks (setReply rep s) a = createLacks s a := rfl
@[simp] theorem newPart_setReply (rep : Reply) (s : State) (p ac : Nat) (a : PartParams) : newPart (setReply rep s) p ac a = newPart s p ac a := rfl
@[simp] theorem eccWindowOk_setReply (rep : Reply) (s : State) (p st chunk : Nat) : eccWindowOk (setReply rep s) p st chunk = eccWindowOk s p st chunk := rfl
@[simp] theorem setOk_setReply (rep : Reply) (s : State) (l : List Image) : setOk (setReply rep s) l = setOk s l := rfl
@[simp] theorem validKeys_setReply (rep : Reply) (s : State) : validKeys (setReply rep s) = validKeys s := rfl
@[simp] theorem bindRefused_setReply (rep : Reply) (s : State) (f : Nat) : bindRefused (setReply rep s) f = bindRefused s f := rfl
@[simp] theorem ranJob_setReply (rep : Reply) (s : State) (f r : Nat) : ranJob (setReply rep s) f r = ranJob s f r := rfl
@[simp] theorem energyOk_setReply (rep : Reply) (s : State) (total : Nat) (parts : List (Nat × Nat)) (rings : List (Nat × Nat × Nat)) : energyOk (setReply rep s) total parts rings = energyOk s total parts rings := rfl
@[simp] theorem wholeEnergy_setReply (rep : Reply) (s : State) (measured : Nat) : wholeEnergy (setReply rep s) measured = wholeEnergy s measured := rfl
@[simp] theorem readsHot_setReply (rep : Reply) (s : State) : readsHot (setReply rep s) = readsHot s := rfl
@[simp] theorem readsClear_setReply (rep : Reply) (s : State) : readsClear (setReply rep s) = readsClear s := rfl
@[simp] theorem sensing_setReply (rep : Reply) (s : State) : sensing (setReply rep s) = sensing s := rfl
@[simp] theorem coolEnough_setReply (rep : Reply) (s : State) : coolEnough (setReply rep s) = coolEnough s := rfl
@[simp] theorem farHolder_setReply (rep : Reply) (s : State) (a : Nat) : farHolder (setReply rep s) a = farHolder s a := rfl
@[simp] theorem swappable_setReply (rep : Reply) (s : State) (p : Nat) (e : Nat × CoreImage) : swappable (setReply rep s) p e = swappable s p e := rfl
@[simp] theorem badSize_setReply (rep : Reply) (s : State) (f bar off size : Nat) : badSize (setReply rep s) f bar off size = badSize s f bar off size := rfl
@[simp] theorem answersRetry_setReply (rep : Reply) (s : State) (f : Nat) : answersRetry (setReply rep s) f = answersRetry s f := rfl
@[simp] theorem wakes_setReply (rep : Reply) (s : State) (k : Nat) : wakes (setReply rep s) k = wakes s k := rfl
@[simp] theorem wakeAllowed_setReply (rep : Reply) (s : State) : wakeAllowed (setReply rep s) = wakeAllowed s := rfl
@[simp] theorem hibernateWake_setReply (rep : Reply) (s : State) : hibernateWake (setReply rep s) = hibernateWake s := rfl
@[simp] theorem doeOf_setReply (rep : Reply) (s : State) (f : Nat) : doeOf (setReply rep s) f = doeOf s f := rfl
@[simp] theorem certChain_setReply (rep : Reply) (s : State) (slot : Nat) : certChain (setReply rep s) slot = certChain s slot := rfl
@[simp] theorem measuredPart_setReply (rep : Reply) (s : State) (f : Nat) : measuredPart (setReply rep s) f = measuredPart s f := rfl
@[simp] theorem partBlock_setReply (rep : Reply) (s : State) (p : Nat) : partBlock (setReply rep s) p = partBlock s p := rfl
@[simp] theorem stwDevice_setReply (rep : Reply) (s : State) : stwDevice (setReply rep s) = stwDevice s := rfl
@[simp] theorem measureBlock_setReply (rep : Reply) (s : State) (f i : Nat) : measureBlock (setReply rep s) f i = measureBlock s f i := rfl
@[simp] theorem measureIxs_setReply (rep : Reply) (s : State) (f : Nat) : measureIxs (setReply rep s) f = measureIxs s f := rfl
@[simp] theorem measured_setReply (rep : Reply) (s : State) (f i : Nat) : measured (setReply rep s) f i = measured s f i := rfl
@[simp] theorem doeFull_setReply (rep : Reply) (s : State) (f : Nat) (owner : Bool) : doeFull (setReply rep s) f owner = doeFull s f owner := rfl
@[simp] theorem anySession_setReply (rep : Reply) (s : State) (f n : Nat) : anySession (setReply rep s) f n = anySession s f n := rfl

end Sys2Proof.Machine
end

