-- ==== Sys2Proof/Laws/State.lean ====
section
/-!
SUPPORT. One lemma per field and per accessor of State for each shared update: what the update writes and what it leaves.
-/
namespace Sys2Proof.Machine

/-! ### modFn -/

@[simp] theorem modFn_mem (f : Nat) (g : Fn → Fn) (s : State) : (modFn f g s).mem = s.mem := rfl
@[simp] theorem modFn_sem (f : Nat) (g : Fn → Fn) (s : State) : (modFn f g s).sem = s.sem := rfl
@[simp] theorem modFn_saf (f : Nat) (g : Fn → Fn) (s : State) : (modFn f g s).saf = s.saf := rfl
@[simp] theorem modFn_app (f : Nat) (g : Fn → Fn) (s : State) : (modFn f g s).app = s.app := rfl
@[simp] theorem modFn_mov (f : Nat) (g : Fn → Fn) (s : State) : (modFn f g s).mov = s.mov := rfl
@[simp] theorem modFn_staging (f : Nat) (g : Fn → Fn) (s : State) : (modFn f g s).staging = s.staging := rfl
@[simp] theorem modFn_clv (f : Nat) (g : Fn → Fn) (s : State) : (modFn f g s).clv = s.clv := rfl
@[simp] theorem modFn_kvt (f : Nat) (g : Fn → Fn) (s : State) : (modFn f g s).kvt = s.kvt := rfl
@[simp] theorem modFn_parts (f : Nat) (g : Fn → Fn) (s : State) : (modFn f g s).parts = s.parts := rfl
@[simp] theorem modFn_stw (f : Nat) (g : Fn → Fn) (s : State) : (modFn f g s).stw = s.stw := rfl
@[simp] theorem modFn_pwr (f : Nat) (g : Fn → Fn) (s : State) : (modFn f g s).pwr = s.pwr := rfl
@[simp] theorem modFn_thm (f : Nat) (g : Fn → Fn) (s : State) : (modFn f g s).thm = s.thm := rfl
@[simp] theorem modFn_evc (f : Nat) (g : Fn → Fn) (s : State) : (modFn f g s).evc = s.evc := rfl
@[simp] theorem modFn_sec (f : Nat) (g : Fn → Fn) (s : State) : (modFn f g s).sec = s.sec := rfl
@[simp] theorem modFn_rst (f : Nat) (g : Fn → Fn) (s : State) : (modFn f g s).rst = s.rst := rfl
@[simp] theorem modFn_reply (f : Nat) (g : Fn → Fn) (s : State) : (modFn f g s).reply = s.reply := rfl
@[simp] theorem modFn_freeCtr (f : Nat) (g : Fn → Fn) (s : State) : (modFn f g s).freeCtr = s.freeCtr := rfl
@[simp] theorem modFn_pending (f : Nat) (g : Fn → Fn) (s : State) : (modFn f g s).pending = s.pending := rfl
@[simp] theorem modFn_fnOf (f : Nat) (g : Fn → Fn) (s : State) (x : Nat) : fnOf (modFn f g s) x = if x = f then g (fnOf s f) else fnOf s x := by
  simp only [fnOf, modFn, tabGet_tabMod]
theorem modFn_ringOf (f : Nat) (g : Fn → Fn) (s : State) (x y : Nat) :
    ringOf (modFn f g s) x y = if x = f then tabGet {} (g (fnOf s f)).rings y else ringOf s x y := by
  simp only [ringOf, modFn_fnOf]; split <;> rfl
theorem modFn_bufOf (f : Nat) (g : Fn → Fn) (s : State) (x y : Nat) :
    bufOf (modFn f g s) x y = if x = f then tabGet {} (g (fnOf s f)).bufs y else bufOf s x y := by
  simp only [bufOf, modFn_fnOf]; split <;> rfl
theorem modFn_vecOf (f : Nat) (g : Fn → Fn) (s : State) (x y : Nat) :
    vecOf (modFn f g s) x y = if x = f then tabGet {} (g (fnOf s f)).msix y else vecOf s x y := by
  simp only [vecOf, modFn_fnOf]; split <;> rfl
@[simp] theorem modFn_cmdOf (f : Nat) (g : Fn → Fn) (s : State) (x : Nat) : cmdOf (modFn f g s) x = cmdOf s x := rfl
@[simp] theorem modFn_partOf (f : Nat) (g : Fn → Fn) (s : State) (x : Nat) : partOf (modFn f g s) x = partOf s x := rfl
@[simp] theorem modFn_coreOf (f : Nat) (g : Fn → Fn) (s : State) (x : Nat) : coreOf (modFn f g s) x = coreOf s x := rfl
@[simp] theorem modFn_spadOf (f : Nat) (g : Fn → Fn) (s : State) (x : Nat) : spadOf (modFn f g s) x = spadOf s x := rfl
@[simp] theorem modFn_moverOf (f : Nat) (g : Fn → Fn) (s : State) (x : Nat) : moverOf (modFn f g s) x = moverOf s x := rfl
@[simp] theorem modFn_cloveOf (f : Nat) (g : Fn → Fn) (s : State) (x : Nat) : cloveOf (modFn f g s) x = cloveOf s x := rfl
@[simp] theorem modFn_frameOf (f : Nat) (g : Fn → Fn) (s : State) (x : Nat) : frameOf (modFn f g s) x = frameOf s x := rfl
@[simp] theorem modFn_portOf (f : Nat) (g : Fn → Fn) (s : State) (x : Nat) : portOf (modFn f g s) x = portOf s x := rfl
@[simp] theorem modFn_groupOf (f : Nat) (g : Fn → Fn) (s : State) (x : Nat) : groupOf (modFn f g s) x = groupOf s x := rfl
@[simp] theorem modFn_targetOf (f : Nat) (g : Fn → Fn) (s : State) (x : Nat) : targetOf (modFn f g s) x = targetOf s x := rfl
@[simp] theorem modFn_routeOf (f : Nat) (g : Fn → Fn) (s : State) (x : Nat) : routeOf (modFn f g s) x = routeOf s x := rfl
@[simp] theorem modFn_sensorOf (f : Nat) (g : Fn → Fn) (s : State) (x : Nat) : sensorOf (modFn f g s) x = sensorOf s x := rfl
@[simp] theorem modFn_farPortOf (f : Nat) (g : Fn → Fn) (s : State) (x : Nat) : farPortOf (modFn f g s) x = farPortOf s x := rfl
@[simp] theorem modFn_eccOf (f : Nat) (g : Fn → Fn) (s : State) (x : Nat) : eccOf (modFn f g s) x = eccOf s x := rfl
@[simp] theorem modFn_claimOf (f : Nat) (g : Fn → Fn) (s : State) (x : Nat) : claimOf (modFn f g s) x = claimOf s x := rfl

/-! ### modRing -/

@[simp] theorem modRing_mem (f r : Nat) (g : Ring → Ring) (s : State) : (modRing f r g s).mem = s.mem := rfl
@[simp] theorem modRing_sem (f r : Nat) (g : Ring → Ring) (s : State) : (modRing f r g s).sem = s.sem := rfl
@[simp] theorem modRing_saf (f r : Nat) (g : Ring → Ring) (s : State) : (modRing f r g s).saf = s.saf := rfl
@[simp] theorem modRing_app (f r : Nat) (g : Ring → Ring) (s : State) : (modRing f r g s).app = s.app := rfl
@[simp] theorem modRing_mov (f r : Nat) (g : Ring → Ring) (s : State) : (modRing f r g s).mov = s.mov := rfl
@[simp] theorem modRing_staging (f r : Nat) (g : Ring → Ring) (s : State) : (modRing f r g s).staging = s.staging := rfl
@[simp] theorem modRing_clv (f r : Nat) (g : Ring → Ring) (s : State) : (modRing f r g s).clv = s.clv := rfl
@[simp] theorem modRing_kvt (f r : Nat) (g : Ring → Ring) (s : State) : (modRing f r g s).kvt = s.kvt := rfl
@[simp] theorem modRing_parts (f r : Nat) (g : Ring → Ring) (s : State) : (modRing f r g s).parts = s.parts := rfl
@[simp] theorem modRing_stw (f r : Nat) (g : Ring → Ring) (s : State) : (modRing f r g s).stw = s.stw := rfl
@[simp] theorem modRing_pwr (f r : Nat) (g : Ring → Ring) (s : State) : (modRing f r g s).pwr = s.pwr := rfl
@[simp] theorem modRing_thm (f r : Nat) (g : Ring → Ring) (s : State) : (modRing f r g s).thm = s.thm := rfl
@[simp] theorem modRing_evc (f r : Nat) (g : Ring → Ring) (s : State) : (modRing f r g s).evc = s.evc := rfl
@[simp] theorem modRing_sec (f r : Nat) (g : Ring → Ring) (s : State) : (modRing f r g s).sec = s.sec := rfl
@[simp] theorem modRing_rst (f r : Nat) (g : Ring → Ring) (s : State) : (modRing f r g s).rst = s.rst := rfl
@[simp] theorem modRing_reply (f r : Nat) (g : Ring → Ring) (s : State) : (modRing f r g s).reply = s.reply := rfl
@[simp] theorem modRing_freeCtr (f r : Nat) (g : Ring → Ring) (s : State) : (modRing f r g s).freeCtr = s.freeCtr := rfl
@[simp] theorem modRing_pending (f r : Nat) (g : Ring → Ring) (s : State) : (modRing f r g s).pending = s.pending := rfl
@[simp] theorem modRing_fnOf (f r : Nat) (g : Ring → Ring) (s : State) (x : Nat) :
    fnOf (modRing f r g s) x = if x = f then { fnOf s f with rings := tabMod {} (fnOf s f).rings r g } else fnOf s x := by
  simp only [modRing, modFn_fnOf]
@[simp] theorem modRing_ringOf (f r : Nat) (g : Ring → Ring) (s : State) (x y : Nat) :
    ringOf (modRing f r g s) x y = if x = f ∧ y = r then g (ringOf s f r) else ringOf s x y := by
  simp only [ringOf, modRing, modFn, fnOf, tabGet_tabMod]
  by_cases h : x = f
  · subst h; simp
  · simp [h]
@[simp] theorem modRing_bufOf (f r : Nat) (g : Ring → Ring) (s : State) (x y : Nat) : bufOf (modRing f r g s) x y = bufOf s x y := by
  simp only [bufOf, modRing, modFn_fnOf]; by_cases h : x = f
  · subst h; simp
  · simp [h]
@[simp] theorem modRing_vecOf (f r : Nat) (g : Ring → Ring) (s : State) (x y : Nat) : vecOf (modRing f r g s) x y = vecOf s x y := by
  simp only [vecOf, modRing, modFn_fnOf]; by_cases h : x = f
  · subst h; simp
  · simp [h]
@[simp] theorem modRing_cmdOf (f r : Nat) (g : Ring → Ring) (s : State) (x : Nat) : cmdOf (modRing f r g s) x = cmdOf s x := rfl
@[simp] theorem modRing_partOf (f r : Nat) (g : Ring → Ring) (s : State) (x : Nat) : partOf (modRing f r g s) x = partOf s x := rfl
@[simp] theorem modRing_coreOf (f r : Nat) (g : Ring → Ring) (s : State) (x : Nat) : coreOf (modRing f r g s) x = coreOf s x := rfl
@[simp] theorem modRing_spadOf (f r : Nat) (g : Ring → Ring) (s : State) (x : Nat) : spadOf (modRing f r g s) x = spadOf s x := rfl
@[simp] theorem modRing_moverOf (f r : Nat) (g : Ring → Ring) (s : State) (x : Nat) : moverOf (modRing f r g s) x = moverOf s x := rfl
@[simp] theorem modRing_cloveOf (f r : Nat) (g : Ring → Ring) (s : State) (x : Nat) : cloveOf (modRing f r g s) x = cloveOf s x := rfl
@[simp] theorem modRing_frameOf (f r : Nat) (g : Ring → Ring) (s : State) (x : Nat) : frameOf (modRing f r g s) x = frameOf s x := rfl
@[simp] theorem modRing_portOf (f r : Nat) (g : Ring → Ring) (s : State) (x : Nat) : portOf (modRing f r g s) x = portOf s x := rfl
@[simp] theorem modRing_groupOf (f r : Nat) (g : Ring → Ring) (s : State) (x : Nat) : groupOf (modRing f r g s) x = groupOf s x := rfl
@[simp] theorem modRing_targetOf (f r : Nat) (g : Ring → Ring) (s : State) (x : Nat) : targetOf (modRing f r g s) x = targetOf s x := rfl
@[simp] theorem modRing_routeOf (f r : Nat) (g : Ring → Ring) (s : State) (x : Nat) : routeOf (modRing f r g s) x = routeOf s x := rfl
@[simp] theorem modRing_sensorOf (f r : Nat) (g : Ring → Ring) (s : State) (x : Nat) : sensorOf (modRing f r g s) x = sensorOf s x := rfl
@[simp] theorem modRing_farPortOf (f r : Nat) (g : Ring → Ring) (s : State) (x : Nat) : farPortOf (modRing f r g s) x = farPortOf s x := rfl
@[simp] theorem modRing_eccOf (f r : Nat) (g : Ring → Ring) (s : State) (x : Nat) : eccOf (modRing f r g s) x = eccOf s x := rfl
@[simp] theorem modRing_claimOf (f r : Nat) (g : Ring → Ring) (s : State) (x : Nat) : claimOf (modRing f r g s) x = claimOf s x := rfl

/-! ### modBuf -/

@[simp] theorem modBuf_mem (f b : Nat) (g : Buffer → Buffer) (s : State) : (modBuf f b g s).mem = s.mem := rfl
@[simp] theorem modBuf_sem (f b : Nat) (g : Buffer → Buffer) (s : State) : (modBuf f b g s).sem = s.sem := rfl
@[simp] theorem modBuf_saf (f b : Nat) (g : Buffer → Buffer) (s : State) : (modBuf f b g s).saf = s.saf := rfl
@[simp] theorem modBuf_app (f b : Nat) (g : Buffer → Buffer) (s : State) : (modBuf f b g s).app = s.app := rfl
@[simp] theorem modBuf_mov (f b : Nat) (g : Buffer → Buffer) (s : State) : (modBuf f b g s).mov = s.mov := rfl
@[simp] theorem modBuf_staging (f b : Nat) (g : Buffer → Buffer) (s : State) : (modBuf f b g s).staging = s.staging := rfl
@[simp] theorem modBuf_clv (f b : Nat) (g : Buffer → Buffer) (s : State) : (modBuf f b g s).clv = s.clv := rfl
@[simp] theorem modBuf_kvt (f b : Nat) (g : Buffer → Buffer) (s : State) : (modBuf f b g s).kvt = s.kvt := rfl
@[simp] theorem modBuf_parts (f b : Nat) (g : Buffer → Buffer) (s : State) : (modBuf f b g s).parts = s.parts := rfl
@[simp] theorem modBuf_stw (f b : Nat) (g : Buffer → Buffer) (s : State) : (modBuf f b g s).stw = s.stw := rfl
@[simp] theorem modBuf_pwr (f b : Nat) (g : Buffer → Buffer) (s : State) : (modBuf f b g s).pwr = s.pwr := rfl
@[simp] theorem modBuf_thm (f b : Nat) (g : Buffer → Buffer) (s : State) : (modBuf f b g s).thm = s.thm := rfl
@[simp] theorem modBuf_evc (f b : Nat) (g : Buffer → Buffer) (s : State) : (modBuf f b g s).evc = s.evc := rfl
@[simp] theorem modBuf_sec (f b : Nat) (g : Buffer → Buffer) (s : State) : (modBuf f b g s).sec = s.sec := rfl
@[simp] theorem modBuf_rst (f b : Nat) (g : Buffer → Buffer) (s : State) : (modBuf f b g s).rst = s.rst := rfl
@[simp] theorem modBuf_reply (f b : Nat) (g : Buffer → Buffer) (s : State) : (modBuf f b g s).reply = s.reply := rfl
@[simp] theorem modBuf_freeCtr (f b : Nat) (g : Buffer → Buffer) (s : State) : (modBuf f b g s).freeCtr = s.freeCtr := rfl
@[simp] theorem modBuf_pending (f b : Nat) (g : Buffer → Buffer) (s : State) : (modBuf f b g s).pending = s.pending := rfl
@[simp] theorem modBuf_fnOf (f b : Nat) (g : Buffer → Buffer) (s : State) (x : Nat) :
    fnOf (modBuf f b g s) x = if x = f then { fnOf s f with bufs := tabMod {} (fnOf s f).bufs b g } else fnOf s x := by
  simp only [modBuf, modFn_fnOf]
@[simp] theorem modBuf_ringOf (f b : Nat) (g : Buffer → Buffer) (s : State) (x y : Nat) : ringOf (modBuf f b g s) x y = ringOf s x y := by
  simp only [ringOf, modBuf, modFn_fnOf]; by_cases h : x = f
  · subst h; simp
  · simp [h]
@[simp] theorem modBuf_bufOf (f b : Nat) (g : Buffer → Buffer) (s : State) (x y : Nat) :
    bufOf (modBuf f b g s) x y = if x = f ∧ y = b then g (bufOf s f b) else bufOf s x y := by
  simp only [bufOf, modBuf, modFn, fnOf, tabGet_tabMod]
  by_cases h : x = f
  · subst h; simp
  · simp [h]
@[simp] theorem modBuf_vecOf (f b : Nat) (g : Buffer → Buffer) (s : State) (x y : Nat) : vecOf (modBuf f b g s) x y = vecOf s x y := by
  simp only [vecOf, modBuf, modFn_fnOf]; by_cases h : x = f
  · subst h; simp
  · simp [h]
@[simp] theorem modBuf_cmdOf (f b : Nat) (g : Buffer → Buffer) (s : State) (x : Nat) : cmdOf (modBuf f b g s) x = cmdOf s x := rfl
@[simp] theorem modBuf_partOf (f b : Nat) (g : Buffer → Buffer) (s : State) (x : Nat) : partOf (modBuf f b g s) x = partOf s x := rfl
@[simp] theorem modBuf_coreOf (f b : Nat) (g : Buffer → Buffer) (s : State) (x : Nat) : coreOf (modBuf f b g s) x = coreOf s x := rfl
@[simp] theorem modBuf_spadOf (f b : Nat) (g : Buffer → Buffer) (s : State) (x : Nat) : spadOf (modBuf f b g s) x = spadOf s x := rfl
@[simp] theorem modBuf_moverOf (f b : Nat) (g : Buffer → Buffer) (s : State) (x : Nat) : moverOf (modBuf f b g s) x = moverOf s x := rfl
@[simp] theorem modBuf_cloveOf (f b : Nat) (g : Buffer → Buffer) (s : State) (x : Nat) : cloveOf (modBuf f b g s) x = cloveOf s x := rfl
@[simp] theorem modBuf_frameOf (f b : Nat) (g : Buffer → Buffer) (s : State) (x : Nat) : frameOf (modBuf f b g s) x = frameOf s x := rfl
@[simp] theorem modBuf_portOf (f b : Nat) (g : Buffer → Buffer) (s : State) (x : Nat) : portOf (modBuf f b g s) x = portOf s x := rfl
@[simp] theorem modBuf_groupOf (f b : Nat) (g : Buffer → Buffer) (s : State) (x : Nat) : groupOf (modBuf f b g s) x = groupOf s x := rfl
@[simp] theorem modBuf_targetOf (f b : Nat) (g : Buffer → Buffer) (s : State) (x : Nat) : targetOf (modBuf f b g s) x = targetOf s x := rfl
@[simp] theorem modBuf_routeOf (f b : Nat) (g : Buffer → Buffer) (s : State) (x : Nat) : routeOf (modBuf f b g s) x = routeOf s x := rfl
@[simp] theorem modBuf_sensorOf (f b : Nat) (g : Buffer → Buffer) (s : State) (x : Nat) : sensorOf (modBuf f b g s) x = sensorOf s x := rfl
@[simp] theorem modBuf_farPortOf (f b : Nat) (g : Buffer → Buffer) (s : State) (x : Nat) : farPortOf (modBuf f b g s) x = farPortOf s x := rfl
@[simp] theorem modBuf_eccOf (f b : Nat) (g : Buffer → Buffer) (s : State) (x : Nat) : eccOf (modBuf f b g s) x = eccOf s x := rfl
@[simp] theorem modBuf_claimOf (f b : Nat) (g : Buffer → Buffer) (s : State) (x : Nat) : claimOf (modBuf f b g s) x = claimOf s x := rfl

/-! ### modVec -/

@[simp] theorem modVec_mem (f v : Nat) (g : Vector16 → Vector16) (s : State) : (modVec f v g s).mem = s.mem := rfl
@[simp] theorem modVec_sem (f v : Nat) (g : Vector16 → Vector16) (s : State) : (modVec f v g s).sem = s.sem := rfl
@[simp] theorem modVec_saf (f v : Nat) (g : Vector16 → Vector16) (s : State) : (modVec f v g s).saf = s.saf := rfl
@[simp] theorem modVec_app (f v : Nat) (g : Vector16 → Vector16) (s : State) : (modVec f v g s).app = s.app := rfl
@[simp] theorem modVec_mov (f v : Nat) (g : Vector16 → Vector16) (s : State) : (modVec f v g s).mov = s.mov := rfl
@[simp] theorem modVec_staging (f v : Nat) (g : Vector16 → Vector16) (s : State) : (modVec f v g s).staging = s.staging := rfl
@[simp] theorem modVec_clv (f v : Nat) (g : Vector16 → Vector16) (s : State) : (modVec f v g s).clv = s.clv := rfl
@[simp] theorem modVec_kvt (f v : Nat) (g : Vector16 → Vector16) (s : State) : (modVec f v g s).kvt = s.kvt := rfl
@[simp] theorem modVec_parts (f v : Nat) (g : Vector16 → Vector16) (s : State) : (modVec f v g s).parts = s.parts := rfl
@[simp] theorem modVec_stw (f v : Nat) (g : Vector16 → Vector16) (s : State) : (modVec f v g s).stw = s.stw := rfl
@[simp] theorem modVec_pwr (f v : Nat) (g : Vector16 → Vector16) (s : State) : (modVec f v g s).pwr = s.pwr := rfl
@[simp] theorem modVec_thm (f v : Nat) (g : Vector16 → Vector16) (s : State) : (modVec f v g s).thm = s.thm := rfl
@[simp] theorem modVec_evc (f v : Nat) (g : Vector16 → Vector16) (s : State) : (modVec f v g s).evc = s.evc := rfl
@[simp] theorem modVec_sec (f v : Nat) (g : Vector16 → Vector16) (s : State) : (modVec f v g s).sec = s.sec := rfl
@[simp] theorem modVec_rst (f v : Nat) (g : Vector16 → Vector16) (s : State) : (modVec f v g s).rst = s.rst := rfl
@[simp] theorem modVec_reply (f v : Nat) (g : Vector16 → Vector16) (s : State) : (modVec f v g s).reply = s.reply := rfl
@[simp] theorem modVec_freeCtr (f v : Nat) (g : Vector16 → Vector16) (s : State) : (modVec f v g s).freeCtr = s.freeCtr := rfl
@[simp] theorem modVec_pending (f v : Nat) (g : Vector16 → Vector16) (s : State) : (modVec f v g s).pending = s.pending := rfl
@[simp] theorem modVec_fnOf (f v : Nat) (g : Vector16 → Vector16) (s : State) (x : Nat) :
    fnOf (modVec f v g s) x = if x = f then { fnOf s f with msix := tabMod {} (fnOf s f).msix v g } else fnOf s x := by
  simp only [modVec, modFn_fnOf]
@[simp] theorem modVec_ringOf (f v : Nat) (g : Vector16 → Vector16) (s : State) (x y : Nat) : ringOf (modVec f v g s) x y = ringOf s x y := by
  simp only [ringOf, modVec, modFn_fnOf]; by_cases h : x = f
  · subst h; simp
  · simp [h]
@[simp] theorem modVec_bufOf (f v : Nat) (g : Vector16 → Vector16) (s : State) (x y : Nat) : bufOf (modVec f v g s) x y = bufOf s x y := by
  simp only [bufOf, modVec, modFn_fnOf]; by_cases h : x = f
  · subst h; simp
  · simp [h]
@[simp] theorem modVec_vecOf (f v : Nat) (g : Vector16 → Vector16) (s : State) (x y : Nat) :
    vecOf (modVec f v g s) x y = if x = f ∧ y = v then g (vecOf s f v) else vecOf s x y := by
  simp only [vecOf, modVec, modFn, fnOf, tabGet_tabMod]
  by_cases h : x = f
  · subst h; simp
  · simp [h]
@[simp] theorem modVec_cmdOf (f v : Nat) (g : Vector16 → Vector16) (s : State) (x : Nat) : cmdOf (modVec f v g s) x = cmdOf s x := rfl
@[simp] theorem modVec_partOf (f v : Nat) (g : Vector16 → Vector16) (s : State) (x : Nat) : partOf (modVec f v g s) x = partOf s x := rfl
@[simp] theorem modVec_coreOf (f v : Nat) (g : Vector16 → Vector16) (s : State) (x : Nat) : coreOf (modVec f v g s) x = coreOf s x := rfl
@[simp] theorem modVec_spadOf (f v : Nat) (g : Vector16 → Vector16) (s : State) (x : Nat) : spadOf (modVec f v g s) x = spadOf s x := rfl
@[simp] theorem modVec_moverOf (f v : Nat) (g : Vector16 → Vector16) (s : State) (x : Nat) : moverOf (modVec f v g s) x = moverOf s x := rfl
@[simp] theorem modVec_cloveOf (f v : Nat) (g : Vector16 → Vector16) (s : State) (x : Nat) : cloveOf (modVec f v g s) x = cloveOf s x := rfl
@[simp] theorem modVec_frameOf (f v : Nat) (g : Vector16 → Vector16) (s : State) (x : Nat) : frameOf (modVec f v g s) x = frameOf s x := rfl
@[simp] theorem modVec_portOf (f v : Nat) (g : Vector16 → Vector16) (s : State) (x : Nat) : portOf (modVec f v g s) x = portOf s x := rfl
@[simp] theorem modVec_groupOf (f v : Nat) (g : Vector16 → Vector16) (s : State) (x : Nat) : groupOf (modVec f v g s) x = groupOf s x := rfl
@[simp] theorem modVec_targetOf (f v : Nat) (g : Vector16 → Vector16) (s : State) (x : Nat) : targetOf (modVec f v g s) x = targetOf s x := rfl
@[simp] theorem modVec_routeOf (f v : Nat) (g : Vector16 → Vector16) (s : State) (x : Nat) : routeOf (modVec f v g s) x = routeOf s x := rfl
@[simp] theorem modVec_sensorOf (f v : Nat) (g : Vector16 → Vector16) (s : State) (x : Nat) : sensorOf (modVec f v g s) x = sensorOf s x := rfl
@[simp] theorem modVec_farPortOf (f v : Nat) (g : Vector16 → Vector16) (s : State) (x : Nat) : farPortOf (modVec f v g s) x = farPortOf s x := rfl
@[simp] theorem modVec_eccOf (f v : Nat) (g : Vector16 → Vector16) (s : State) (x : Nat) : eccOf (modVec f v g s) x = eccOf s x := rfl
@[simp] theorem modVec_claimOf (f v : Nat) (g : Vector16 → Vector16) (s : State) (x : Nat) : claimOf (modVec f v g s) x = claimOf s x := rfl

/-! ### modCmd -/

@[simp] theorem modCmd_mem (c : Nat) (g : Cmd → Cmd) (s : State) : (modCmd c g s).mem = s.mem := rfl
@[simp] theorem modCmd_sem (c : Nat) (g : Cmd → Cmd) (s : State) : (modCmd c g s).sem = s.sem := rfl
@[simp] theorem modCmd_saf (c : Nat) (g : Cmd → Cmd) (s : State) : (modCmd c g s).saf = s.saf := rfl
@[simp] theorem modCmd_app (c : Nat) (g : Cmd → Cmd) (s : State) : (modCmd c g s).app = s.app := rfl
@[simp] theorem modCmd_mov (c : Nat) (g : Cmd → Cmd) (s : State) : (modCmd c g s).mov = s.mov := rfl
@[simp] theorem modCmd_staging (c : Nat) (g : Cmd → Cmd) (s : State) : (modCmd c g s).staging = s.staging := rfl
@[simp] theorem modCmd_clv (c : Nat) (g : Cmd → Cmd) (s : State) : (modCmd c g s).clv = s.clv := rfl
@[simp] theorem modCmd_kvt (c : Nat) (g : Cmd → Cmd) (s : State) : (modCmd c g s).kvt = s.kvt := rfl
@[simp] theorem modCmd_parts (c : Nat) (g : Cmd → Cmd) (s : State) : (modCmd c g s).parts = s.parts := rfl
@[simp] theorem modCmd_stw (c : Nat) (g : Cmd → Cmd) (s : State) : (modCmd c g s).stw = s.stw := rfl
@[simp] theorem modCmd_pwr (c : Nat) (g : Cmd → Cmd) (s : State) : (modCmd c g s).pwr = s.pwr := rfl
@[simp] theorem modCmd_thm (c : Nat) (g : Cmd → Cmd) (s : State) : (modCmd c g s).thm = s.thm := rfl
@[simp] theorem modCmd_evc (c : Nat) (g : Cmd → Cmd) (s : State) : (modCmd c g s).evc = s.evc := rfl
@[simp] theorem modCmd_sec (c : Nat) (g : Cmd → Cmd) (s : State) : (modCmd c g s).sec = s.sec := rfl
@[simp] theorem modCmd_rst (c : Nat) (g : Cmd → Cmd) (s : State) : (modCmd c g s).rst = s.rst := rfl
@[simp] theorem modCmd_reply (c : Nat) (g : Cmd → Cmd) (s : State) : (modCmd c g s).reply = s.reply := rfl
@[simp] theorem modCmd_freeCtr (c : Nat) (g : Cmd → Cmd) (s : State) : (modCmd c g s).freeCtr = s.freeCtr := rfl
@[simp] theorem modCmd_pending (c : Nat) (g : Cmd → Cmd) (s : State) : (modCmd c g s).pending = s.pending := rfl
@[simp] theorem modCmd_fnOf (c : Nat) (g : Cmd → Cmd) (s : State) (x : Nat) : fnOf (modCmd c g s) x = fnOf s x := rfl
@[simp] theorem modCmd_ringOf (c : Nat) (g : Cmd → Cmd) (s : State) (x y : Nat) : ringOf (modCmd c g s) x y = ringOf s x y := rfl
@[simp] theorem modCmd_bufOf (c : Nat) (g : Cmd → Cmd) (s : State) (x y : Nat) : bufOf (modCmd c g s) x y = bufOf s x y := rfl
@[simp] theorem modCmd_vecOf (c : Nat) (g : Cmd → Cmd) (s : State) (x y : Nat) : vecOf (modCmd c g s) x y = vecOf s x y := rfl
@[simp] theorem modCmd_cmdOf (c : Nat) (g : Cmd → Cmd) (s : State) (x : Nat) : cmdOf (modCmd c g s) x = if x = c then g (cmdOf s c) else cmdOf s x := by
  simp only [cmdOf, modCmd, tabGet_tabMod]
@[simp] theorem modCmd_partOf (c : Nat) (g : Cmd → Cmd) (s : State) (x : Nat) : partOf (modCmd c g s) x = partOf s x := rfl
@[simp] theorem modCmd_coreOf (c : Nat) (g : Cmd → Cmd) (s : State) (x : Nat) : coreOf (modCmd c g s) x = coreOf s x := rfl
@[simp] theorem modCmd_spadOf (c : Nat) (g : Cmd → Cmd) (s : State) (x : Nat) : spadOf (modCmd c g s) x = spadOf s x := rfl
@[simp] theorem modCmd_moverOf (c : Nat) (g : Cmd → Cmd) (s : State) (x : Nat) : moverOf (modCmd c g s) x = moverOf s x := rfl
@[simp] theorem modCmd_cloveOf (c : Nat) (g : Cmd → Cmd) (s : State) (x : Nat) : cloveOf (modCmd c g s) x = cloveOf s x := rfl
@[simp] theorem modCmd_frameOf (c : Nat) (g : Cmd → Cmd) (s : State) (x : Nat) : frameOf (modCmd c g s) x = frameOf s x := rfl
@[simp] theorem modCmd_portOf (c : Nat) (g : Cmd → Cmd) (s : State) (x : Nat) : portOf (modCmd c g s) x = portOf s x := rfl
@[simp] theorem modCmd_groupOf (c : Nat) (g : Cmd → Cmd) (s : State) (x : Nat) : groupOf (modCmd c g s) x = groupOf s x := rfl
@[simp] theorem modCmd_targetOf (c : Nat) (g : Cmd → Cmd) (s : State) (x : Nat) : targetOf (modCmd c g s) x = targetOf s x := rfl
@[simp] theorem modCmd_routeOf (c : Nat) (g : Cmd → Cmd) (s : State) (x : Nat) : routeOf (modCmd c g s) x = routeOf s x := rfl
@[simp] theorem modCmd_sensorOf (c : Nat) (g : Cmd → Cmd) (s : State) (x : Nat) : sensorOf (modCmd c g s) x = sensorOf s x := rfl
@[simp] theorem modCmd_farPortOf (c : Nat) (g : Cmd → Cmd) (s : State) (x : Nat) : farPortOf (modCmd c g s) x = farPortOf s x := rfl
@[simp] theorem modCmd_eccOf (c : Nat) (g : Cmd → Cmd) (s : State) (x : Nat) : eccOf (modCmd c g s) x = eccOf s x := rfl
@[simp] theorem modCmd_claimOf (c : Nat) (g : Cmd → Cmd) (s : State) (x : Nat) : claimOf (modCmd c g s) x = claimOf s x := rfl

/-! ### modPart -/

@[simp] theorem modPart_hif (p : Nat) (g : Part → Part) (s : State) : (modPart p g s).hif = s.hif := rfl
@[simp] theorem modPart_mem (p : Nat) (g : Part → Part) (s : State) : (modPart p g s).mem = s.mem := rfl
@[simp] theorem modPart_sem (p : Nat) (g : Part → Part) (s : State) : (modPart p g s).sem = s.sem := rfl
@[simp] theorem modPart_saf (p : Nat) (g : Part → Part) (s : State) : (modPart p g s).saf = s.saf := rfl
@[simp] theorem modPart_app (p : Nat) (g : Part → Part) (s : State) : (modPart p g s).app = s.app := rfl
@[simp] theorem modPart_mov (p : Nat) (g : Part → Part) (s : State) : (modPart p g s).mov = s.mov := rfl
@[simp] theorem modPart_staging (p : Nat) (g : Part → Part) (s : State) : (modPart p g s).staging = s.staging := rfl
@[simp] theorem modPart_clv (p : Nat) (g : Part → Part) (s : State) : (modPart p g s).clv = s.clv := rfl
@[simp] theorem modPart_kvt (p : Nat) (g : Part → Part) (s : State) : (modPart p g s).kvt = s.kvt := rfl
@[simp] theorem modPart_stw (p : Nat) (g : Part → Part) (s : State) : (modPart p g s).stw = s.stw := rfl
@[simp] theorem modPart_pwr (p : Nat) (g : Part → Part) (s : State) : (modPart p g s).pwr = s.pwr := rfl
@[simp] theorem modPart_thm (p : Nat) (g : Part → Part) (s : State) : (modPart p g s).thm = s.thm := rfl
@[simp] theorem modPart_evc (p : Nat) (g : Part → Part) (s : State) : (modPart p g s).evc = s.evc := rfl
@[simp] theorem modPart_sec (p : Nat) (g : Part → Part) (s : State) : (modPart p g s).sec = s.sec := rfl
@[simp] theorem modPart_rst (p : Nat) (g : Part → Part) (s : State) : (modPart p g s).rst = s.rst := rfl
@[simp] theorem modPart_reply (p : Nat) (g : Part → Part) (s : State) : (modPart p g s).reply = s.reply := rfl
@[simp] theorem modPart_freeCtr (p : Nat) (g : Part → Part) (s : State) : (modPart p g s).freeCtr = s.freeCtr := rfl
@[simp] theorem modPart_pending (p : Nat) (g : Part → Part) (s : State) : (modPart p g s).pending = s.pending := rfl
@[simp] theorem modPart_fnOf (p : Nat) (g : Part → Part) (s : State) (x : Nat) : fnOf (modPart p g s) x = fnOf s x := rfl
@[simp] theorem modPart_ringOf (p : Nat) (g : Part → Part) (s : State) (x y : Nat) : ringOf (modPart p g s) x y = ringOf s x y := rfl
@[simp] theorem modPart_bufOf (p : Nat) (g : Part → Part) (s : State) (x y : Nat) : bufOf (modPart p g s) x y = bufOf s x y := rfl
@[simp] theorem modPart_vecOf (p : Nat) (g : Part → Part) (s : State) (x y : Nat) : vecOf (modPart p g s) x y = vecOf s x y := rfl
@[simp] theorem modPart_cmdOf (p : Nat) (g : Part → Part) (s : State) (x : Nat) : cmdOf (modPart p g s) x = cmdOf s x := rfl
@[simp] theorem modPart_partOf (p : Nat) (g : Part → Part) (s : State) (x : Nat) : partOf (modPart p g s) x = if x = p then g (partOf s p) else partOf s x := by
  simp only [partOf, modPart, tabGet_tabMod]
@[simp] theorem modPart_coreOf (p : Nat) (g : Part → Part) (s : State) (x : Nat) : coreOf (modPart p g s) x = coreOf s x := rfl
@[simp] theorem modPart_spadOf (p : Nat) (g : Part → Part) (s : State) (x : Nat) : spadOf (modPart p g s) x = spadOf s x := rfl
@[simp] theorem modPart_moverOf (p : Nat) (g : Part → Part) (s : State) (x : Nat) : moverOf (modPart p g s) x = moverOf s x := rfl
@[simp] theorem modPart_cloveOf (p : Nat) (g : Part → Part) (s : State) (x : Nat) : cloveOf (modPart p g s) x = cloveOf s x := rfl
@[simp] theorem modPart_frameOf (p : Nat) (g : Part → Part) (s : State) (x : Nat) : frameOf (modPart p g s) x = frameOf s x := rfl
@[simp] theorem modPart_portOf (p : Nat) (g : Part → Part) (s : State) (x : Nat) : portOf (modPart p g s) x = portOf s x := rfl
@[simp] theorem modPart_groupOf (p : Nat) (g : Part → Part) (s : State) (x : Nat) : groupOf (modPart p g s) x = groupOf s x := rfl
@[simp] theorem modPart_targetOf (p : Nat) (g : Part → Part) (s : State) (x : Nat) : targetOf (modPart p g s) x = targetOf s x := rfl
@[simp] theorem modPart_routeOf (p : Nat) (g : Part → Part) (s : State) (x : Nat) : routeOf (modPart p g s) x = routeOf s x := rfl
@[simp] theorem modPart_sensorOf (p : Nat) (g : Part → Part) (s : State) (x : Nat) : sensorOf (modPart p g s) x = sensorOf s x := rfl
@[simp] theorem modPart_farPortOf (p : Nat) (g : Part → Part) (s : State) (x : Nat) : farPortOf (modPart p g s) x = farPortOf s x := rfl
@[simp] theorem modPart_eccOf (p : Nat) (g : Part → Part) (s : State) (x : Nat) : eccOf (modPart p g s) x = eccOf s x := rfl
@[simp] theorem modPart_claimOf (p : Nat) (g : Part → Part) (s : State) (x : Nat) : claimOf (modPart p g s) x = claimOf s x := rfl

/-! ### modCore -/

@[simp] theorem modCore_hif (n : Nat) (g : Core → Core) (s : State) : (modCore n g s).hif = s.hif := rfl
@[simp] theorem modCore_mem (n : Nat) (g : Core → Core) (s : State) : (modCore n g s).mem = s.mem := rfl
@[simp] theorem modCore_sem (n : Nat) (g : Core → Core) (s : State) : (modCore n g s).sem = s.sem := rfl
@[simp] theorem modCore_app (n : Nat) (g : Core → Core) (s : State) : (modCore n g s).app = s.app := rfl
@[simp] theorem modCore_mov (n : Nat) (g : Core → Core) (s : State) : (modCore n g s).mov = s.mov := rfl
@[simp] theorem modCore_staging (n : Nat) (g : Core → Core) (s : State) : (modCore n g s).staging = s.staging := rfl
@[simp] theorem modCore_clv (n : Nat) (g : Core → Core) (s : State) : (modCore n g s).clv = s.clv := rfl
@[simp] theorem modCore_kvt (n : Nat) (g : Core → Core) (s : State) : (modCore n g s).kvt = s.kvt := rfl
@[simp] theorem modCore_parts (n : Nat) (g : Core → Core) (s : State) : (modCore n g s).parts = s.parts := rfl
@[simp] theorem modCore_stw (n : Nat) (g : Core → Core) (s : State) : (modCore n g s).stw = s.stw := rfl
@[simp] theorem modCore_pwr (n : Nat) (g : Core → Core) (s : State) : (modCore n g s).pwr = s.pwr := rfl
@[simp] theorem modCore_thm (n : Nat) (g : Core → Core) (s : State) : (modCore n g s).thm = s.thm := rfl
@[simp] theorem modCore_evc (n : Nat) (g : Core → Core) (s : State) : (modCore n g s).evc = s.evc := rfl
@[simp] theorem modCore_sec (n : Nat) (g : Core → Core) (s : State) : (modCore n g s).sec = s.sec := rfl
@[simp] theorem modCore_rst (n : Nat) (g : Core → Core) (s : State) : (modCore n g s).rst = s.rst := rfl
@[simp] theorem modCore_reply (n : Nat) (g : Core → Core) (s : State) : (modCore n g s).reply = s.reply := rfl
@[simp] theorem modCore_freeCtr (n : Nat) (g : Core → Core) (s : State) : (modCore n g s).freeCtr = s.freeCtr := rfl
@[simp] theorem modCore_pending (n : Nat) (g : Core → Core) (s : State) : (modCore n g s).pending = s.pending := rfl
@[simp] theorem modCore_fnOf (n : Nat) (g : Core → Core) (s : State) (x : Nat) : fnOf (modCore n g s) x = fnOf s x := rfl
@[simp] theorem modCore_ringOf (n : Nat) (g : Core → Core) (s : State) (x y : Nat) : ringOf (modCore n g s) x y = ringOf s x y := rfl
@[simp] theorem modCore_bufOf (n : Nat) (g : Core → Core) (s : State) (x y : Nat) : bufOf (modCore n g s) x y = bufOf s x y := rfl
@[simp] theorem modCore_vecOf (n : Nat) (g : Core → Core) (s : State) (x y : Nat) : vecOf (modCore n g s) x y = vecOf s x y := rfl
@[simp] theorem modCore_cmdOf (n : Nat) (g : Core → Core) (s : State) (x : Nat) : cmdOf (modCore n g s) x = cmdOf s x := rfl
@[simp] theorem modCore_partOf (n : Nat) (g : Core → Core) (s : State) (x : Nat) : partOf (modCore n g s) x = partOf s x := rfl
@[simp] theorem modCore_coreOf (n : Nat) (g : Core → Core) (s : State) (x : Nat) : coreOf (modCore n g s) x = if x = n then g (coreOf s n) else coreOf s x := by
  simp only [coreOf, modCore, tabGet_tabMod]
@[simp] theorem modCore_spadOf (n : Nat) (g : Core → Core) (s : State) (x : Nat) : spadOf (modCore n g s) x = spadOf s x := rfl
@[simp] theorem modCore_moverOf (n : Nat) (g : Core → Core) (s : State) (x : Nat) : moverOf (modCore n g s) x = moverOf s x := rfl
@[simp] theorem modCore_cloveOf (n : Nat) (g : Core → Core) (s : State) (x : Nat) : cloveOf (modCore n g s) x = cloveOf s x := rfl
@[simp] theorem modCore_frameOf (n : Nat) (g : Core → Core) (s : State) (x : Nat) : frameOf (modCore n g s) x = frameOf s x := rfl
@[simp] theorem modCore_portOf (n : Nat) (g : Core → Core) (s : State) (x : Nat) : portOf (modCore n g s) x = portOf s x := rfl
@[simp] theorem modCore_groupOf (n : Nat) (g : Core → Core) (s : State) (x : Nat) : groupOf (modCore n g s) x = groupOf s x := rfl
@[simp] theorem modCore_targetOf (n : Nat) (g : Core → Core) (s : State) (x : Nat) : targetOf (modCore n g s) x = targetOf s x := rfl
@[simp] theorem modCore_routeOf (n : Nat) (g : Core → Core) (s : State) (x : Nat) : routeOf (modCore n g s) x = routeOf s x := rfl
@[simp] theorem modCore_sensorOf (n : Nat) (g : Core → Core) (s : State) (x : Nat) : sensorOf (modCore n g s) x = sensorOf s x := rfl
@[simp] theorem modCore_farPortOf (n : Nat) (g : Core → Core) (s : State) (x : Nat) : farPortOf (modCore n g s) x = farPortOf s x := rfl
@[simp] theorem modCore_eccOf (n : Nat) (g : Core → Core) (s : State) (x : Nat) : eccOf (modCore n g s) x = eccOf s x := rfl
@[simp] theorem modCore_claimOf (n : Nat) (g : Core → Core) (s : State) (x : Nat) : claimOf (modCore n g s) x = claimOf s x := rfl

/-! ### modSpad -/

@[simp] theorem modSpad_hif (n : Nat) (g : Space → Space) (s : State) : (modSpad n g s).hif = s.hif := rfl
@[simp] theorem modSpad_mem (n : Nat) (g : Space → Space) (s : State) : (modSpad n g s).mem = s.mem := rfl
@[simp] theorem modSpad_sem (n : Nat) (g : Space → Space) (s : State) : (modSpad n g s).sem = s.sem := rfl
@[simp] theorem modSpad_app (n : Nat) (g : Space → Space) (s : State) : (modSpad n g s).app = s.app := rfl
@[simp] theorem modSpad_mov (n : Nat) (g : Space → Space) (s : State) : (modSpad n g s).mov = s.mov := rfl
@[simp] theorem modSpad_staging (n : Nat) (g : Space → Space) (s : State) : (modSpad n g s).staging = s.staging := rfl
@[simp] theorem modSpad_clv (n : Nat) (g : Space → Space) (s : State) : (modSpad n g s).clv = s.clv := rfl
@[simp] theorem modSpad_kvt (n : Nat) (g : Space → Space) (s : State) : (modSpad n g s).kvt = s.kvt := rfl
@[simp] theorem modSpad_parts (n : Nat) (g : Space → Space) (s : State) : (modSpad n g s).parts = s.parts := rfl
@[simp] theorem modSpad_stw (n : Nat) (g : Space → Space) (s : State) : (modSpad n g s).stw = s.stw := rfl
@[simp] theorem modSpad_pwr (n : Nat) (g : Space → Space) (s : State) : (modSpad n g s).pwr = s.pwr := rfl
@[simp] theorem modSpad_thm (n : Nat) (g : Space → Space) (s : State) : (modSpad n g s).thm = s.thm := rfl
@[simp] theorem modSpad_evc (n : Nat) (g : Space → Space) (s : State) : (modSpad n g s).evc = s.evc := rfl
@[simp] theorem modSpad_sec (n : Nat) (g : Space → Space) (s : State) : (modSpad n g s).sec = s.sec := rfl
@[simp] theorem modSpad_rst (n : Nat) (g : Space → Space) (s : State) : (modSpad n g s).rst = s.rst := rfl
@[simp] theorem modSpad_reply (n : Nat) (g : Space → Space) (s : State) : (modSpad n g s).reply = s.reply := rfl
@[simp] theorem modSpad_freeCtr (n : Nat) (g : Space → Space) (s : State) : (modSpad n g s).freeCtr = s.freeCtr := rfl
@[simp] theorem modSpad_pending (n : Nat) (g : Space → Space) (s : State) : (modSpad n g s).pending = s.pending := rfl
@[simp] theorem modSpad_fnOf (n : Nat) (g : Space → Space) (s : State) (x : Nat) : fnOf (modSpad n g s) x = fnOf s x := rfl
@[simp] theorem modSpad_ringOf (n : Nat) (g : Space → Space) (s : State) (x y : Nat) : ringOf (modSpad n g s) x y = ringOf s x y := rfl
@[simp] theorem modSpad_bufOf (n : Nat) (g : Space → Space) (s : State) (x y : Nat) : bufOf (modSpad n g s) x y = bufOf s x y := rfl
@[simp] theorem modSpad_vecOf (n : Nat) (g : Space → Space) (s : State) (x y : Nat) : vecOf (modSpad n g s) x y = vecOf s x y := rfl
@[simp] theorem modSpad_cmdOf (n : Nat) (g : Space → Space) (s : State) (x : Nat) : cmdOf (modSpad n g s) x = cmdOf s x := rfl
@[simp] theorem modSpad_partOf (n : Nat) (g : Space → Space) (s : State) (x : Nat) : partOf (modSpad n g s) x = partOf s x := rfl
@[simp] theorem modSpad_coreOf (n : Nat) (g : Space → Space) (s : State) (x : Nat) : coreOf (modSpad n g s) x = coreOf s x := rfl
@[simp] theorem modSpad_spadOf (n : Nat) (g : Space → Space) (s : State) (x : Nat) : spadOf (modSpad n g s) x = if x = n then g (spadOf s n) else spadOf s x := by
  simp only [spadOf, modSpad, tabGet_tabMod]
@[simp] theorem modSpad_moverOf (n : Nat) (g : Space → Space) (s : State) (x : Nat) : moverOf (modSpad n g s) x = moverOf s x := rfl
@[simp] theorem modSpad_cloveOf (n : Nat) (g : Space → Space) (s : State) (x : Nat) : cloveOf (modSpad n g s) x = cloveOf s x := rfl
@[simp] theorem modSpad_frameOf (n : Nat) (g : Space → Space) (s : State) (x : Nat) : frameOf (modSpad n g s) x = frameOf s x := rfl
@[simp] theorem modSpad_portOf (n : Nat) (g : Space → Space) (s : State) (x : Nat) : portOf (modSpad n g s) x = portOf s x := rfl
@[simp] theorem modSpad_groupOf (n : Nat) (g : Space → Space) (s : State) (x : Nat) : groupOf (modSpad n g s) x = groupOf s x := rfl
@[simp] theorem modSpad_targetOf (n : Nat) (g : Space → Space) (s : State) (x : Nat) : targetOf (modSpad n g s) x = targetOf s x := rfl
@[simp] theorem modSpad_routeOf (n : Nat) (g : Space → Space) (s : State) (x : Nat) : routeOf (modSpad n g s) x = routeOf s x := rfl
@[simp] theorem modSpad_sensorOf (n : Nat) (g : Space → Space) (s : State) (x : Nat) : sensorOf (modSpad n g s) x = sensorOf s x := rfl
@[simp] theorem modSpad_farPortOf (n : Nat) (g : Space → Space) (s : State) (x : Nat) : farPortOf (modSpad n g s) x = farPortOf s x := rfl
@[simp] theorem modSpad_eccOf (n : Nat) (g : Space → Space) (s : State) (x : Nat) : eccOf (modSpad n g s) x = eccOf s x := rfl
@[simp] theorem modSpad_claimOf (n : Nat) (g : Space → Space) (s : State) (x : Nat) : claimOf (modSpad n g s) x = claimOf s x := rfl

/-! ### modMover -/

@[simp] theorem modMover_hif (m : Nat) (g : Mover → Mover) (s : State) : (modMover m g s).hif = s.hif := rfl
@[simp] theorem modMover_mem (m : Nat) (g : Mover → Mover) (s : State) : (modMover m g s).mem = s.mem := rfl
@[simp] theorem modMover_sem (m : Nat) (g : Mover → Mover) (s : State) : (modMover m g s).sem = s.sem := rfl
@[simp] theorem modMover_saf (m : Nat) (g : Mover → Mover) (s : State) : (modMover m g s).saf = s.saf := rfl
@[simp] theorem modMover_app (m : Nat) (g : Mover → Mover) (s : State) : (modMover m g s).app = s.app := rfl
@[simp] theorem modMover_staging (m : Nat) (g : Mover → Mover) (s : State) : (modMover m g s).staging = s.staging := rfl
@[simp] theorem modMover_clv (m : Nat) (g : Mover → Mover) (s : State) : (modMover m g s).clv = s.clv := rfl
@[simp] theorem modMover_kvt (m : Nat) (g : Mover → Mover) (s : State) : (modMover m g s).kvt = s.kvt := rfl
@[simp] theorem modMover_parts (m : Nat) (g : Mover → Mover) (s : State) : (modMover m g s).parts = s.parts := rfl
@[simp] theorem modMover_stw (m : Nat) (g : Mover → Mover) (s : State) : (modMover m g s).stw = s.stw := rfl
@[simp] theorem modMover_pwr (m : Nat) (g : Mover → Mover) (s : State) : (modMover m g s).pwr = s.pwr := rfl
@[simp] theorem modMover_thm (m : Nat) (g : Mover → Mover) (s : State) : (modMover m g s).thm = s.thm := rfl
@[simp] theorem modMover_evc (m : Nat) (g : Mover → Mover) (s : State) : (modMover m g s).evc = s.evc := rfl
@[simp] theorem modMover_sec (m : Nat) (g : Mover → Mover) (s : State) : (modMover m g s).sec = s.sec := rfl
@[simp] theorem modMover_rst (m : Nat) (g : Mover → Mover) (s : State) : (modMover m g s).rst = s.rst := rfl
@[simp] theorem modMover_reply (m : Nat) (g : Mover → Mover) (s : State) : (modMover m g s).reply = s.reply := rfl
@[simp] theorem modMover_freeCtr (m : Nat) (g : Mover → Mover) (s : State) : (modMover m g s).freeCtr = s.freeCtr := rfl
@[simp] theorem modMover_pending (m : Nat) (g : Mover → Mover) (s : State) : (modMover m g s).pending = s.pending := rfl
@[simp] theorem modMover_fnOf (m : Nat) (g : Mover → Mover) (s : State) (x : Nat) : fnOf (modMover m g s) x = fnOf s x := rfl
@[simp] theorem modMover_ringOf (m : Nat) (g : Mover → Mover) (s : State) (x y : Nat) : ringOf (modMover m g s) x y = ringOf s x y := rfl
@[simp] theorem modMover_bufOf (m : Nat) (g : Mover → Mover) (s : State) (x y : Nat) : bufOf (modMover m g s) x y = bufOf s x y := rfl
@[simp] theorem modMover_vecOf (m : Nat) (g : Mover → Mover) (s : State) (x y : Nat) : vecOf (modMover m g s) x y = vecOf s x y := rfl
@[simp] theorem modMover_cmdOf (m : Nat) (g : Mover → Mover) (s : State) (x : Nat) : cmdOf (modMover m g s) x = cmdOf s x := rfl
@[simp] theorem modMover_partOf (m : Nat) (g : Mover → Mover) (s : State) (x : Nat) : partOf (modMover m g s) x = partOf s x := rfl
@[simp] theorem modMover_coreOf (m : Nat) (g : Mover → Mover) (s : State) (x : Nat) : coreOf (modMover m g s) x = coreOf s x := rfl
@[simp] theorem modMover_spadOf (m : Nat) (g : Mover → Mover) (s : State) (x : Nat) : spadOf (modMover m g s) x = spadOf s x := rfl
@[simp] theorem modMover_moverOf (m : Nat) (g : Mover → Mover) (s : State) (x : Nat) : moverOf (modMover m g s) x = if x = m then g (moverOf s m) else moverOf s x := by
  simp only [moverOf, modMover, tabGet_tabMod]
@[simp] theorem modMover_cloveOf (m : Nat) (g : Mover → Mover) (s : State) (x : Nat) : cloveOf (modMover m g s) x = cloveOf s x := rfl
@[simp] theorem modMover_frameOf (m : Nat) (g : Mover → Mover) (s : State) (x : Nat) : frameOf (modMover m g s) x = frameOf s x := rfl
@[simp] theorem modMover_portOf (m : Nat) (g : Mover → Mover) (s : State) (x : Nat) : portOf (modMover m g s) x = portOf s x := rfl
@[simp] theorem modMover_groupOf (m : Nat) (g : Mover → Mover) (s : State) (x : Nat) : groupOf (modMover m g s) x = groupOf s x := rfl
@[simp] theorem modMover_targetOf (m : Nat) (g : Mover → Mover) (s : State) (x : Nat) : targetOf (modMover m g s) x = targetOf s x := rfl
@[simp] theorem modMover_routeOf (m : Nat) (g : Mover → Mover) (s : State) (x : Nat) : routeOf (modMover m g s) x = routeOf s x := rfl
@[simp] theorem modMover_sensorOf (m : Nat) (g : Mover → Mover) (s : State) (x : Nat) : sensorOf (modMover m g s) x = sensorOf s x := rfl
@[simp] theorem modMover_farPortOf (m : Nat) (g : Mover → Mover) (s : State) (x : Nat) : farPortOf (modMover m g s) x = farPortOf s x := rfl
@[simp] theorem modMover_eccOf (m : Nat) (g : Mover → Mover) (s : State) (x : Nat) : eccOf (modMover m g s) x = eccOf s x := rfl
@[simp] theorem modMover_claimOf (m : Nat) (g : Mover → Mover) (s : State) (x : Nat) : claimOf (modMover m g s) x = claimOf s x := rfl

/-! ### modClove -/

@[simp] theorem modClove_hif (n : Nat) (g : Clove → Clove) (s : State) : (modClove n g s).hif = s.hif := rfl
@[simp] theorem modClove_mem (n : Nat) (g : Clove → Clove) (s : State) : (modClove n g s).mem = s.mem := rfl
@[simp] theorem modClove_sem (n : Nat) (g : Clove → Clove) (s : State) : (modClove n g s).sem = s.sem := rfl
@[simp] theorem modClove_saf (n : Nat) (g : Clove → Clove) (s : State) : (modClove n g s).saf = s.saf := rfl
@[simp] theorem modClove_app (n : Nat) (g : Clove → Clove) (s : State) : (modClove n g s).app = s.app := rfl
@[simp] theorem modClove_mov (n : Nat) (g : Clove → Clove) (s : State) : (modClove n g s).mov = s.mov := rfl
@[simp] theorem modClove_staging (n : Nat) (g : Clove → Clove) (s : State) : (modClove n g s).staging = s.staging := rfl
@[simp] theorem modClove_kvt (n : Nat) (g : Clove → Clove) (s : State) : (modClove n g s).kvt = s.kvt := rfl
@[simp] theorem modClove_parts (n : Nat) (g : Clove → Clove) (s : State) : (modClove n g s).parts = s.parts := rfl
@[simp] theorem modClove_stw (n : Nat) (g : Clove → Clove) (s : State) : (modClove n g s).stw = s.stw := rfl
@[simp] theorem modClove_pwr (n : Nat) (g : Clove → Clove) (s : State) : (modClove n g s).pwr = s.pwr := rfl
@[simp] theorem modClove_thm (n : Nat) (g : Clove → Clove) (s : State) : (modClove n g s).thm = s.thm := rfl
@[simp] theorem modClove_evc (n : Nat) (g : Clove → Clove) (s : State) : (modClove n g s).evc = s.evc := rfl
@[simp] theorem modClove_sec (n : Nat) (g : Clove → Clove) (s : State) : (modClove n g s).sec = s.sec := rfl
@[simp] theorem modClove_rst (n : Nat) (g : Clove → Clove) (s : State) : (modClove n g s).rst = s.rst := rfl
@[simp] theorem modClove_reply (n : Nat) (g : Clove → Clove) (s : State) : (modClove n g s).reply = s.reply := rfl
@[simp] theorem modClove_freeCtr (n : Nat) (g : Clove → Clove) (s : State) : (modClove n g s).freeCtr = s.freeCtr := rfl
@[simp] theorem modClove_pending (n : Nat) (g : Clove → Clove) (s : State) : (modClove n g s).pending = s.pending := rfl
@[simp] theorem modClove_fnOf (n : Nat) (g : Clove → Clove) (s : State) (x : Nat) : fnOf (modClove n g s) x = fnOf s x := rfl
@[simp] theorem modClove_ringOf (n : Nat) (g : Clove → Clove) (s : State) (x y : Nat) : ringOf (modClove n g s) x y = ringOf s x y := rfl
@[simp] theorem modClove_bufOf (n : Nat) (g : Clove → Clove) (s : State) (x y : Nat) : bufOf (modClove n g s) x y = bufOf s x y := rfl
@[simp] theorem modClove_vecOf (n : Nat) (g : Clove → Clove) (s : State) (x y : Nat) : vecOf (modClove n g s) x y = vecOf s x y := rfl
@[simp] theorem modClove_cmdOf (n : Nat) (g : Clove → Clove) (s : State) (x : Nat) : cmdOf (modClove n g s) x = cmdOf s x := rfl
@[simp] theorem modClove_partOf (n : Nat) (g : Clove → Clove) (s : State) (x : Nat) : partOf (modClove n g s) x = partOf s x := rfl
@[simp] theorem modClove_coreOf (n : Nat) (g : Clove → Clove) (s : State) (x : Nat) : coreOf (modClove n g s) x = coreOf s x := rfl
@[simp] theorem modClove_spadOf (n : Nat) (g : Clove → Clove) (s : State) (x : Nat) : spadOf (modClove n g s) x = spadOf s x := rfl
@[simp] theorem modClove_moverOf (n : Nat) (g : Clove → Clove) (s : State) (x : Nat) : moverOf (modClove n g s) x = moverOf s x := rfl
@[simp] theorem modClove_cloveOf (n : Nat) (g : Clove → Clove) (s : State) (x : Nat) : cloveOf (modClove n g s) x = if x = n then g (cloveOf s n) else cloveOf s x := by
  simp only [cloveOf, modClove, tabGet_tabMod]
@[simp] theorem modClove_frameOf (n : Nat) (g : Clove → Clove) (s : State) (x : Nat) : frameOf (modClove n g s) x = frameOf s x := rfl
@[simp] theorem modClove_portOf (n : Nat) (g : Clove → Clove) (s : State) (x : Nat) : portOf (modClove n g s) x = portOf s x := rfl
@[simp] theorem modClove_groupOf (n : Nat) (g : Clove → Clove) (s : State) (x : Nat) : groupOf (modClove n g s) x = groupOf s x := rfl
@[simp] theorem modClove_targetOf (n : Nat) (g : Clove → Clove) (s : State) (x : Nat) : targetOf (modClove n g s) x = targetOf s x := rfl
@[simp] theorem modClove_routeOf (n : Nat) (g : Clove → Clove) (s : State) (x : Nat) : routeOf (modClove n g s) x = routeOf s x := rfl
@[simp] theorem modClove_sensorOf (n : Nat) (g : Clove → Clove) (s : State) (x : Nat) : sensorOf (modClove n g s) x = sensorOf s x := rfl
@[simp] theorem modClove_farPortOf (n : Nat) (g : Clove → Clove) (s : State) (x : Nat) : farPortOf (modClove n g s) x = farPortOf s x := rfl
@[simp] theorem modClove_eccOf (n : Nat) (g : Clove → Clove) (s : State) (x : Nat) : eccOf (modClove n g s) x = eccOf s x := rfl
@[simp] theorem modClove_claimOf (n : Nat) (g : Clove → Clove) (s : State) (x : Nat) : claimOf (modClove n g s) x = claimOf s x := rfl

/-! ### modFrame -/

@[simp] theorem modFrame_hif (n : Nat) (g : Frame → Frame) (s : State) : (modFrame n g s).hif = s.hif := rfl
@[simp] theorem modFrame_mem (n : Nat) (g : Frame → Frame) (s : State) : (modFrame n g s).mem = s.mem := rfl
@[simp] theorem modFrame_sem (n : Nat) (g : Frame → Frame) (s : State) : (modFrame n g s).sem = s.sem := rfl
@[simp] theorem modFrame_saf (n : Nat) (g : Frame → Frame) (s : State) : (modFrame n g s).saf = s.saf := rfl
@[simp] theorem modFrame_app (n : Nat) (g : Frame → Frame) (s : State) : (modFrame n g s).app = s.app := rfl
@[simp] theorem modFrame_mov (n : Nat) (g : Frame → Frame) (s : State) : (modFrame n g s).mov = s.mov := rfl
@[simp] theorem modFrame_staging (n : Nat) (g : Frame → Frame) (s : State) : (modFrame n g s).staging = s.staging := rfl
@[simp] theorem modFrame_clv (n : Nat) (g : Frame → Frame) (s : State) : (modFrame n g s).clv = s.clv := rfl
@[simp] theorem modFrame_parts (n : Nat) (g : Frame → Frame) (s : State) : (modFrame n g s).parts = s.parts := rfl
@[simp] theorem modFrame_stw (n : Nat) (g : Frame → Frame) (s : State) : (modFrame n g s).stw = s.stw := rfl
@[simp] theorem modFrame_pwr (n : Nat) (g : Frame → Frame) (s : State) : (modFrame n g s).pwr = s.pwr := rfl
@[simp] theorem modFrame_thm (n : Nat) (g : Frame → Frame) (s : State) : (modFrame n g s).thm = s.thm := rfl
@[simp] theorem modFrame_evc (n : Nat) (g : Frame → Frame) (s : State) : (modFrame n g s).evc = s.evc := rfl
@[simp] theorem modFrame_sec (n : Nat) (g : Frame → Frame) (s : State) : (modFrame n g s).sec = s.sec := rfl
@[simp] theorem modFrame_rst (n : Nat) (g : Frame → Frame) (s : State) : (modFrame n g s).rst = s.rst := rfl
@[simp] theorem modFrame_reply (n : Nat) (g : Frame → Frame) (s : State) : (modFrame n g s).reply = s.reply := rfl
@[simp] theorem modFrame_freeCtr (n : Nat) (g : Frame → Frame) (s : State) : (modFrame n g s).freeCtr = s.freeCtr := rfl
@[simp] theorem modFrame_pending (n : Nat) (g : Frame → Frame) (s : State) : (modFrame n g s).pending = s.pending := rfl
@[simp] theorem modFrame_fnOf (n : Nat) (g : Frame → Frame) (s : State) (x : Nat) : fnOf (modFrame n g s) x = fnOf s x := rfl
@[simp] theorem modFrame_ringOf (n : Nat) (g : Frame → Frame) (s : State) (x y : Nat) : ringOf (modFrame n g s) x y = ringOf s x y := rfl
@[simp] theorem modFrame_bufOf (n : Nat) (g : Frame → Frame) (s : State) (x y : Nat) : bufOf (modFrame n g s) x y = bufOf s x y := rfl
@[simp] theorem modFrame_vecOf (n : Nat) (g : Frame → Frame) (s : State) (x y : Nat) : vecOf (modFrame n g s) x y = vecOf s x y := rfl
@[simp] theorem modFrame_cmdOf (n : Nat) (g : Frame → Frame) (s : State) (x : Nat) : cmdOf (modFrame n g s) x = cmdOf s x := rfl
@[simp] theorem modFrame_partOf (n : Nat) (g : Frame → Frame) (s : State) (x : Nat) : partOf (modFrame n g s) x = partOf s x := rfl
@[simp] theorem modFrame_coreOf (n : Nat) (g : Frame → Frame) (s : State) (x : Nat) : coreOf (modFrame n g s) x = coreOf s x := rfl
@[simp] theorem modFrame_spadOf (n : Nat) (g : Frame → Frame) (s : State) (x : Nat) : spadOf (modFrame n g s) x = spadOf s x := rfl
@[simp] theorem modFrame_moverOf (n : Nat) (g : Frame → Frame) (s : State) (x : Nat) : moverOf (modFrame n g s) x = moverOf s x := rfl
@[simp] theorem modFrame_cloveOf (n : Nat) (g : Frame → Frame) (s : State) (x : Nat) : cloveOf (modFrame n g s) x = cloveOf s x := rfl
@[simp] theorem modFrame_frameOf (n : Nat) (g : Frame → Frame) (s : State) (x : Nat) : frameOf (modFrame n g s) x = if x = n then g (frameOf s n) else frameOf s x := by
  simp only [frameOf, modFrame, tabGet_tabMod]
@[simp] theorem modFrame_portOf (n : Nat) (g : Frame → Frame) (s : State) (x : Nat) : portOf (modFrame n g s) x = portOf s x := rfl
@[simp] theorem modFrame_groupOf (n : Nat) (g : Frame → Frame) (s : State) (x : Nat) : groupOf (modFrame n g s) x = groupOf s x := rfl
@[simp] theorem modFrame_targetOf (n : Nat) (g : Frame → Frame) (s : State) (x : Nat) : targetOf (modFrame n g s) x = targetOf s x := rfl
@[simp] theorem modFrame_routeOf (n : Nat) (g : Frame → Frame) (s : State) (x : Nat) : routeOf (modFrame n g s) x = routeOf s x := rfl
@[simp] theorem modFrame_sensorOf (n : Nat) (g : Frame → Frame) (s : State) (x : Nat) : sensorOf (modFrame n g s) x = sensorOf s x := rfl
@[simp] theorem modFrame_farPortOf (n : Nat) (g : Frame → Frame) (s : State) (x : Nat) : farPortOf (modFrame n g s) x = farPortOf s x := rfl
@[simp] theorem modFrame_eccOf (n : Nat) (g : Frame → Frame) (s : State) (x : Nat) : eccOf (modFrame n g s) x = eccOf s x := rfl
@[simp] theorem modFrame_claimOf (n : Nat) (g : Frame → Frame) (s : State) (x : Nat) : claimOf (modFrame n g s) x = claimOf s x := rfl

/-! ### modPort -/

@[simp] theorem modPort_hif (n : Nat) (g : Port → Port) (s : State) : (modPort n g s).hif = s.hif := rfl
@[simp] theorem modPort_mem (n : Nat) (g : Port → Port) (s : State) : (modPort n g s).mem = s.mem := rfl
@[simp] theorem modPort_sem (n : Nat) (g : Port → Port) (s : State) : (modPort n g s).sem = s.sem := rfl
@[simp] theorem modPort_saf (n : Nat) (g : Port → Port) (s : State) : (modPort n g s).saf = s.saf := rfl
@[simp] theorem modPort_app (n : Nat) (g : Port → Port) (s : State) : (modPort n g s).app = s.app := rfl
@[simp] theorem modPort_mov (n : Nat) (g : Port → Port) (s : State) : (modPort n g s).mov = s.mov := rfl
@[simp] theorem modPort_staging (n : Nat) (g : Port → Port) (s : State) : (modPort n g s).staging = s.staging := rfl
@[simp] theorem modPort_clv (n : Nat) (g : Port → Port) (s : State) : (modPort n g s).clv = s.clv := rfl
@[simp] theorem modPort_kvt (n : Nat) (g : Port → Port) (s : State) : (modPort n g s).kvt = s.kvt := rfl
@[simp] theorem modPort_parts (n : Nat) (g : Port → Port) (s : State) : (modPort n g s).parts = s.parts := rfl
@[simp] theorem modPort_pwr (n : Nat) (g : Port → Port) (s : State) : (modPort n g s).pwr = s.pwr := rfl
@[simp] theorem modPort_thm (n : Nat) (g : Port → Port) (s : State) : (modPort n g s).thm = s.thm := rfl
@[simp] theorem modPort_evc (n : Nat) (g : Port → Port) (s : State) : (modPort n g s).evc = s.evc := rfl
@[simp] theorem modPort_sec (n : Nat) (g : Port → Port) (s : State) : (modPort n g s).sec = s.sec := rfl
@[simp] theorem modPort_rst (n : Nat) (g : Port → Port) (s : State) : (modPort n g s).rst = s.rst := rfl
@[simp] theorem modPort_reply (n : Nat) (g : Port → Port) (s : State) : (modPort n g s).reply = s.reply := rfl
@[simp] theorem modPort_freeCtr (n : Nat) (g : Port → Port) (s : State) : (modPort n g s).freeCtr = s.freeCtr := rfl
@[simp] theorem modPort_pending (n : Nat) (g : Port → Port) (s : State) : (modPort n g s).pending = s.pending := rfl
@[simp] theorem modPort_fnOf (n : Nat) (g : Port → Port) (s : State) (x : Nat) : fnOf (modPort n g s) x = fnOf s x := rfl
@[simp] theorem modPort_ringOf (n : Nat) (g : Port → Port) (s : State) (x y : Nat) : ringOf (modPort n g s) x y = ringOf s x y := rfl
@[simp] theorem modPort_bufOf (n : Nat) (g : Port → Port) (s : State) (x y : Nat) : bufOf (modPort n g s) x y = bufOf s x y := rfl
@[simp] theorem modPort_vecOf (n : Nat) (g : Port → Port) (s : State) (x y : Nat) : vecOf (modPort n g s) x y = vecOf s x y := rfl
@[simp] theorem modPort_cmdOf (n : Nat) (g : Port → Port) (s : State) (x : Nat) : cmdOf (modPort n g s) x = cmdOf s x := rfl
@[simp] theorem modPort_partOf (n : Nat) (g : Port → Port) (s : State) (x : Nat) : partOf (modPort n g s) x = partOf s x := rfl
@[simp] theorem modPort_coreOf (n : Nat) (g : Port → Port) (s : State) (x : Nat) : coreOf (modPort n g s) x = coreOf s x := rfl
@[simp] theorem modPort_spadOf (n : Nat) (g : Port → Port) (s : State) (x : Nat) : spadOf (modPort n g s) x = spadOf s x := rfl
@[simp] theorem modPort_moverOf (n : Nat) (g : Port → Port) (s : State) (x : Nat) : moverOf (modPort n g s) x = moverOf s x := rfl
@[simp] theorem modPort_cloveOf (n : Nat) (g : Port → Port) (s : State) (x : Nat) : cloveOf (modPort n g s) x = cloveOf s x := rfl
@[simp] theorem modPort_frameOf (n : Nat) (g : Port → Port) (s : State) (x : Nat) : frameOf (modPort n g s) x = frameOf s x := rfl
@[simp] theorem modPort_portOf (n : Nat) (g : Port → Port) (s : State) (x : Nat) : portOf (modPort n g s) x = if x = n then g (portOf s n) else portOf s x := by
  simp only [portOf, modPort, tabGet_tabMod]
@[simp] theorem modPort_groupOf (n : Nat) (g : Port → Port) (s : State) (x : Nat) : groupOf (modPort n g s) x = groupOf s x := rfl
@[simp] theorem modPort_targetOf (n : Nat) (g : Port → Port) (s : State) (x : Nat) : targetOf (modPort n g s) x = targetOf s x := rfl
@[simp] theorem modPort_routeOf (n : Nat) (g : Port → Port) (s : State) (x : Nat) : routeOf (modPort n g s) x = routeOf s x := rfl
@[simp] theorem modPort_sensorOf (n : Nat) (g : Port → Port) (s : State) (x : Nat) : sensorOf (modPort n g s) x = sensorOf s x := rfl
@[simp] theorem modPort_farPortOf (n : Nat) (g : Port → Port) (s : State) (x : Nat) : farPortOf (modPort n g s) x = farPortOf s x := rfl
@[simp] theorem modPort_eccOf (n : Nat) (g : Port → Port) (s : State) (x : Nat) : eccOf (modPort n g s) x = eccOf s x := rfl
@[simp] theorem modPort_claimOf (n : Nat) (g : Port → Port) (s : State) (x : Nat) : claimOf (modPort n g s) x = claimOf s x := rfl

/-! ### modGroup -/

@[simp] theorem modGroup_hif (k : Nat) (g : EvGroup → EvGroup) (s : State) : (modGroup k g s).hif = s.hif := rfl
@[simp] theorem modGroup_mem (k : Nat) (g : EvGroup → EvGroup) (s : State) : (modGroup k g s).mem = s.mem := rfl
@[simp] theorem modGroup_sem (k : Nat) (g : EvGroup → EvGroup) (s : State) : (modGroup k g s).sem = s.sem := rfl
@[simp] theorem modGroup_saf (k : Nat) (g : EvGroup → EvGroup) (s : State) : (modGroup k g s).saf = s.saf := rfl
@[simp] theorem modGroup_app (k : Nat) (g : EvGroup → EvGroup) (s : State) : (modGroup k g s).app = s.app := rfl
@[simp] theorem modGroup_mov (k : Nat) (g : EvGroup → EvGroup) (s : State) : (modGroup k g s).mov = s.mov := rfl
@[simp] theorem modGroup_staging (k : Nat) (g : EvGroup → EvGroup) (s : State) : (modGroup k g s).staging = s.staging := rfl
@[simp] theorem modGroup_clv (k : Nat) (g : EvGroup → EvGroup) (s : State) : (modGroup k g s).clv = s.clv := rfl
@[simp] theorem modGroup_kvt (k : Nat) (g : EvGroup → EvGroup) (s : State) : (modGroup k g s).kvt = s.kvt := rfl
@[simp] theorem modGroup_parts (k : Nat) (g : EvGroup → EvGroup) (s : State) : (modGroup k g s).parts = s.parts := rfl
@[simp] theorem modGroup_stw (k : Nat) (g : EvGroup → EvGroup) (s : State) : (modGroup k g s).stw = s.stw := rfl
@[simp] theorem modGroup_pwr (k : Nat) (g : EvGroup → EvGroup) (s : State) : (modGroup k g s).pwr = s.pwr := rfl
@[simp] theorem modGroup_thm (k : Nat) (g : EvGroup → EvGroup) (s : State) : (modGroup k g s).thm = s.thm := rfl
@[simp] theorem modGroup_sec (k : Nat) (g : EvGroup → EvGroup) (s : State) : (modGroup k g s).sec = s.sec := rfl
@[simp] theorem modGroup_rst (k : Nat) (g : EvGroup → EvGroup) (s : State) : (modGroup k g s).rst = s.rst := rfl
@[simp] theorem modGroup_reply (k : Nat) (g : EvGroup → EvGroup) (s : State) : (modGroup k g s).reply = s.reply := rfl
@[simp] theorem modGroup_freeCtr (k : Nat) (g : EvGroup → EvGroup) (s : State) : (modGroup k g s).freeCtr = s.freeCtr := rfl
@[simp] theorem modGroup_pending (k : Nat) (g : EvGroup → EvGroup) (s : State) : (modGroup k g s).pending = s.pending := rfl
@[simp] theorem modGroup_fnOf (k : Nat) (g : EvGroup → EvGroup) (s : State) (x : Nat) : fnOf (modGroup k g s) x = fnOf s x := rfl
@[simp] theorem modGroup_ringOf (k : Nat) (g : EvGroup → EvGroup) (s : State) (x y : Nat) : ringOf (modGroup k g s) x y = ringOf s x y := rfl
@[simp] theorem modGroup_bufOf (k : Nat) (g : EvGroup → EvGroup) (s : State) (x y : Nat) : bufOf (modGroup k g s) x y = bufOf s x y := rfl
@[simp] theorem modGroup_vecOf (k : Nat) (g : EvGroup → EvGroup) (s : State) (x y : Nat) : vecOf (modGroup k g s) x y = vecOf s x y := rfl
@[simp] theorem modGroup_cmdOf (k : Nat) (g : EvGroup → EvGroup) (s : State) (x : Nat) : cmdOf (modGroup k g s) x = cmdOf s x := rfl
@[simp] theorem modGroup_partOf (k : Nat) (g : EvGroup → EvGroup) (s : State) (x : Nat) : partOf (modGroup k g s) x = partOf s x := rfl
@[simp] theorem modGroup_coreOf (k : Nat) (g : EvGroup → EvGroup) (s : State) (x : Nat) : coreOf (modGroup k g s) x = coreOf s x := rfl
@[simp] theorem modGroup_spadOf (k : Nat) (g : EvGroup → EvGroup) (s : State) (x : Nat) : spadOf (modGroup k g s) x = spadOf s x := rfl
@[simp] theorem modGroup_moverOf (k : Nat) (g : EvGroup → EvGroup) (s : State) (x : Nat) : moverOf (modGroup k g s) x = moverOf s x := rfl
@[simp] theorem modGroup_cloveOf (k : Nat) (g : EvGroup → EvGroup) (s : State) (x : Nat) : cloveOf (modGroup k g s) x = cloveOf s x := rfl
@[simp] theorem modGroup_frameOf (k : Nat) (g : EvGroup → EvGroup) (s : State) (x : Nat) : frameOf (modGroup k g s) x = frameOf s x := rfl
@[simp] theorem modGroup_portOf (k : Nat) (g : EvGroup → EvGroup) (s : State) (x : Nat) : portOf (modGroup k g s) x = portOf s x := rfl
@[simp] theorem modGroup_groupOf (k : Nat) (g : EvGroup → EvGroup) (s : State) (x : Nat) : groupOf (modGroup k g s) x = if x = k then g (groupOf s k) else groupOf s x := by
  simp only [groupOf, modGroup, tabGet_tabMod]
@[simp] theorem modGroup_targetOf (k : Nat) (g : EvGroup → EvGroup) (s : State) (x : Nat) : targetOf (modGroup k g s) x = targetOf s x := rfl
@[simp] theorem modGroup_routeOf (k : Nat) (g : EvGroup → EvGroup) (s : State) (x : Nat) : routeOf (modGroup k g s) x = routeOf s x := rfl
@[simp] theorem modGroup_sensorOf (k : Nat) (g : EvGroup → EvGroup) (s : State) (x : Nat) : sensorOf (modGroup k g s) x = sensorOf s x := rfl
@[simp] theorem modGroup_farPortOf (k : Nat) (g : EvGroup → EvGroup) (s : State) (x : Nat) : farPortOf (modGroup k g s) x = farPortOf s x := rfl
@[simp] theorem modGroup_eccOf (k : Nat) (g : EvGroup → EvGroup) (s : State) (x : Nat) : eccOf (modGroup k g s) x = eccOf s x := rfl
@[simp] theorem modGroup_claimOf (k : Nat) (g : EvGroup → EvGroup) (s : State) (x : Nat) : claimOf (modGroup k g s) x = claimOf s x := rfl

/-! ### modTarget -/

@[simp] theorem modTarget_hif (n : Nat) (g : EvTarget → EvTarget) (s : State) : (modTarget n g s).hif = s.hif := rfl
@[simp] theorem modTarget_mem (n : Nat) (g : EvTarget → EvTarget) (s : State) : (modTarget n g s).mem = s.mem := rfl
@[simp] theorem modTarget_sem (n : Nat) (g : EvTarget → EvTarget) (s : State) : (modTarget n g s).sem = s.sem := rfl
@[simp] theorem modTarget_saf (n : Nat) (g : EvTarget → EvTarget) (s : State) : (modTarget n g s).saf = s.saf := rfl
@[simp] theorem modTarget_app (n : Nat) (g : EvTarget → EvTarget) (s : State) : (modTarget n g s).app = s.app := rfl
@[simp] theorem modTarget_mov (n : Nat) (g : EvTarget → EvTarget) (s : State) : (modTarget n g s).mov = s.mov := rfl
@[simp] theorem modTarget_staging (n : Nat) (g : EvTarget → EvTarget) (s : State) : (modTarget n g s).staging = s.staging := rfl
@[simp] theorem modTarget_clv (n : Nat) (g : EvTarget → EvTarget) (s : State) : (modTarget n g s).clv = s.clv := rfl
@[simp] theorem modTarget_kvt (n : Nat) (g : EvTarget → EvTarget) (s : State) : (modTarget n g s).kvt = s.kvt := rfl
@[simp] theorem modTarget_parts (n : Nat) (g : EvTarget → EvTarget) (s : State) : (modTarget n g s).parts = s.parts := rfl
@[simp] theorem modTarget_stw (n : Nat) (g : EvTarget → EvTarget) (s : State) : (modTarget n g s).stw = s.stw := rfl
@[simp] theorem modTarget_pwr (n : Nat) (g : EvTarget → EvTarget) (s : State) : (modTarget n g s).pwr = s.pwr := rfl
@[simp] theorem modTarget_thm (n : Nat) (g : EvTarget → EvTarget) (s : State) : (modTarget n g s).thm = s.thm := rfl
@[simp] theorem modTarget_sec (n : Nat) (g : EvTarget → EvTarget) (s : State) : (modTarget n g s).sec = s.sec := rfl
@[simp] theorem modTarget_rst (n : Nat) (g : EvTarget → EvTarget) (s : State) : (modTarget n g s).rst = s.rst := rfl
@[simp] theorem modTarget_reply (n : Nat) (g : EvTarget → EvTarget) (s : State) : (modTarget n g s).reply = s.reply := rfl
@[simp] theorem modTarget_freeCtr (n : Nat) (g : EvTarget → EvTarget) (s : State) : (modTarget n g s).freeCtr = s.freeCtr := rfl
@[simp] theorem modTarget_pending (n : Nat) (g : EvTarget → EvTarget) (s : State) : (modTarget n g s).pending = s.pending := rfl
@[simp] theorem modTarget_fnOf (n : Nat) (g : EvTarget → EvTarget) (s : State) (x : Nat) : fnOf (modTarget n g s) x = fnOf s x := rfl
@[simp] theorem modTarget_ringOf (n : Nat) (g : EvTarget → EvTarget) (s : State) (x y : Nat) : ringOf (modTarget n g s) x y = ringOf s x y := rfl
@[simp] theorem modTarget_bufOf (n : Nat) (g : EvTarget → EvTarget) (s : State) (x y : Nat) : bufOf (modTarget n g s) x y = bufOf s x y := rfl
@[simp] theorem modTarget_vecOf (n : Nat) (g : EvTarget → EvTarget) (s : State) (x y : Nat) : vecOf (modTarget n g s) x y = vecOf s x y := rfl
@[simp] theorem modTarget_cmdOf (n : Nat) (g : EvTarget → EvTarget) (s : State) (x : Nat) : cmdOf (modTarget n g s) x = cmdOf s x := rfl
@[simp] theorem modTarget_partOf (n : Nat) (g : EvTarget → EvTarget) (s : State) (x : Nat) : partOf (modTarget n g s) x = partOf s x := rfl
@[simp] theorem modTarget_coreOf (n : Nat) (g : EvTarget → EvTarget) (s : State) (x : Nat) : coreOf (modTarget n g s) x = coreOf s x := rfl
@[simp] theorem modTarget_spadOf (n : Nat) (g : EvTarget → EvTarget) (s : State) (x : Nat) : spadOf (modTarget n g s) x = spadOf s x := rfl
@[simp] theorem modTarget_moverOf (n : Nat) (g : EvTarget → EvTarget) (s : State) (x : Nat) : moverOf (modTarget n g s) x = moverOf s x := rfl
@[simp] theorem modTarget_cloveOf (n : Nat) (g : EvTarget → EvTarget) (s : State) (x : Nat) : cloveOf (modTarget n g s) x = cloveOf s x := rfl
@[simp] theorem modTarget_frameOf (n : Nat) (g : EvTarget → EvTarget) (s : State) (x : Nat) : frameOf (modTarget n g s) x = frameOf s x := rfl
@[simp] theorem modTarget_portOf (n : Nat) (g : EvTarget → EvTarget) (s : State) (x : Nat) : portOf (modTarget n g s) x = portOf s x := rfl
@[simp] theorem modTarget_groupOf (n : Nat) (g : EvTarget → EvTarget) (s : State) (x : Nat) : groupOf (modTarget n g s) x = groupOf s x := rfl
@[simp] theorem modTarget_targetOf (n : Nat) (g : EvTarget → EvTarget) (s : State) (x : Nat) : targetOf (modTarget n g s) x = if x = n then g (targetOf s n) else targetOf s x := by
  simp only [targetOf, modTarget, tabGet_tabMod]
@[simp] theorem modTarget_routeOf (n : Nat) (g : EvTarget → EvTarget) (s : State) (x : Nat) : routeOf (modTarget n g s) x = routeOf s x := rfl
@[simp] theorem modTarget_sensorOf (n : Nat) (g : EvTarget → EvTarget) (s : State) (x : Nat) : sensorOf (modTarget n g s) x = sensorOf s x := rfl
@[simp] theorem modTarget_farPortOf (n : Nat) (g : EvTarget → EvTarget) (s : State) (x : Nat) : farPortOf (modTarget n g s) x = farPortOf s x := rfl
@[simp] theorem modTarget_eccOf (n : Nat) (g : EvTarget → EvTarget) (s : State) (x : Nat) : eccOf (modTarget n g s) x = eccOf s x := rfl
@[simp] theorem modTarget_claimOf (n : Nat) (g : EvTarget → EvTarget) (s : State) (x : Nat) : claimOf (modTarget n g s) x = claimOf s x := rfl

/-! ### setEvRoute -/

@[simp] theorem setEvRoute_hif (k v : Nat) (s : State) : (setEvRoute k v s).hif = s.hif := rfl
@[simp] theorem setEvRoute_mem (k v : Nat) (s : State) : (setEvRoute k v s).mem = s.mem := rfl
@[simp] theorem setEvRoute_sem (k v : Nat) (s : State) : (setEvRoute k v s).sem = s.sem := rfl
@[simp] theorem setEvRoute_saf (k v : Nat) (s : State) : (setEvRoute k v s).saf = s.saf := rfl
@[simp] theorem setEvRoute_app (k v : Nat) (s : State) : (setEvRoute k v s).app = s.app := rfl
@[simp] theorem setEvRoute_mov (k v : Nat) (s : State) : (setEvRoute k v s).mov = s.mov := rfl
@[simp] theorem setEvRoute_staging (k v : Nat) (s : State) : (setEvRoute k v s).staging = s.staging := rfl
@[simp] theorem setEvRoute_clv (k v : Nat) (s : State) : (setEvRoute k v s).clv = s.clv := rfl
@[simp] theorem setEvRoute_kvt (k v : Nat) (s : State) : (setEvRoute k v s).kvt = s.kvt := rfl
@[simp] theorem setEvRoute_parts (k v : Nat) (s : State) : (setEvRoute k v s).parts = s.parts := rfl
@[simp] theorem setEvRoute_stw (k v : Nat) (s : State) : (setEvRoute k v s).stw = s.stw := rfl
@[simp] theorem setEvRoute_pwr (k v : Nat) (s : State) : (setEvRoute k v s).pwr = s.pwr := rfl
@[simp] theorem setEvRoute_thm (k v : Nat) (s : State) : (setEvRoute k v s).thm = s.thm := rfl
@[simp] theorem setEvRoute_sec (k v : Nat) (s : State) : (setEvRoute k v s).sec = s.sec := rfl
@[simp] theorem setEvRoute_rst (k v : Nat) (s : State) : (setEvRoute k v s).rst = s.rst := rfl
@[simp] theorem setEvRoute_reply (k v : Nat) (s : State) : (setEvRoute k v s).reply = s.reply := rfl
@[simp] theorem setEvRoute_freeCtr (k v : Nat) (s : State) : (setEvRoute k v s).freeCtr = s.freeCtr := rfl
@[simp] theorem setEvRoute_pending (k v : Nat) (s : State) : (setEvRoute k v s).pending = s.pending := rfl
@[simp] theorem setEvRoute_fnOf (k v : Nat) (s : State) (x : Nat) : fnOf (setEvRoute k v s) x = fnOf s x := rfl
@[simp] theorem setEvRoute_ringOf (k v : Nat) (s : State) (x y : Nat) : ringOf (setEvRoute k v s) x y = ringOf s x y := rfl
@[simp] theorem setEvRoute_bufOf (k v : Nat) (s : State) (x y : Nat) : bufOf (setEvRoute k v s) x y = bufOf s x y := rfl
@[simp] theorem setEvRoute_vecOf (k v : Nat) (s : State) (x y : Nat) : vecOf (setEvRoute k v s) x y = vecOf s x y := rfl
@[simp] theorem setEvRoute_cmdOf (k v : Nat) (s : State) (x : Nat) : cmdOf (setEvRoute k v s) x = cmdOf s x := rfl
@[simp] theorem setEvRoute_partOf (k v : Nat) (s : State) (x : Nat) : partOf (setEvRoute k v s) x = partOf s x := rfl
@[simp] theorem setEvRoute_coreOf (k v : Nat) (s : State) (x : Nat) : coreOf (setEvRoute k v s) x = coreOf s x := rfl
@[simp] theorem setEvRoute_spadOf (k v : Nat) (s : State) (x : Nat) : spadOf (setEvRoute k v s) x = spadOf s x := rfl
@[simp] theorem setEvRoute_moverOf (k v : Nat) (s : State) (x : Nat) : moverOf (setEvRoute k v s) x = moverOf s x := rfl
@[simp] theorem setEvRoute_cloveOf (k v : Nat) (s : State) (x : Nat) : cloveOf (setEvRoute k v s) x = cloveOf s x := rfl
@[simp] theorem setEvRoute_frameOf (k v : Nat) (s : State) (x : Nat) : frameOf (setEvRoute k v s) x = frameOf s x := rfl
@[simp] theorem setEvRoute_portOf (k v : Nat) (s : State) (x : Nat) : portOf (setEvRoute k v s) x = portOf s x := rfl
@[simp] theorem setEvRoute_groupOf (k v : Nat) (s : State) (x : Nat) : groupOf (setEvRoute k v s) x = groupOf s x := rfl
@[simp] theorem setEvRoute_targetOf (k v : Nat) (s : State) (x : Nat) : targetOf (setEvRoute k v s) x = targetOf s x := rfl
@[simp] theorem setEvRoute_routeOf (k v : Nat) (s : State) (x : Nat) : routeOf (setEvRoute k v s) x = if x = k then (BitVec.ofNat 6 v).toNat else routeOf s x := by
  simp only [routeOf, setEvRoute, tabGet_tabSet]; split <;> rfl
@[simp] theorem setEvRoute_sensorOf (k v : Nat) (s : State) (x : Nat) : sensorOf (setEvRoute k v s) x = sensorOf s x := rfl
@[simp] theorem setEvRoute_farPortOf (k v : Nat) (s : State) (x : Nat) : farPortOf (setEvRoute k v s) x = farPortOf s x := rfl
@[simp] theorem setEvRoute_eccOf (k v : Nat) (s : State) (x : Nat) : eccOf (setEvRoute k v s) x = eccOf s x := rfl
@[simp] theorem setEvRoute_claimOf (k v : Nat) (s : State) (x : Nat) : claimOf (setEvRoute k v s) x = claimOf s x := rfl

/-! ### modSensor -/

@[simp] theorem modSensor_hif (n : Nat) (g : Sensor → Sensor) (s : State) : (modSensor n g s).hif = s.hif := rfl
@[simp] theorem modSensor_mem (n : Nat) (g : Sensor → Sensor) (s : State) : (modSensor n g s).mem = s.mem := rfl
@[simp] theorem modSensor_sem (n : Nat) (g : Sensor → Sensor) (s : State) : (modSensor n g s).sem = s.sem := rfl
@[simp] theorem modSensor_saf (n : Nat) (g : Sensor → Sensor) (s : State) : (modSensor n g s).saf = s.saf := rfl
@[simp] theorem modSensor_app (n : Nat) (g : Sensor → Sensor) (s : State) : (modSensor n g s).app = s.app := rfl
@[simp] theorem modSensor_mov (n : Nat) (g : Sensor → Sensor) (s : State) : (modSensor n g s).mov = s.mov := rfl
@[simp] theorem modSensor_staging (n : Nat) (g : Sensor → Sensor) (s : State) : (modSensor n g s).staging = s.staging := rfl
@[simp] theorem modSensor_clv (n : Nat) (g : Sensor → Sensor) (s : State) : (modSensor n g s).clv = s.clv := rfl
@[simp] theorem modSensor_kvt (n : Nat) (g : Sensor → Sensor) (s : State) : (modSensor n g s).kvt = s.kvt := rfl
@[simp] theorem modSensor_parts (n : Nat) (g : Sensor → Sensor) (s : State) : (modSensor n g s).parts = s.parts := rfl
@[simp] theorem modSensor_stw (n : Nat) (g : Sensor → Sensor) (s : State) : (modSensor n g s).stw = s.stw := rfl
@[simp] theorem modSensor_pwr (n : Nat) (g : Sensor → Sensor) (s : State) : (modSensor n g s).pwr = s.pwr := rfl
@[simp] theorem modSensor_evc (n : Nat) (g : Sensor → Sensor) (s : State) : (modSensor n g s).evc = s.evc := rfl
@[simp] theorem modSensor_sec (n : Nat) (g : Sensor → Sensor) (s : State) : (modSensor n g s).sec = s.sec := rfl
@[simp] theorem modSensor_rst (n : Nat) (g : Sensor → Sensor) (s : State) : (modSensor n g s).rst = s.rst := rfl
@[simp] theorem modSensor_reply (n : Nat) (g : Sensor → Sensor) (s : State) : (modSensor n g s).reply = s.reply := rfl
@[simp] theorem modSensor_freeCtr (n : Nat) (g : Sensor → Sensor) (s : State) : (modSensor n g s).freeCtr = s.freeCtr := rfl
@[simp] theorem modSensor_pending (n : Nat) (g : Sensor → Sensor) (s : State) : (modSensor n g s).pending = s.pending := rfl
@[simp] theorem modSensor_fnOf (n : Nat) (g : Sensor → Sensor) (s : State) (x : Nat) : fnOf (modSensor n g s) x = fnOf s x := rfl
@[simp] theorem modSensor_ringOf (n : Nat) (g : Sensor → Sensor) (s : State) (x y : Nat) : ringOf (modSensor n g s) x y = ringOf s x y := rfl
@[simp] theorem modSensor_bufOf (n : Nat) (g : Sensor → Sensor) (s : State) (x y : Nat) : bufOf (modSensor n g s) x y = bufOf s x y := rfl
@[simp] theorem modSensor_vecOf (n : Nat) (g : Sensor → Sensor) (s : State) (x y : Nat) : vecOf (modSensor n g s) x y = vecOf s x y := rfl
@[simp] theorem modSensor_cmdOf (n : Nat) (g : Sensor → Sensor) (s : State) (x : Nat) : cmdOf (modSensor n g s) x = cmdOf s x := rfl
@[simp] theorem modSensor_partOf (n : Nat) (g : Sensor → Sensor) (s : State) (x : Nat) : partOf (modSensor n g s) x = partOf s x := rfl
@[simp] theorem modSensor_coreOf (n : Nat) (g : Sensor → Sensor) (s : State) (x : Nat) : coreOf (modSensor n g s) x = coreOf s x := rfl
@[simp] theorem modSensor_spadOf (n : Nat) (g : Sensor → Sensor) (s : State) (x : Nat) : spadOf (modSensor n g s) x = spadOf s x := rfl
@[simp] theorem modSensor_moverOf (n : Nat) (g : Sensor → Sensor) (s : State) (x : Nat) : moverOf (modSensor n g s) x = moverOf s x := rfl
@[simp] theorem modSensor_cloveOf (n : Nat) (g : Sensor → Sensor) (s : State) (x : Nat) : cloveOf (modSensor n g s) x = cloveOf s x := rfl
@[simp] theorem modSensor_frameOf (n : Nat) (g : Sensor → Sensor) (s : State) (x : Nat) : frameOf (modSensor n g s) x = frameOf s x := rfl
@[simp] theorem modSensor_portOf (n : Nat) (g : Sensor → Sensor) (s : State) (x : Nat) : portOf (modSensor n g s) x = portOf s x := rfl
@[simp] theorem modSensor_groupOf (n : Nat) (g : Sensor → Sensor) (s : State) (x : Nat) : groupOf (modSensor n g s) x = groupOf s x := rfl
@[simp] theorem modSensor_targetOf (n : Nat) (g : Sensor → Sensor) (s : State) (x : Nat) : targetOf (modSensor n g s) x = targetOf s x := rfl
@[simp] theorem modSensor_routeOf (n : Nat) (g : Sensor → Sensor) (s : State) (x : Nat) : routeOf (modSensor n g s) x = routeOf s x := rfl
@[simp] theorem modSensor_sensorOf (n : Nat) (g : Sensor → Sensor) (s : State) (x : Nat) : sensorOf (modSensor n g s) x = if x = n then g (sensorOf s n) else sensorOf s x := by
  simp only [sensorOf, modSensor, tabGet_tabMod]
@[simp] theorem modSensor_farPortOf (n : Nat) (g : Sensor → Sensor) (s : State) (x : Nat) : farPortOf (modSensor n g s) x = farPortOf s x := rfl
@[simp] theorem modSensor_eccOf (n : Nat) (g : Sensor → Sensor) (s : State) (x : Nat) : eccOf (modSensor n g s) x = eccOf s x := rfl
@[simp] theorem modSensor_claimOf (n : Nat) (g : Sensor → Sensor) (s : State) (x : Nat) : claimOf (modSensor n g s) x = claimOf s x := rfl

/-! ### modFarPort -/

@[simp] theorem modFarPort_hif (q : Nat) (g : FarPort → FarPort) (s : State) : (modFarPort q g s).hif = s.hif := rfl
@[simp] theorem modFarPort_sem (q : Nat) (g : FarPort → FarPort) (s : State) : (modFarPort q g s).sem = s.sem := rfl
@[simp] theorem modFarPort_saf (q : Nat) (g : FarPort → FarPort) (s : State) : (modFarPort q g s).saf = s.saf := rfl
@[simp] theorem modFarPort_app (q : Nat) (g : FarPort → FarPort) (s : State) : (modFarPort q g s).app = s.app := rfl
@[simp] theorem modFarPort_mov (q : Nat) (g : FarPort → FarPort) (s : State) : (modFarPort q g s).mov = s.mov := rfl
@[simp] theorem modFarPort_staging (q : Nat) (g : FarPort → FarPort) (s : State) : (modFarPort q g s).staging = s.staging := rfl
@[simp] theorem modFarPort_clv (q : Nat) (g : FarPort → FarPort) (s : State) : (modFarPort q g s).clv = s.clv := rfl
@[simp] theorem modFarPort_kvt (q : Nat) (g : FarPort → FarPort) (s : State) : (modFarPort q g s).kvt = s.kvt := rfl
@[simp] theorem modFarPort_parts (q : Nat) (g : FarPort → FarPort) (s : State) : (modFarPort q g s).parts = s.parts := rfl
@[simp] theorem modFarPort_stw (q : Nat) (g : FarPort → FarPort) (s : State) : (modFarPort q g s).stw = s.stw := rfl
@[simp] theorem modFarPort_pwr (q : Nat) (g : FarPort → FarPort) (s : State) : (modFarPort q g s).pwr = s.pwr := rfl
@[simp] theorem modFarPort_thm (q : Nat) (g : FarPort → FarPort) (s : State) : (modFarPort q g s).thm = s.thm := rfl
@[simp] theorem modFarPort_evc (q : Nat) (g : FarPort → FarPort) (s : State) : (modFarPort q g s).evc = s.evc := rfl
@[simp] theorem modFarPort_sec (q : Nat) (g : FarPort → FarPort) (s : State) : (modFarPort q g s).sec = s.sec := rfl
@[simp] theorem modFarPort_rst (q : Nat) (g : FarPort → FarPort) (s : State) : (modFarPort q g s).rst = s.rst := rfl
@[simp] theorem modFarPort_reply (q : Nat) (g : FarPort → FarPort) (s : State) : (modFarPort q g s).reply = s.reply := rfl
@[simp] theorem modFarPort_freeCtr (q : Nat) (g : FarPort → FarPort) (s : State) : (modFarPort q g s).freeCtr = s.freeCtr := rfl
@[simp] theorem modFarPort_pending (q : Nat) (g : FarPort → FarPort) (s : State) : (modFarPort q g s).pending = s.pending := rfl
@[simp] theorem modFarPort_fnOf (q : Nat) (g : FarPort → FarPort) (s : State) (x : Nat) : fnOf (modFarPort q g s) x = fnOf s x := rfl
@[simp] theorem modFarPort_ringOf (q : Nat) (g : FarPort → FarPort) (s : State) (x y : Nat) : ringOf (modFarPort q g s) x y = ringOf s x y := rfl
@[simp] theorem modFarPort_bufOf (q : Nat) (g : FarPort → FarPort) (s : State) (x y : Nat) : bufOf (modFarPort q g s) x y = bufOf s x y := rfl
@[simp] theorem modFarPort_vecOf (q : Nat) (g : FarPort → FarPort) (s : State) (x y : Nat) : vecOf (modFarPort q g s) x y = vecOf s x y := rfl
@[simp] theorem modFarPort_cmdOf (q : Nat) (g : FarPort → FarPort) (s : State) (x : Nat) : cmdOf (modFarPort q g s) x = cmdOf s x := rfl
@[simp] theorem modFarPort_partOf (q : Nat) (g : FarPort → FarPort) (s : State) (x : Nat) : partOf (modFarPort q g s) x = partOf s x := rfl
@[simp] theorem modFarPort_coreOf (q : Nat) (g : FarPort → FarPort) (s : State) (x : Nat) : coreOf (modFarPort q g s) x = coreOf s x := rfl
@[simp] theorem modFarPort_spadOf (q : Nat) (g : FarPort → FarPort) (s : State) (x : Nat) : spadOf (modFarPort q g s) x = spadOf s x := rfl
@[simp] theorem modFarPort_moverOf (q : Nat) (g : FarPort → FarPort) (s : State) (x : Nat) : moverOf (modFarPort q g s) x = moverOf s x := rfl
@[simp] theorem modFarPort_cloveOf (q : Nat) (g : FarPort → FarPort) (s : State) (x : Nat) : cloveOf (modFarPort q g s) x = cloveOf s x := rfl
@[simp] theorem modFarPort_frameOf (q : Nat) (g : FarPort → FarPort) (s : State) (x : Nat) : frameOf (modFarPort q g s) x = frameOf s x := rfl
@[simp] theorem modFarPort_portOf (q : Nat) (g : FarPort → FarPort) (s : State) (x : Nat) : portOf (modFarPort q g s) x = portOf s x := rfl
@[simp] theorem modFarPort_groupOf (q : Nat) (g : FarPort → FarPort) (s : State) (x : Nat) : groupOf (modFarPort q g s) x = groupOf s x := rfl
@[simp] theorem modFarPort_targetOf (q : Nat) (g : FarPort → FarPort) (s : State) (x : Nat) : targetOf (modFarPort q g s) x = targetOf s x := rfl
@[simp] theorem modFarPort_routeOf (q : Nat) (g : FarPort → FarPort) (s : State) (x : Nat) : routeOf (modFarPort q g s) x = routeOf s x := rfl
@[simp] theorem modFarPort_sensorOf (q : Nat) (g : FarPort → FarPort) (s : State) (x : Nat) : sensorOf (modFarPort q g s) x = sensorOf s x := rfl
@[simp] theorem modFarPort_farPortOf (q : Nat) (g : FarPort → FarPort) (s : State) (x : Nat) : farPortOf (modFarPort q g s) x = if x = q then g (farPortOf s q) else farPortOf s x := by
  simp only [farPortOf, modFarPort, tabGet_tabMod]
@[simp] theorem modFarPort_eccOf (q : Nat) (g : FarPort → FarPort) (s : State) (x : Nat) : eccOf (modFarPort q g s) x = eccOf s x := rfl
@[simp] theorem modFarPort_claimOf (q : Nat) (g : FarPort → FarPort) (s : State) (x : Nat) : claimOf (modFarPort q g s) x = claimOf s x := rfl

/-! ### modEcc -/

@[simp] theorem modEcc_hif (n : Nat) (g : EccTest → EccTest) (s : State) : (modEcc n g s).hif = s.hif := rfl
@[simp] theorem modEcc_sem (n : Nat) (g : EccTest → EccTest) (s : State) : (modEcc n g s).sem = s.sem := rfl
@[simp] theorem modEcc_saf (n : Nat) (g : EccTest → EccTest) (s : State) : (modEcc n g s).saf = s.saf := rfl
@[simp] theorem modEcc_app (n : Nat) (g : EccTest → EccTest) (s : State) : (modEcc n g s).app = s.app := rfl
@[simp] theorem modEcc_mov (n : Nat) (g : EccTest → EccTest) (s : State) : (modEcc n g s).mov = s.mov := rfl
@[simp] theorem modEcc_staging (n : Nat) (g : EccTest → EccTest) (s : State) : (modEcc n g s).staging = s.staging := rfl
@[simp] theorem modEcc_clv (n : Nat) (g : EccTest → EccTest) (s : State) : (modEcc n g s).clv = s.clv := rfl
@[simp] theorem modEcc_kvt (n : Nat) (g : EccTest → EccTest) (s : State) : (modEcc n g s).kvt = s.kvt := rfl
@[simp] theorem modEcc_parts (n : Nat) (g : EccTest → EccTest) (s : State) : (modEcc n g s).parts = s.parts := rfl
@[simp] theorem modEcc_stw (n : Nat) (g : EccTest → EccTest) (s : State) : (modEcc n g s).stw = s.stw := rfl
@[simp] theorem modEcc_pwr (n : Nat) (g : EccTest → EccTest) (s : State) : (modEcc n g s).pwr = s.pwr := rfl
@[simp] theorem modEcc_thm (n : Nat) (g : EccTest → EccTest) (s : State) : (modEcc n g s).thm = s.thm := rfl
@[simp] theorem modEcc_evc (n : Nat) (g : EccTest → EccTest) (s : State) : (modEcc n g s).evc = s.evc := rfl
@[simp] theorem modEcc_sec (n : Nat) (g : EccTest → EccTest) (s : State) : (modEcc n g s).sec = s.sec := rfl
@[simp] theorem modEcc_rst (n : Nat) (g : EccTest → EccTest) (s : State) : (modEcc n g s).rst = s.rst := rfl
@[simp] theorem modEcc_reply (n : Nat) (g : EccTest → EccTest) (s : State) : (modEcc n g s).reply = s.reply := rfl
@[simp] theorem modEcc_freeCtr (n : Nat) (g : EccTest → EccTest) (s : State) : (modEcc n g s).freeCtr = s.freeCtr := rfl
@[simp] theorem modEcc_pending (n : Nat) (g : EccTest → EccTest) (s : State) : (modEcc n g s).pending = s.pending := rfl
@[simp] theorem modEcc_fnOf (n : Nat) (g : EccTest → EccTest) (s : State) (x : Nat) : fnOf (modEcc n g s) x = fnOf s x := rfl
@[simp] theorem modEcc_ringOf (n : Nat) (g : EccTest → EccTest) (s : State) (x y : Nat) : ringOf (modEcc n g s) x y = ringOf s x y := rfl
@[simp] theorem modEcc_bufOf (n : Nat) (g : EccTest → EccTest) (s : State) (x y : Nat) : bufOf (modEcc n g s) x y = bufOf s x y := rfl
@[simp] theorem modEcc_vecOf (n : Nat) (g : EccTest → EccTest) (s : State) (x y : Nat) : vecOf (modEcc n g s) x y = vecOf s x y := rfl
@[simp] theorem modEcc_cmdOf (n : Nat) (g : EccTest → EccTest) (s : State) (x : Nat) : cmdOf (modEcc n g s) x = cmdOf s x := rfl
@[simp] theorem modEcc_partOf (n : Nat) (g : EccTest → EccTest) (s : State) (x : Nat) : partOf (modEcc n g s) x = partOf s x := rfl
@[simp] theorem modEcc_coreOf (n : Nat) (g : EccTest → EccTest) (s : State) (x : Nat) : coreOf (modEcc n g s) x = coreOf s x := rfl
@[simp] theorem modEcc_spadOf (n : Nat) (g : EccTest → EccTest) (s : State) (x : Nat) : spadOf (modEcc n g s) x = spadOf s x := rfl
@[simp] theorem modEcc_moverOf (n : Nat) (g : EccTest → EccTest) (s : State) (x : Nat) : moverOf (modEcc n g s) x = moverOf s x := rfl
@[simp] theorem modEcc_cloveOf (n : Nat) (g : EccTest → EccTest) (s : State) (x : Nat) : cloveOf (modEcc n g s) x = cloveOf s x := rfl
@[simp] theorem modEcc_frameOf (n : Nat) (g : EccTest → EccTest) (s : State) (x : Nat) : frameOf (modEcc n g s) x = frameOf s x := rfl
@[simp] theorem modEcc_portOf (n : Nat) (g : EccTest → EccTest) (s : State) (x : Nat) : portOf (modEcc n g s) x = portOf s x := rfl
@[simp] theorem modEcc_groupOf (n : Nat) (g : EccTest → EccTest) (s : State) (x : Nat) : groupOf (modEcc n g s) x = groupOf s x := rfl
@[simp] theorem modEcc_targetOf (n : Nat) (g : EccTest → EccTest) (s : State) (x : Nat) : targetOf (modEcc n g s) x = targetOf s x := rfl
@[simp] theorem modEcc_routeOf (n : Nat) (g : EccTest → EccTest) (s : State) (x : Nat) : routeOf (modEcc n g s) x = routeOf s x := rfl
@[simp] theorem modEcc_sensorOf (n : Nat) (g : EccTest → EccTest) (s : State) (x : Nat) : sensorOf (modEcc n g s) x = sensorOf s x := rfl
@[simp] theorem modEcc_farPortOf (n : Nat) (g : EccTest → EccTest) (s : State) (x : Nat) : farPortOf (modEcc n g s) x = farPortOf s x := rfl
@[simp] theorem modEcc_eccOf (n : Nat) (g : EccTest → EccTest) (s : State) (x : Nat) : eccOf (modEcc n g s) x = if x = n then g (eccOf s n) else eccOf s x := by
  simp only [eccOf, modEcc, tabGet_tabMod]
@[simp] theorem modEcc_claimOf (n : Nat) (g : EccTest → EccTest) (s : State) (x : Nat) : claimOf (modEcc n g s) x = claimOf s x := rfl

/-! ### setClaim -/

@[simp] theorem setClaim_hif (i : Nat) (c : Claim) (s : State) : (setClaim i c s).hif = s.hif := rfl
@[simp] theorem setClaim_mem (i : Nat) (c : Claim) (s : State) : (setClaim i c s).mem = s.mem := rfl
@[simp] theorem setClaim_sem (i : Nat) (c : Claim) (s : State) : (setClaim i c s).sem = s.sem := rfl
@[simp] theorem setClaim_saf (i : Nat) (c : Claim) (s : State) : (setClaim i c s).saf = s.saf := rfl
@[simp] theorem setClaim_app (i : Nat) (c : Claim) (s : State) : (setClaim i c s).app = s.app := rfl
@[simp] theorem setClaim_mov (i : Nat) (c : Claim) (s : State) : (setClaim i c s).mov = s.mov := rfl
@[simp] theorem setClaim_staging (i : Nat) (c : Claim) (s : State) : (setClaim i c s).staging = s.staging := rfl
@[simp] theorem setClaim_clv (i : Nat) (c : Claim) (s : State) : (setClaim i c s).clv = s.clv := rfl
@[simp] theorem setClaim_kvt (i : Nat) (c : Claim) (s : State) : (setClaim i c s).kvt = s.kvt := rfl
@[simp] theorem setClaim_parts (i : Nat) (c : Claim) (s : State) : (setClaim i c s).parts = s.parts := rfl
@[simp] theorem setClaim_stw (i : Nat) (c : Claim) (s : State) : (setClaim i c s).stw = s.stw := rfl
@[simp] theorem setClaim_pwr (i : Nat) (c : Claim) (s : State) : (setClaim i c s).pwr = s.pwr := rfl
@[simp] theorem setClaim_thm (i : Nat) (c : Claim) (s : State) : (setClaim i c s).thm = s.thm := rfl
@[simp] theorem setClaim_evc (i : Nat) (c : Claim) (s : State) : (setClaim i c s).evc = s.evc := rfl
@[simp] theorem setClaim_sec (i : Nat) (c : Claim) (s : State) : (setClaim i c s).sec = s.sec := rfl
@[simp] theorem setClaim_reply (i : Nat) (c : Claim) (s : State) : (setClaim i c s).reply = s.reply := rfl
@[simp] theorem setClaim_freeCtr (i : Nat) (c : Claim) (s : State) : (setClaim i c s).freeCtr = s.freeCtr := rfl
@[simp] theorem setClaim_pending (i : Nat) (c : Claim) (s : State) : (setClaim i c s).pending = s.pending := rfl
@[simp] theorem setClaim_fnOf (i : Nat) (c : Claim) (s : State) (x : Nat) : fnOf (setClaim i c s) x = fnOf s x := rfl
@[simp] theorem setClaim_ringOf (i : Nat) (c : Claim) (s : State) (x y : Nat) : ringOf (setClaim i c s) x y = ringOf s x y := rfl
@[simp] theorem setClaim_bufOf (i : Nat) (c : Claim) (s : State) (x y : Nat) : bufOf (setClaim i c s) x y = bufOf s x y := rfl
@[simp] theorem setClaim_vecOf (i : Nat) (c : Claim) (s : State) (x y : Nat) : vecOf (setClaim i c s) x y = vecOf s x y := rfl
@[simp] theorem setClaim_cmdOf (i : Nat) (c : Claim) (s : State) (x : Nat) : cmdOf (setClaim i c s) x = cmdOf s x := rfl
@[simp] theorem setClaim_partOf (i : Nat) (c : Claim) (s : State) (x : Nat) : partOf (setClaim i c s) x = partOf s x := rfl
@[simp] theorem setClaim_coreOf (i : Nat) (c : Claim) (s : State) (x : Nat) : coreOf (setClaim i c s) x = coreOf s x := rfl
@[simp] theorem setClaim_spadOf (i : Nat) (c : Claim) (s : State) (x : Nat) : spadOf (setClaim i c s) x = spadOf s x := rfl
@[simp] theorem setClaim_moverOf (i : Nat) (c : Claim) (s : State) (x : Nat) : moverOf (setClaim i c s) x = moverOf s x := rfl
@[simp] theorem setClaim_cloveOf (i : Nat) (c : Claim) (s : State) (x : Nat) : cloveOf (setClaim i c s) x = cloveOf s x := rfl
@[simp] theorem setClaim_frameOf (i : Nat) (c : Claim) (s : State) (x : Nat) : frameOf (setClaim i c s) x = frameOf s x := rfl
@[simp] theorem setClaim_portOf (i : Nat) (c : Claim) (s : State) (x : Nat) : portOf (setClaim i c s) x = portOf s x := rfl
@[simp] theorem setClaim_groupOf (i : Nat) (c : Claim) (s : State) (x : Nat) : groupOf (setClaim i c s) x = groupOf s x := rfl
@[simp] theorem setClaim_targetOf (i : Nat) (c : Claim) (s : State) (x : Nat) : targetOf (setClaim i c s) x = targetOf s x := rfl
@[simp] theorem setClaim_routeOf (i : Nat) (c : Claim) (s : State) (x : Nat) : routeOf (setClaim i c s) x = routeOf s x := rfl
@[simp] theorem setClaim_sensorOf (i : Nat) (c : Claim) (s : State) (x : Nat) : sensorOf (setClaim i c s) x = sensorOf s x := rfl
@[simp] theorem setClaim_farPortOf (i : Nat) (c : Claim) (s : State) (x : Nat) : farPortOf (setClaim i c s) x = farPortOf s x := rfl
@[simp] theorem setClaim_eccOf (i : Nat) (c : Claim) (s : State) (x : Nat) : eccOf (setClaim i c s) x = eccOf s x := rfl
@[simp] theorem setClaim_claimOf (i : Nat) (c : Claim) (s : State) (x : Nat) : claimOf (setClaim i c s) x = if x = i then c else claimOf s x := by
  simp only [claimOf, setClaim, tabGet_tabSet]

/-! ### setReply -/

@[simp] theorem setReply_hif (r : Reply) (s : State) : (setReply r s).hif = s.hif := rfl
@[simp] theorem setReply_mem (r : Reply) (s : State) : (setReply r s).mem = s.mem := rfl
@[simp] theorem setReply_sem (r : Reply) (s : State) : (setReply r s).sem = s.sem := rfl
@[simp] theorem setReply_saf (r : Reply) (s : State) : (setReply r s).saf = s.saf := rfl
@[simp] theorem setReply_app (r : Reply) (s : State) : (setReply r s).app = s.app := rfl
@[simp] theorem setReply_mov (r : Reply) (s : State) : (setReply r s).mov = s.mov := rfl
@[simp] theorem setReply_staging (r : Reply) (s : State) : (setReply r s).staging = s.staging := rfl
@[simp] theorem setReply_clv (r : Reply) (s : State) : (setReply r s).clv = s.clv := rfl
@[simp] theorem setReply_kvt (r : Reply) (s : State) : (setReply r s).kvt = s.kvt := rfl
@[simp] theorem setReply_parts (r : Reply) (s : State) : (setReply r s).parts = s.parts := rfl
@[simp] theorem setReply_stw (r : Reply) (s : State) : (setReply r s).stw = s.stw := rfl
@[simp] theorem setReply_pwr (r : Reply) (s : State) : (setReply r s).pwr = s.pwr := rfl
@[simp] theorem setReply_thm (r : Reply) (s : State) : (setReply r s).thm = s.thm := rfl
@[simp] theorem setReply_evc (r : Reply) (s : State) : (setReply r s).evc = s.evc := rfl
@[simp] theorem setReply_sec (r : Reply) (s : State) : (setReply r s).sec = s.sec := rfl
@[simp] theorem setReply_rst (r : Reply) (s : State) : (setReply r s).rst = s.rst := rfl
@[simp] theorem setReply_freeCtr (r : Reply) (s : State) : (setReply r s).freeCtr = s.freeCtr := rfl
@[simp] theorem setReply_pending (r : Reply) (s : State) : (setReply r s).pending = s.pending := rfl
@[simp] theorem setReply_fnOf (r : Reply) (s : State) (x : Nat) : fnOf (setReply r s) x = fnOf s x := rfl
@[simp] theorem setReply_ringOf (r : Reply) (s : State) (x y : Nat) : ringOf (setReply r s) x y = ringOf s x y := rfl
@[simp] theorem setReply_bufOf (r : Reply) (s : State) (x y : Nat) : bufOf (setReply r s) x y = bufOf s x y := rfl
@[simp] theorem setReply_vecOf (r : Reply) (s : State) (x y : Nat) : vecOf (setReply r s) x y = vecOf s x y := rfl
@[simp] theorem setReply_cmdOf (r : Reply) (s : State) (x : Nat) : cmdOf (setReply r s) x = cmdOf s x := rfl
@[simp] theorem setReply_partOf (r : Reply) (s : State) (x : Nat) : partOf (setReply r s) x = partOf s x := rfl
@[simp] theorem setReply_coreOf (r : Reply) (s : State) (x : Nat) : coreOf (setReply r s) x = coreOf s x := rfl
@[simp] theorem setReply_spadOf (r : Reply) (s : State) (x : Nat) : spadOf (setReply r s) x = spadOf s x := rfl
@[simp] theorem setReply_moverOf (r : Reply) (s : State) (x : Nat) : moverOf (setReply r s) x = moverOf s x := rfl
@[simp] theorem setReply_cloveOf (r : Reply) (s : State) (x : Nat) : cloveOf (setReply r s) x = cloveOf s x := rfl
@[simp] theorem setReply_frameOf (r : Reply) (s : State) (x : Nat) : frameOf (setReply r s) x = frameOf s x := rfl
@[simp] theorem setReply_portOf (r : Reply) (s : State) (x : Nat) : portOf (setReply r s) x = portOf s x := rfl
@[simp] theorem setReply_groupOf (r : Reply) (s : State) (x : Nat) : groupOf (setReply r s) x = groupOf s x := rfl
@[simp] theorem setReply_targetOf (r : Reply) (s : State) (x : Nat) : targetOf (setReply r s) x = targetOf s x := rfl
@[simp] theorem setReply_routeOf (r : Reply) (s : State) (x : Nat) : routeOf (setReply r s) x = routeOf s x := rfl
@[simp] theorem setReply_sensorOf (r : Reply) (s : State) (x : Nat) : sensorOf (setReply r s) x = sensorOf s x := rfl
@[simp] theorem setReply_farPortOf (r : Reply) (s : State) (x : Nat) : farPortOf (setReply r s) x = farPortOf s x := rfl
@[simp] theorem setReply_eccOf (r : Reply) (s : State) (x : Nat) : eccOf (setReply r s) x = eccOf s x := rfl
@[simp] theorem setReply_claimOf (r : Reply) (s : State) (x : Nat) : claimOf (setReply r s) x = claimOf s x := rfl

/-! ### notTaken -/

@[simp] theorem notTaken_hif (s : State) : (notTaken s).hif = s.hif := rfl
@[simp] theorem notTaken_mem (s : State) : (notTaken s).mem = s.mem := rfl
@[simp] theorem notTaken_sem (s : State) : (notTaken s).sem = s.sem := rfl
@[simp] theorem notTaken_saf (s : State) : (notTaken s).saf = s.saf := rfl
@[simp] theorem notTaken_app (s : State) : (notTaken s).app = s.app := rfl
@[simp] theorem notTaken_mov (s : State) : (notTaken s).mov = s.mov := rfl
@[simp] theorem notTaken_staging (s : State) : (notTaken s).staging = s.staging := rfl
@[simp] theorem notTaken_clv (s : State) : (notTaken s).clv = s.clv := rfl
@[simp] theorem notTaken_kvt (s : State) : (notTaken s).kvt = s.kvt := rfl
@[simp] theorem notTaken_parts (s : State) : (notTaken s).parts = s.parts := rfl
@[simp] theorem notTaken_stw (s : State) : (notTaken s).stw = s.stw := rfl
@[simp] theorem notTaken_pwr (s : State) : (notTaken s).pwr = s.pwr := rfl
@[simp] theorem notTaken_thm (s : State) : (notTaken s).thm = s.thm := rfl
@[simp] theorem notTaken_evc (s : State) : (notTaken s).evc = s.evc := rfl
@[simp] theorem notTaken_sec (s : State) : (notTaken s).sec = s.sec := rfl
@[simp] theorem notTaken_rst (s : State) : (notTaken s).rst = s.rst := rfl
@[simp] theorem notTaken_freeCtr (s : State) : (notTaken s).freeCtr = s.freeCtr := rfl
@[simp] theorem notTaken_pending (s : State) : (notTaken s).pending = s.pending := rfl
@[simp] theorem notTaken_fnOf (s : State) (x : Nat) : fnOf (notTaken s) x = fnOf s x := rfl
@[simp] theorem notTaken_ringOf (s : State) (x y : Nat) : ringOf (notTaken s) x y = ringOf s x y := rfl
@[simp] theorem notTaken_bufOf (s : State) (x y : Nat) : bufOf (notTaken s) x y = bufOf s x y := rfl
@[simp] theorem notTaken_vecOf (s : State) (x y : Nat) : vecOf (notTaken s) x y = vecOf s x y := rfl
@[simp] theorem notTaken_cmdOf (s : State) (x : Nat) : cmdOf (notTaken s) x = cmdOf s x := rfl
@[simp] theorem notTaken_partOf (s : State) (x : Nat) : partOf (notTaken s) x = partOf s x := rfl
@[simp] theorem notTaken_coreOf (s : State) (x : Nat) : coreOf (notTaken s) x = coreOf s x := rfl
@[simp] theorem notTaken_spadOf (s : State) (x : Nat) : spadOf (notTaken s) x = spadOf s x := rfl
@[simp] theorem notTaken_moverOf (s : State) (x : Nat) : moverOf (notTaken s) x = moverOf s x := rfl
@[simp] theorem notTaken_cloveOf (s : State) (x : Nat) : cloveOf (notTaken s) x = cloveOf s x := rfl
@[simp] theorem notTaken_frameOf (s : State) (x : Nat) : frameOf (notTaken s) x = frameOf s x := rfl
@[simp] theorem notTaken_portOf (s : State) (x : Nat) : portOf (notTaken s) x = portOf s x := rfl
@[simp] theorem notTaken_groupOf (s : State) (x : Nat) : groupOf (notTaken s) x = groupOf s x := rfl
@[simp] theorem notTaken_targetOf (s : State) (x : Nat) : targetOf (notTaken s) x = targetOf s x := rfl
@[simp] theorem notTaken_routeOf (s : State) (x : Nat) : routeOf (notTaken s) x = routeOf s x := rfl
@[simp] theorem notTaken_sensorOf (s : State) (x : Nat) : sensorOf (notTaken s) x = sensorOf s x := rfl
@[simp] theorem notTaken_farPortOf (s : State) (x : Nat) : farPortOf (notTaken s) x = farPortOf s x := rfl
@[simp] theorem notTaken_eccOf (s : State) (x : Nat) : eccOf (notTaken s) x = eccOf s x := rfl
@[simp] theorem notTaken_claimOf (s : State) (x : Nat) : claimOf (notTaken s) x = claimOf s x := rfl

end Sys2Proof.Machine
end

