-- ==== Sys2Proof/Laws/Sched.lean ====
section
/-!
SUPPORT. What a decision of the scheduler leaves alone, and how a command that ends is left.
-/
namespace Sys2Proof.Machine

theorem onlySched.refl (s : State) : onlySched s s := ⟨rfl, rfl, rfl, fun _ => rfl, fun _ => rfl, fun _ _ => rfl, fun _ => rfl⟩

theorem onlySched.trans {s t u : State} (h : onlySched s t) (g : onlySched t u) : onlySched s u where
  rest := by have a := h.rest; have b := g.rest; rw [b, a]
  hif := by have a := h.hif; have b := g.hif; rw [b, a]
  saf := by have a := h.saf; have b := g.saf; rw [b, a]
  core n := by have a := h.core n; have b := g.core n; rw [b, a]
  fn f := by have a := h.fn f; have b := g.fn f; rw [b, a]
  ring f r := by have a := h.ring f r; have b := g.ring f r; rw [b, a]
  part p := by have a := h.part p; have b := g.part p; rw [b, a]

theorem foldState_sched {α : Type} (l : List α) (f : α → State → State) (hf : ∀ a t, onlySched t (f a t)) (s : State) :
    onlySched s (foldState l f s) := by
  unfold foldState
  induction l generalizing s with
  | nil => exact .refl s
  | cons a l ih => exact (hf a s).trans (ih (f a s))

theorem iter_sched (f : Nat → State → State) (hf : ∀ a t, onlySched t (f a t)) (n lo : Nat) (s : State) :
    onlySched s (iter f lo n s) := by
  induction n generalizing lo s with
  | zero => exact .refl s
  | succ n ih => exact (hf lo s).trans (ih (lo + 1) _)

theorem ite_sched {c : Prop} [Decidable c] {s u v : State} (h : onlySched s u) (g : onlySched s v) :
    onlySched s (if c then u else v) := by
  split
  · exact h
  · exact g

/-- An update of the fabric, the Cloves or the event controller. -/
theorem stw_sched (s : State) (x : Fabric) : onlySched s { s with stw := x } :=
  ⟨rfl, rfl, rfl, fun _ => rfl, fun _ => rfl, fun _ _ => rfl, fun _ => rfl⟩
theorem clv_sched (s : State) (x : Cloves) : onlySched s { s with clv := x } :=
  ⟨rfl, rfl, rfl, fun _ => rfl, fun _ => rfl, fun _ _ => rfl, fun _ => rfl⟩
theorem evc_sched (s : State) (x : Events) : onlySched s { s with evc := x } :=
  ⟨rfl, rfl, rfl, fun _ => rfl, fun _ => rfl, fun _ _ => rfl, fun _ => rfl⟩
theorem modCore_sched (n : Nat) (g : Core → Core) (hg : ∀ x, g x = { x with
    suspendReq := (g x).suspendReq, grace := (g x).grace, graceRun := (g x).graceRun, keepWait := (g x).keepWait }) (s : State) :
    onlySched s (modCore n g s) := by
  refine ⟨rfl, rfl, rfl, fun x => ?_, fun _ => rfl, fun _ _ => rfl, fun _ => rfl⟩
  simp only [coreOf, modCore, tabGet_tabMod]; split
  · subst x; exact hg _
  · rfl
theorem modPort_sched (n : Nat) (g : Port → Port) (s : State) : onlySched s (modPort n g s) := stw_sched s _

theorem raise_sched (k : Nat) (s : State) : onlySched s (raise k s) := by
  unfold raise
  exact ite_sched (.refl s) (evc_sched s _)

theorem modRing_sched (f r : Nat) (g : Ring → Ring) (hg : ∀ q, g q = { q with job := (g q).job, inherited := (g q).inherited })
    (s : State) : onlySched s (modRing f r g s) := by
  refine ⟨rfl, rfl, rfl, fun _ => rfl, fun x => ?_, fun x y => ?_, fun _ => rfl⟩
  · simp only [modRing, modFn_fnOf]; split
    · subst x; rfl
    · rfl
  · simp only [modRing, modFn_ringOf]; split
    · subst x
      simp only [tabGet_tabMod]; split
      · subst y; exact hg _
      · rfl
    · rfl

theorem modPart_sched (p : Nat) (g : Part → Part) (hg : ∀ q, g q = { q with
    running := (g q).running, next := (g q).next, pendingStop := (g q).pendingStop, pendingHold := (g q).pendingHold, pendingWait := (g q).pendingWait,
    woken := (g q).woken, lastRun := (g q).lastRun, ran := (g q).ran }) (s : State) : onlySched s (modPart p g s) := by
  refine ⟨rfl, rfl, rfl, fun _ => rfl, fun _ => rfl, fun _ _ => rfl, fun x => ?_⟩
  simp only [partOf, modPart, tabGet_tabMod]; split
  · subst x; exact hg _
  · rfl

theorem fabricStop_sched (j : Nat × Nat) (s : State) : onlySched s (fabricStop j s) :=
  ((stw_sched s _).trans (stw_sched _ _)).trans (foldState_sched _ _ (fun _ t => stw_sched t _) _)

theorem startNext_sched (p : Nat) (s : State) : onlySched s (startNext p s) := by
  unfold startNext noteRun modJob
  split
  · exact .refl s
  · split
    · exact modPart_sched _ _ (fun _ => rfl) s
    · refine ite_sched ?_ (modPart_sched _ _ (fun _ => rfl) s)
      exact ((modRing_sched _ _ _ (fun _ => rfl) s).trans (modPart_sched _ _ (fun _ => rfl) _)).trans (modPart_sched _ _ (fun _ => rfl) _)

theorem beginStop_sched (p reason : Nat) (j : Nat × Nat) (s : State) : onlySched s (beginStop p reason j s) := by
  unfold beginStop modJob
  refine .trans (((modRing_sched _ _ _ (fun _ => rfl) s).trans (fabricStop_sched j _)).trans (modPart_sched _ _ (fun _ => rfl) _))
    (foldState_sched _ _ (fun c t => ?_) _)
  exact (clv_sched t _).trans (foldState_sched _ _ (fun _ u => modCore_sched _ _ (fun x => by split <;> rfl) u) _)

theorem requestStop_sched (p reason : Nat) (s : State) : onlySched s (requestStop p reason s) := by
  unfold requestStop modJob
  split
  · exact .refl s
  · refine ite_sched (.refl s) (ite_sched ?_ (ite_sched (beginStop_sched _ _ _ _) (ite_sched (modPart_sched _ _ (fun _ => rfl) s) (modPart_sched _ _ (fun _ => rfl) s))))
    exact ((modRing_sched _ _ _ (fun _ => rfl) s).trans (modPart_sched _ _ (fun _ => rfl) _)).trans (startNext_sched _ _)

/-- The decision of R364. -/
theorem schedule_sched (p : Nat) (s : State) : onlySched s (schedule p s) := by
  unfold schedule
  split
  · exact startNext_sched p s
  · exact ite_sched (requestStop_sched p 1 s) (.refl s)

theorem wakeJob_sched (j : Nat × Nat) (s : State) : onlySched s (wakeJob j s) := by
  unfold wakeJob modJob
  split
  · exact (modRing_sched _ _ _ (fun _ => rfl) s).trans (schedule_sched _ _)
  · exact modPart_sched _ _ (fun _ => rfl) s
  · exact modPart_sched _ _ (fun _ => rfl) s
  · exact .refl s

theorem reinherit_sched (p : Nat) (s : State) : onlySched s (reinherit p s) := by
  unfold reinherit modJob
  refine .trans (.trans (foldState_sched _ _ (fun j t => modRing_sched _ _ _ (fun _ => rfl) t) s) (iter_sched _ (fun _ t => ?_) _ _ _))
    (schedule_sched _ _)
  exact foldState_sched _ _ (fun w u => foldState_sched _ _ (fun h v => modRing_sched _ _ _ (fun q => by split <;> rfl) v) u) t

/-! ### How a command ends (R342) -/

theorem markDone_cmdOf (c : Nat) (st : Status) (cause result index : Nat) (flags : BitVec 4) (s : State) (d : Nat) :
    cmdOf (markDone c st cause result index flags s) d = if d = c then { cmdOf s c with
      phase := .done, status := st, cause := cause, result := result, index := index, flags := flags, waiting := false
      waitFor := [] } else cmdOf s d := by
  unfold markDone
  have h : ∀ (f r : Nat) (g : Ring → Ring) (u : State), cmdOf (modRing f r g u) d = cmdOf u d := fun _ _ _ _ => rfl
  have l : ∀ (p : Prop) [Decidable p] (u : State), cmdOf (if p then lostTo c u else u) d = cmdOf u d := fun p _ u => by
    split
    · exact h ..
    · rfl
  dsimp only
  split
  · rw [l]; simp only [cmdOf, modCmd, tabGet_tabMod]
  · rw [h, l]; simp only [cmdOf, modCmd, tabGet_tabMod]

/-- The fences that a command's end lets go are commands that ran: a command that has ended is left as it is. -/
theorem settleFences_done (k : Nat) (s : State) (c : Nat) (h : (cmdOf s c).phase ≠ .running) :
    cmdOf (settleFences k s) c = cmdOf s c := by
  induction k generalizing s with
  | zero => rfl
  | succ k ih =>
    unfold settleFences
    split
    · rfl
    · rename_i d x e
      have hd : fenceFree s (cmdOf s d) = true := by have := List.find?_some e; exact this
      have hc : c ≠ d := fun k => by subst k; simp [fenceFree, h] at hd
      have hw : ∀ u : State, cmdOf (wakeJob ((cmdOf s d).fn, (cmdOf s d).ring) u) c = cmdOf u c := fun u => by
        simp only [cmdOf]; rw [(wakeJob_sched _ u).hif]
      have hm : cmdOf (markDone d .ok 0 0 0 0 s) c = cmdOf s c := by simp [markDone_cmdOf, hc]
      rw [ih _ (by rw [hw, hm]; exact h), hw, hm]

theorem finish_cmdOf (c : Nat) (st : Status) (cause result index : Nat) (flags : BitVec 4) (s : State) :
    cmdOf (finish c st cause result index flags s) c = { cmdOf s c with
      phase := .done, status := st, cause := cause, result := result, index := index, flags := flags, waiting := false
      waitFor := [] } := by
  unfold finish
  rw [settleFences_done]
  · simp [markDone_cmdOf]
  · simp [markDone_cmdOf]

theorem onlySched.onlyEnd {s t : State} (c : Nat) (h : onlySched s t) : onlyEnd c s t where
  rest := h.rest
  hif := by have a := h.hif; rw [a]
  saf := h.saf
  core := h.core
  fn := h.fn
  ring f r := by have a := h.ring f r; rw [a]
  part := h.part
  cmd d _ _ := by simp only [cmdOf]; rw [h.hif]

theorem onlyEnd.trans {c : Nat} {s t u : State} (h : onlyEnd c s t) (g : onlyEnd c t u) : onlyEnd c s u where
  rest := by have a := h.rest; have b := g.rest; rw [b, a]
  hif := by have a := h.hif; have b := g.hif; rw [b, a]
  saf := by have a := h.saf; have b := g.saf; rw [b, a]
  core n := by have a := h.core n; have b := g.core n; rw [b, a]
  fn f := by have a := h.fn f; have b := g.fn f; rw [b, a]
  ring f r := by have a := h.ring f r; have b := g.ring f r; rw [b, a]
  part p := by have a := h.part p; have b := g.part p; rw [b, a]
  cmd d n x := by
    have a := h.cmd d n x
    have b := g.cmd d n (by rw [a]; exact x)
    rw [b, a]

theorem markDone_end (c : Nat) (st : Status) (cause result index : Nat) (flags : BitVec 4) (s : State) :
    onlyEnd c s (markDone c st cause result index flags s) := by
  have hm : ∀ g : Cmd → Cmd, onlyEnd c s (modCmd c g s) := fun g =>
    ⟨rfl, rfl, rfl, fun _ => rfl, fun _ => rfl, fun _ _ => rfl, fun _ => rfl, fun d n _ => by simp [n]⟩
  have hr : ∀ (f r : Nat) (g : Ring → Ring), (∀ q, g q = { q with failed := (g q).failed, lost := (g q).lost }) → ∀ u : State,
      onlyEnd c u (modRing f r g u) := fun f r g hg u => by
    refine ⟨rfl, rfl, rfl, fun _ => rfl, fun x => ?_, fun x y => ?_, fun _ => rfl, fun _ _ _ => rfl⟩
    · simp only [modRing, modFn_fnOf]; split
      · rename_i e; rw [e]
      · rfl
    · simp only [modRing, modFn_ringOf]; split
      · rename_i e
        simp only [tabGet_tabMod]; split
        · rename_i e'; rw [e, e', hg]; rfl
        · rw [e]; rfl
      · rfl
  have hl : ∀ u : State, onlyEnd c u (if st = .poisonConsumed then lostTo c u else u) := fun u => by
    split
    · exact hr _ _ _ (fun _ => rfl) u
    · exact (onlySched.refl u).onlyEnd c
  unfold markDone
  dsimp only
  split
  · exact (hm _).trans (hl _)
  · exact ((hm _).trans (hl _)).trans (hr _ _ _ (fun _ => rfl) _)

theorem settleFences_end (k c : Nat) (s : State) : onlyEnd c s (settleFences k s) := by
  induction k generalizing s with
  | zero => exact (onlySched.refl s).onlyEnd c
  | succ k ih =>
    unfold settleFences
    split
    · exact (onlySched.refl s).onlyEnd c
    · rename_i d x e
      have hd : fenceFree s (cmdOf s d) = true := by have := List.find?_some e; exact this
      have a := markDone_end d .ok 0 0 0 0 s
      have b : onlyEnd c s (markDone d .ok 0 0 0 0 s) := { a with
        cmd := fun y _ h => by
          refine a.cmd y (fun k => ?_) h
          subst k
          simp [fenceFree] at hd
          simp [hd] at h }
      exact (b.trans ((wakeJob_sched _ _).onlyEnd c)).trans (ih _)

theorem finish_end (c : Nat) (st : Status) (cause result index : Nat) (flags : BitVec 4) (s : State) :
    onlyEnd c s (finish c st cause result index flags s) :=
  (markDone_end c st cause result index flags s).trans (settleFences_end _ c _)

theorem finish_ended (c : Nat) (st : Status) (cause result index : Nat) (flags : BitVec 4) (s : State) :
    ended (finish c st cause result index flags s) c st cause result index := by
  simp [ended, finish_cmdOf]

end Sys2Proof.Machine
end

