-- ==== Sys2Proof/Tests/Slice0.lean ====
section
/-!
SUPPORT. Small tests, each of one step on a small state, and for every statement with hypotheses a witness: a theorem that a concrete
state and operands meet them, clause by clause. Expected values come from the spec's text, named in the docstring.
-/
namespace Sys2Proof.Tests
set_option Elab.async false
open Sys2Proof.Machine

/-! ### States -/

/-- The module running, with the PF ready (R475). -/
def up : State :=
  { State.reset with rst := { State.reset.rst with phase := .running }, sec := { pfReady := true, wipeDone := true } }

/-- A descriptor from its fields: byte position and value (R335). -/
def desc (l : List (Nat × Nat)) : BitVec 512 := BitVec.ofNat 512 (l.foldl (fun n e => n + e.2 * 2 ^ (8 * e.1)) 0)

/-- Partition 0 with cores 0 to 3, one chunk and sixteen semaphores; function 1 enabled, its ring 0 active with its job running, and
command 1 of that job running with descriptor `d`. -/
def job (d : BitVec 512) : State :=
  { up with
    hif := { fn := [(1, { state := .enabled, assigned := true, part := 0
                          rings := [(0, { size := 6, en := true, state := .active, job := .running })] })]
             cmds := [(1, { phase := .running, fn := 1, ring := 0, desc := d })], nextCmd := 2 }
    mem := { ct := [(0, { valid := true, pchunk := 5 }), (1, { valid := true, kv := true, pchunk := 6 })] }
    parts := [(0, { state := .active, cores := 1, coreList := [0, 1, 2, 3], ctBase := 0, ctCount := 2, semBase := 16, semCount := 16
                    semQuota := 8, kvQuota := 64, slotQuota := 4, dircap := 8, saveSlots := 1, running := some (1, 0), fnFirst := 1
                    fnCount := 1, farBase := 0, farSize := 65536, farKey := 1, domain := 7 })] }

/-- The same job's RUN on core 0 (partition core index 0), with `q` in its queue. -/
def onCore (q : List QWord) : State :=
  { job (desc [(0, 0x02)]) with saf := { cores := [(0, { state := .running, queue := q, run := 1 })] } }

/-- A control word from its operation and fields (R81). -/
def word (op : Nat) (l : List (Nat × Nat)) : QWord :=
  { w := BitVec.ofNat 512 (op + l.foldl (fun n e => n + e.2 * 2 ^ e.1) 0), off := 0 }

/-! ### Commands that name nothing are refused by the well-formedness check -/

/-! One term for each check of WellFormed, which the check refuses: unit, function, ring, vector, buffer, offset, width and field
numbers outside their ranges (00_scope.md). -/

def illHost : List Instr :=
  [.registerWrite 1027 0 64 0, .registerWrite 0 0 16 0, .registerWrite 0 4 64 0, .badSizeAccess 0 1 0 4, .badSizeAccess 0 0 0 0,
   .halfReadLow 0 { at_ := 4 }, .halfReadHigh 1026 0, .halfWriteLow 0 1 0, .halfWriteHigh 0 12 0, .readDroppedDb 1026, .readBadAccess 1026,
   .fnEnable 1026, .fnDisable 1026, .flr 1026, .fnShutdownComplete 1026, .ringEnable 0 0 0, .ringEnable 0 16 1, .ringDisable 0 0 1,
   .ringStopComplete 0 16, .sqTailDoorbell 0 16 0, .cqHeadDoorbell 1026 0 0, .hostAccessFailed 0 16 true, .bbRegister 0 256 1,
   .bbRegister 0 0 0, .bbDeregister 0 0 1, .ringSchedWrite 0 16 0, .msixUnmask 0 17, .msixCoalesceTimeout 0 16, .descriptorFetch 0 16,
   .groupEnd 0 16]

def illEngines : List Instr :=
  [.nop 256, .agSet 256, .anchorLoad 256, .tileMac 256, .tileDrain 256, .tileLoad 256, .vec 256, .signal 256, .wait 256, .acquire 256,
   .yieldPoint 256, .jump 256, .endWord 256, .streamFetch 256, .yieldGraceExpired 256, .coreSaveComplete 256,
   .reservedControlWord 256, .cloveScalarInstruction 4096, .cloveCsrWrite 4096, .bvLd 4096, .bvSt 4096, .bvLdm 4096, .bvStm 4096,
   .bvPf 4096, .bvAcq 4096, .bankLoadArrives 4096]

def illCloveRows : List Instr :=
  [.bvAdd 4096, .bvSub 4096, .bvMul 4096, .bvMax 4096, .bvMin 4096, .bvExp2 4096, .bvExp2sub 4096, .bvRcp 4096, .bvMix2 4096,
   .bvCvt 4096, .bvLimit 4096, .bvMaskb 4096, .bvBcast 4096, .bvExt 4096, .bvIns 4096, .bvRmax 4096, .bvEmax 4096, .bvEmaxl 4096,
   .bvMv 4096, .bvDoth 4096, .bvMacl 4096, .bvSumh 4096, .bvAncset 4096, .bvAccrd 4096, .bvAccrdk 4096, .bvAccrda 4096, .bvAccclr 4096,
   .bvYield 4096, .bvEnd 4096, .cloveForcedYield 4096, .cloveProgramAdmit 4096, .cloveImageLoaded 1 8]

def illMemory : List Instr :=
  [.stackOrdinaryAccess 64 0 0 none, .stackOrdinaryAccess 0 4096 0 none, .stackOrdinaryAccess 0 0 (2 ^ 27) none,
   .stackOrdinaryAccess 0 0 8 none, .refreshOperation 4096, .scrubRead 0 4, .eccReadback 0 (2 ^ 27) 0 0, .retireMoveComplete 262144,
   .bankLocalRetire 262144, .bwWindowRollover 8, .eccTestRawWrite 8 1, .eccTestRawWrite 0 0, .eccTestRawRead 8, .farLinkDown 2,
   .farLinkRestored 2 true, .farRetrainTimeout 2, .sliceExpired 64, .jobStopComplete 0 16, .pendingStopTaken 64, .jobResume 0 16,
   .inheritBudgetExpired (.word 1 256)]

def illFabric : List Instr :=
  [.portTrained 8 1 1, .portTrained 0 4 1, .trainingAttemptTimeout 8, .linkSessionEstablished 8 true 2 0,
   .linkSessionEstablished 0 true 4 0, .laneFailure 0 8, .retrainComplete 8 0, .flitSend 8, .flitRxSequenced 0 { typ := 5 },
   .flitRxSequenced 0 { typ := 1, seq := 4096 }, .flitRxIdle 0 { typ := 1 }, .flitRxNak 0 { typ := 0 }, .flitRxMgmt 8 { typ := 6 },
   .replayTimeout 8, .linkKeyUpdate 8, .idleFlitSend 8]

def illPower : List Instr :=
  [.energyInterval 0 [(64, 0)] [], .energyInterval 0 [] [(0, 16, 0)], .sensorSample 186 0, .sensorSelfCheck 186 true,
   .sensorStaleTimeout 186, .stoppedSensorPoll [(186, none)], .powerOn 0 [(186, none)], .idleWake (.source 2048), .evcPendSet 33 0 0,
   .evcPendClr 0 64 0, .evcMaskSet 33 0 0, .evcMaskClr 0 64 0, .evcClaim 33, .evcComplete 33 0, .evcSeqCountRead 33,
   .eventHoldoffExpired 64, .evcStateMismatch 64 0 none, .evcStateMismatch 0 0 (some 33), .faultDetected { kind := 3, unit := 0, detail := 0 },
   .faultDetected { kind := 1, unit := 4096, detail := 0 }, .faultDetected { kind := 0x12, unit := 0x108, detail := 0 }]

def illUnits : List Instr :=
  [.saffronWatchdog 256, .moverWatchdog 32, .stackControllerWatchdog 8, .cloveHangWatchdog 4096, .heartbeatTimeout 32 0,
   .heartbeatTimeout 0 64, .groupRecovery 64, .runtimeReady 64, .teardownComplete 64, .coreAlternationTimeout 64, .referenceClockLoss 4,
   .configurationRequest 1026 none]

def illManagement : List Instr :=
  [.bindFunction { sess := 0, seq := 0 } 1026]

/-- PART_CREATE's 128 bytes from fields: byte position and value (R485). -/
def pblock (l : List (Nat × Nat)) : List Byte := natLe 128 (l.foldl (fun n e => n + e.2 * 2 ^ (8 * e.1)) 0)

/-- Parameters of management requests that their fields cannot hold (R484, R485): such a request is answered INVALID. -/
theorem test_fields_refused :
    PartParams.fieldsOk { block := natLe 127 0 } = false
      ∧ ([.device 65536, .route 0 true 8 false 0, .domain 64 0, .port 0 true 4 false] : List FabricCfg).all (fun a => !a.fieldsOk) = true
      ∧ PartParams.fieldsOk { block := pblock [] } = true := by decide +kernel

/-- R482: a request's header is OP, SEQ, LENGTH and four reserved bytes, little-endian; LENGTH is at most 4,096 and the rest 0. -/
theorem test_request_header :
    requestHeader 5 (natLe 4 7 ++ natLe 4 0x01020304 ++ natLe 4 4096 ++ natLe 4 0) = (7, { sess := 5, seq := 0x01020304, len := 4096 })
      ∧ Req.malformed { sess := 5, seq := 1, len := 4096 } = false ∧ Req.malformed { sess := 5, seq := 1, len := 4097 } = true
      ∧ Req.malformed { sess := 5, seq := 1, rest := 1 } = true := by decide +kernel

/-- R485: bytes of the parameters of PART_CREATE and what they name; a reserved byte other than 0 is seen. -/
theorem test_part_params :
    (let a : PartParams := { block := pblock [(0, 0x30), (8, 2), (12, 4), (16, 64), (18, 0x8064), (30, 1), (31, 9), (32, 3), (36, 7), (40, 3),
          (42, 2), (47, 1), (48, 8)] };
      a.cores = 0x30 ∧ a.chunks = 2 ∧ a.far = 4 ∧ a.sems = 64 ∧ a.share = 100 ∧ a.cap = true ∧ a.saveSlots = 1 ∧ a.ibudget = 9
        ∧ a.stackMode = 3 ∧ a.domain = 7 ∧ a.firstVf = 3 ∧ a.nvf = 2 ∧ a.flags = 1 ∧ a.staging = 8 ∧ a.reservedZero = true)
      ∧ PartParams.reservedZero { block := pblock [(33, 1)] } = false := by decide +kernel

def illSessions : List Instr :=
  [.getVersion 1026, .getCapabilities 1026, .negotiateAlgorithms 1026 [], .getDigests 1026, .getCertificate 0 8 0 0,
   .getMeasurements 0 256 [], .keyExchange 1026 false [], .finish 1026 0 true, .heartbeat 1026 0, .spdmHeartbeatTimeout 1026 0,
   .keyUpdate 1026 0, .endSession 1026 0, .smbusReadByte 256, .smbusReadWord 256, .smbusBlockRead 256]

theorem test_wf_refuses_ill_formed :
    (illHost ++ illEngines ++ illCloveRows ++ illMemory ++ illFabric ++ illPower ++ illUnits ++ illManagement ++ illSessions).all (fun i => !i.wf) = true := by decide +kernel

/-- The highest numbers of each kind that the part has (00_scope.md). -/
theorem test_wf_accepts_the_last_of_each :
    [Instr.readDroppedDb 1025, .ringEnable 1025 15 1, .msixUnmask 0 16, .nop 255, .bvAdd 4095, .scrubRead 4095 (2 ^ 27 - 8),
      .sensorSample 185 0, .evcClaim 32, .moverWatchdog 31, .lifecycle { sess := 0, seq := 0 } 3].all Instr.wf = true := by decide +kernel

/-! ### Witnesses: the whole machine -/

/-- A queue of commands the part has, of which a step takes the first. -/
def queued : State := { up with pending := [.coolantOkAssert, .nop 3] }

theorem witness_QueuesAreWorkedOffInOrder : queueWf queued.pending = true := by decide +kernel

theorem witness_StepRunsTheFrontCommand : State.reset.pending = [] := by decide +kernel

theorem witness_EveryCommandOfThePartRuns : (Instr.nop 3).wf = true ∧ (Instr.nop 256).wf = false := by decide +kernel

theorem witness_FusesOnlyGoForward : isNext (step queued) = true := by decide +kernel

theorem witness_MemoryStaysCanonical :
    Memory.wf { State.reset.mem with dram := [(3, 7)], ct := [(0, { valid := true })] } = true ∧ Memory.wf queued.mem = true
      ∧ isNext (step queued) = true := by decide +kernel

/-! ### Witnesses: registers, functions, rings (10) -/

/-- The PF's base register of ring 0 with its low half held back. -/
def halfHeld : State := { up with hif := { wbuf := [(halfKey 0 0x1000, some 5)] } }

theorem witness_HalvesOfARegister :
    hostUp halfHeld 0 = true ∧ reg64 halfHeld 0 0x1000 = some 0 ∧ reg64 (noteResidency 0 0x1000 halfHeld) 0 0x1000 = some 0
      ∧ halfHeld.pwr.idle = .active ∧ tabGet none halfHeld.hif.wbuf (halfKey 0 0x1000) = some 5 := by
  decide +kernel

theorem witness_RegisterAccesses : hostUp up 1025 = false ∧ hostUp up 1024 = true ∧ badSize up 1024 0 0x1001 4 = true
    ∧ badSize up 0 2 4 2 = true ∧ running up = true ∧ (claimOf up 0x7F).owner = 0
    ∧ (claimOf { up with rst := { up.rst with claims := [(0x42, { func := 0, owner := 2 })] } } 0x42).owner = 2 := by decide +kernel

/-- A function in a state, with ring 0 in a state. -/
def fnIn (f : Nat) (x : FnState) (r : Ring) : State :=
  { up with hif := { fn := [(f, { state := x, assigned := true, rings := [(15, r)] })] } }

theorem witness_FunctionsEnabledAndShutDown :
    (hostUp (fnIn 1024 .disabled {}) 1024 = true ∧ (fnOf (fnIn 1024 .disabled {}) 1024).state = .disabled
        ∧ (fnOf (fnIn 1024 .disabled {}) 1024).assigned = true)
      ∧ (hostUp (fnIn 1 .disabling {}) 1 = true ∧ (fnOf (fnIn 1 .disabling {}) 1).state = .disabling
        ∧ cmdsWhere (fnIn 1 .disabling {}) (fun x => x.fn = 1 && x.phase != .reported && !x.noRecord) = [])
      ∧ (hostUp (fnIn 0 .enabled {}) 0 = true ∧ (fnOf (fnIn 0 .enabled {}) 0).state = .enabled)
      ∧ (hostUp up 3 = true ∧ (fnOf up 3).state = .disabled ∧ (fnOf up 3).assigned = false)
      ∧ (let s : State := { modPart 0 (fun q => { q with state := .active }) (fnIn 1024 .enabled {}) with
            sec := { pfReady := true, sessions := [{ fn := 0, num := 1, owner := true, finished := true }] } };
        let q : Req := { sess := 1, seq := 5 };
        hostUp s 0 = true ∧ s.sec.openReq = none ∧ (s.sec.stored.filter fun r => r.seq = q.seq) = none ∧ ownerSession s q.sess = true
          ∧ s.sec.lc = 2 ∧ s.sec.recovery = false ∧ q.malformed = false ∧ (fnOf s 1024).assigned = true ∧ (fnOf s 1024).part < 64
          ∧ (partOf s (fnOf s 1024).part).state = .active ∧ (fnOf s 1024).state = .enabled) := by decide +kernel

theorem witness_RingStates :
    (hostUp (fnIn 1 .enabled {}) 1 = true ∧ (0x601 : W32).getLsbD 0 = true ∧ (0x1001 : W32).getLsbD 0 = true
        ∧ (ringOf (fnIn 1 .enabled {}) 1 15).state = .off ∧ (fnOf (fnIn 1 .enabled {}) 1).enc = false
        ∧ bits (0x601 : W32).toNat 8 5 = 6 ∧ bits (0x1001 : W32).toNat 8 5 = 16)
      ∧ ((0 : W32).getLsbD 0 = false ∧ (ringOf (fnIn 1 .enabled { state := .active }) 1 15).state = .active
        ∧ (ringOf (fnIn 1 .enabled { state := .error }) 1 15).state = .error)
      ∧ (ringOf (fnIn 1 .enabled { state := .stopping }) 1 15).state = .stopping ∧ inFlight (fnIn 1 .enabled { state := .stopping }) 1 15 = []
      ∧ (fnOf (fnIn 1 .enabled { state := .stopping }) 1).enc = false
      ∧ (ringOf (fnIn 1 .enabled { state := .active }) 1 15).state ≠ .off ∧ (ringOf (fnIn 1 .enabled { state := .stopping }) 1 15).state ≠ .off := by decide +kernel

theorem witness_Doorbells :
    (hostUp (fnIn 1 .enabled { state := .active }) 1 = true ∧ (fnOf (fnIn 1 .enabled { state := .active }) 1).state ≠ .disabling
        ∧ (ringOf (fnIn 1 .enabled { state := .active }) 1 15).state = .active)
      ∧ (hostUp (fnIn 1 .disabling { state := .active }) 1 = true ∧ (fnOf (fnIn 1 .disabling { state := .active }) 1).state = .disabling)
      ∧ hostUp up 1024 = true ∧ (ringOf up 1024 15).state ≠ .active := by decide +kernel

theorem witness_BuffersVectorsAndClass :
    hostUp up 1024 = true ∧ (7 : W32).getLsbD 0 = true ∧ (bufOf up 1024 255).valid = false ∧ (6 : W32).getLsbD 0 = false
      ∧ (ringOf (fnIn 1 .enabled { state := .active, countUsed := 4, sinceMsg := 2 }) 1 15).countUsed ≠ 0
      ∧ (ringOf (fnIn 1 .enabled { state := .active, countUsed := 4, sinceMsg := 2 }) 1 15).sinceMsg ≠ 0
      ∧ (let s : State := { up with hif := { fn := [(1, { rings := [(15, { countUsed := 4, sinceMsg := 2 })], msix := [(15, { masked := false })] })] } };
        (ringOf s 1 15).countUsed ≠ 0 ∧ (ringOf s 1 15).sinceMsg ≠ 0 ∧ (vecOf s 1 15).masked = false)
      ∧ bits (0xC803 : W32).toNat 2 6 = 0 ∧ bits (0xC803 : W32).toNat 19 13 = 0 ∧ bits (0xC803 : W32).toNat 8 8 = 200
      ∧ bits (0x102 : W32).toNat 2 6 = 0 ∧ bits (0x102 : W32).toNat 19 13 = 0 ∧ bits (0x102 : W32).toNat 8 8 = 1 := by decide +kernel

/-! ### Witnesses: semaphores, fences, quotas, frames, adapters (05, 08, 09, 11) -/

/-- Command 1 signals semaphore 3 with 5; one waiter may wait for it, and the semaphore has a value. -/
def signalling (w : List Waiter) (v : W32) : State :=
  let s := job (desc [(0, 0x20), (8, 3), (12, 5)])
  { s with sem := { values := [(19, v)], waiters := w } }

def aWait (v : Nat) : Waiter := { sem := 19, value := v, consume := true, who := .word 1 0, fn := 1, ring := 0 }

theorem witness_SemaphoreSignals :
    (let s := signalling [] 2;
      classReady s 1 0x20 = true ∧ (cmdOf s 1).applied = false ∧ semNum s (homeOf s (cmdOf s 1).fn) (semIndex (cmdOf s 1)) = some 19
        ∧ semAmount (cmdOf s 1) = 5 ∧ semOverQuota s (homeOf s (cmdOf s 1).fn) 19 = false
        ∧ s.sem.waiters.filter (fun w => w.sem = 19) = [])
      ∧ (let s := signalling [aWait 7] 2;
        classReady s 1 0x20 = true ∧ semNum s (homeOf s (cmdOf s 1).fn) (semIndex (cmdOf s 1)) = some 19
          ∧ semOverQuota s (homeOf s (cmdOf s 1).fn) 19 = false ∧ s.sem.waiters.filter (fun w => w.sem = 19) = [aWait 7])
      ∧ (let s := job (desc [(0, 0x20), (8, 16), (12, 5)]);
        classReady s 1 0x20 = true ∧ semNum s (homeOf s (cmdOf s 1).fn) (semIndex (cmdOf s 1)) = none)
      ∧ (let s := { job (desc [(0, 0x20), (8, 15), (12, 5)]) with
            sem := { values := [(16, 1), (17, 1), (18, 1), (19, 1), (20, 1), (21, 1), (22, 1), (23, 1)] } };
        classReady s 1 0x20 = true ∧ semNum s (homeOf s (cmdOf s 1).fn) (semIndex (cmdOf s 1)) = some 31 ∧ semAmount (cmdOf s 1) ≠ 0
          ∧ semOverQuota s (homeOf s (cmdOf s 1).fn) 31 = true) := by decide +kernel

/-- Command 1 waits for semaphore 3 to reach 5, consuming. -/
def waiting (v : W32) : State :=
  let s := job (desc [(0, 0x21), (8, 3), (12, 5), (16, 1)])
  { s with sem := { values := [(19, v)] } }

theorem witness_SemaphoreWaits :
    (let s := waiting 5;
      classReady s 1 0x21 = true ∧ (cmdOf s 1).applied = false ∧ semNum s (homeOf s (cmdOf s 1).fn) (semIndex (cmdOf s 1)) = some 19
        ∧ semAmount (cmdOf s 1) ≤ semVal s 19 ∧ semConsume (cmdOf s 1) = true ∧ (∀ w ∈ s.sem.waiters, w.sem = 19 → w.consume = false))
      ∧ (let s := waiting 4;
        classReady s 1 0x21 = true ∧ semNum s (homeOf s (cmdOf s 1).fn) (semIndex (cmdOf s 1)) = some 19
          ∧ semVal s 19 < semAmount (cmdOf s 1) ∧ semOverQuota s (homeOf s (cmdOf s 1).fn) 19 = false)
      ∧ (let s := { waiting 0 with sem := { values := [(16, 1), (17, 1), (18, 1), (20, 1), (21, 1), (22, 1), (23, 1), (24, 1)] } };
        classReady s 1 0x21 = true ∧ semNum s (homeOf s (cmdOf s 1).fn) (semIndex (cmdOf s 1)) = some 19
          ∧ semVal s 19 < semAmount (cmdOf s 1) ∧ semOverQuota s (homeOf s (cmdOf s 1).fn) 19 = true) := by decide +kernel

/-- A QUOTA_SET of partition 0. -/
def quota (kind v : Nat) : State := job (desc [(0, 0x40), (8, 0), (9, kind), (12, v)])

theorem witness_FencesQuotasAndShares :
    (let s := job (desc [(0, 0x22)]);
      classReady s 1 0x22 = true ∧ fenceTargets s 1 = [])
      ∧ (let t := job (desc [(0, 0x22)]);
        let s := { t with hif := { t.hif with cmds := (0, { phase := .running, fn := 1 }) :: t.hif.cmds } };
        classReady s 1 0x22 = true ∧ fenceTargets s 1 ≠ [])
      ∧ (let s := quota 2 9;
        classReady s 1 0x40 = true ∧ quotaMalformed (quotaKind (cmdOf s 1)) (quotaValue (cmdOf s 1)) = false
          ∧ quotaTarget (cmdOf s 1) < 64 ∧ (partOf s (quotaTarget (cmdOf s 1))).state = .active
          ∧ quotaBeyond s (quotaTarget (cmdOf s 1)) (quotaKind (cmdOf s 1)) (quotaValue (cmdOf s 1)) = false
          ∧ quotaKind (cmdOf s 1) ≠ 3)
      ∧ (let s := quota 2 17;
        classReady s 1 0x40 = true ∧ quotaMalformed (quotaKind (cmdOf s 1)) (quotaValue (cmdOf s 1)) = false
          ∧ quotaBeyond s (quotaTarget (cmdOf s 1)) (quotaKind (cmdOf s 1)) (quotaValue (cmdOf s 1)) = true)
      ∧ (let s := quota 3 1024;
        classReady s 1 0x40 = true ∧ quotaMalformed (quotaKind (cmdOf s 1)) (quotaValue (cmdOf s 1)) = false
          ∧ quotaBeyond s (quotaTarget (cmdOf s 1)) 3 (quotaValue (cmdOf s 1)) = false ∧ quotaKind (cmdOf s 1) = 3)
      ∧ (let s := modCmd 1 (fun x => { x with waiting := true, waitFor := [7] }) (quota 3 1024);
        let t := modCmd 1 (fun x => { x with waiting := true, waitFor := [3, 7] }) (quota 3 1024);
        running s = true ∧ tabGet [] s.mem.bwHeld 7 = [] ∧ (cmdOf s 1).phase = .running ∧ cmdClass (cmdOf s 1) = 0x40
          ∧ (∀ k ∈ (cmdOf s 1).waitFor, k = 7) ∧ (∃ k ∈ (cmdOf t 1).waitFor, k ≠ 7)) := by decide +kernel

/-! ### Accesses that something holds, or nothing (06, 07) -/

/-- An EXCLUSIVE program runs on the bank of a byte of partition 0, its window all of it. -/
def blocking (a : Nat) (s : State) : State :=
  match devLoc s 0 a with
  | none => up
  | some (g, _) => modClove g (fun x => { x with
      state := .running
      progs := [{ cmd := 9, part := 0, fn := 1, loaded := true, started := true, excl := true, wlim := 2 ^ 27 - 1 }] }) s

/-- Nothing stands in the way of accesses of command 1's in partition 0; or programs defer some of them. -/
def clearOf (s : State) (l far : List (Nat × Nat)) : Bool :=
  !devMoving s 0 l && !devCapped s 0 l && !farHeldAt s 0 far && (tabGet none s.mem.asked 2).isNone && decide (devDeferred s 0 l = [])
def blockedOf (s : State) (l far : List (Nat × Nat)) : Bool :=
  !devMoving s 0 l && !devCapped s 0 l && !farHeldAt s 0 far && (tabGet none s.mem.asked 2).isNone && decide (devDeferred s 0 l ≠ [])

theorem clearOf_iff {s : State} {l far : List (Nat × Nat)} : accessClear s 2 0 l far ↔ clearOf s l far = true := by
  simp [accessClear, clearOf, and_assoc]

theorem blockedOf_iff {s : State} {l far : List (Nat × Nat)} : accessDefers s 2 0 l far ↔ blockedOf s l far = true := by
  simp [accessDefers, blockedOf, and_assoc]

/-- Nothing at all holds accesses of command 1's in partition 0: no chunk moves, no budget is spent, no far port retrains, no program runs. -/
def quiet (s : State) : Bool :=
  s.mem.moves.isEmpty && (rangeFrom 0 8).all (fun st => !bwWaits s 0 st) && !(s.mem.farPorts.any fun e => e.2.retraining)
    && (tabGet none s.mem.asked 2).isNone && s.clv.clove.isEmpty

theorem quiet_clear {s : State} (h : quiet s = true) (l far : List (Nat × Nat)) : accessClear s 2 0 l far := by
  simp only [quiet, Bool.and_eq_true, Bool.not_eq_true', List.isEmpty_iff, Option.isNone_iff_eq_none] at h
  obtain ⟨⟨⟨⟨hm, hb⟩, hf⟩, ha⟩, hc⟩ := h
  have hd : ∀ g off n, windowDefers s g off n = false := by
    intro g off n
    simp [windowDefers, cloveOf, hc, tabGet]
  have hcap : devCapped s 0 l = false := by
    simp only [devCapped, List.any_eq_false]
    intro st hst
    have := List.all_eq_true.1 hb st hst
    simp only [Bool.not_eq_true'] at this
    simp [this]
  have hdef : devDeferred s 0 l = [] := by
    rw [devDeferred, List.filterMap_eq_nil_iff]
    intro a _
    split
    · rfl
    · simp [hd]
  simp [accessClear, devMoving, farHeldAt, hm, hf, ha, hcap, hdef]

/-! ### Witnesses: Saffron (03) -/

/-- A RUN with one table entry of zeros at device address 0: stream 0, partition core index 0. -/
def runOf (cores table : Nat) : State := job (desc [(0, 0x02), (8, table), (36, cores)])

theorem witness_RunStartsItsCores :
    (let s := runOf 1 0;
      let v := setReply .nothing s;
      let x := cmdOf s 1;
      hostHeld v x.fn (runHost x) = false ∧ runHost x = false ∧ runReads x = true ∧ accessClear v 2 0 [(runTable x, 16 * runCores x)] []
        ∧ runFault v x = none
        ∧ accessDefers (setReply .nothing (blocking 0 s)) 2 0 [(runTable x, 16 * runCores x)] []
        ∧ runBusy (setReply .nothing (blocking 0 s)) x = false)
      ∧ (let s := runOf 1 0;
      let es := coreEntries (bodyGet s (cmdOf s 1) (runHost (cmdOf s 1)) (runTable (cmdOf s 1)) (16 * runCores (cmdOf s 1))).2.1 1
      classReady s 1 0x02 = true ∧ coresOf s 1 = [] ∧ runFault s (cmdOf s 1) = none ∧ runCores (cmdOf s 1) = 1
        ∧ (∀ e ∈ es, isAside s 0 e.index = false ∧ (indexImage s 0 e.index).core.run = 0
          ∧ (indexImage s 0 e.index).core.state ≠ .deconfigured)
        ∧ (es.map fun e => physCore s 0 e.index).Nodup ∧ homeOf s (cmdOf s 1).fn = 0)
      ∧ (classReady (runOf 0 0) 1 0x02 = true ∧ runCores (cmdOf (runOf 0 0) 1) < 1)
      ∧ (classReady (runOf 257 0) 1 0x02 = true ∧ 256 < runCores (cmdOf (runOf 257 0) 1))
      ∧ (classReady (runOf 256 8) 1 0x02 = true ∧ runCores (cmdOf (runOf 256 8) 1) ≤ 256 ∧ runTable (cmdOf (runOf 256 8) 1) % 16 ≠ 0) := by
  simp only [clearOf_iff, blockedOf_iff]; decide +kernel

/-- Six counts of 1, as AG_SET takes them (R85). -/
def ones : List (Nat × Nat) := [(96, 1), (152, 1), (208, 1), (264, 1), (320, 1), (376, 1)]

def agWord : QWord := word 0x01 ((64, 15) :: (72, 0x2FFFFF) :: ones)
def acquireWord (space : Nat) : QWord := word 0x12 [(64, space), (96, 64), (160, 64)]
def jumpWord (host : Nat) : QWord := word 0x20 [(64, host), (128, 4096), (192, 3)]

theorem witness_PlainControlWords :
    wordReady (onCore [word 0 []]) 0 0x00 (word 0 []) [] ∧ wordReady (onCore [agWord]) 0 0x01 agWord []
      ∧ (wordReady (onCore [acquireWord 0]) 0 0x12 (acquireWord 0) [] ∧ cw (acquireWord 0).w.toNat 64 2 = 0)
      ∧ (wordReady (onCore [acquireWord 1]) 0 0x12 (acquireWord 1) [] ∧ cw (acquireWord 1).w.toNat 64 2 = 1)
      ∧ (wordReady (onCore [word 0x13 []]) 0 0x13 (word 0x13 []) [] ∧ (coreOf (onCore [word 0x13 []]) 0).suspendReq = false)
      ∧ wordReady (onCore [jumpWord 1]) 0 0x20 (jumpWord 1) [] := by unfold wordReady; decide +kernel

/-- Core 0 with generators for F32 (0), I8 (1) and E16 (2), and a datapath word in its queue. -/
def onPath (q : QWord) : State :=
  let g := fun f => ({ loaded := true, fmt := f, counts := [1, 1, 1, 1, 1, 1], strides := [0, 0, 0, 0, 0, 0], idx := [0, 0, 0, 0, 0, 0] } : Ag)
  let s := onCore [q]
  { s with saf := { s.saf with
      cores := [(0, { coreOf s 0 with ags := [(0, g .f32), (1, g .i8), (2, g .e16), (3, { g .f32 with base := 0x2FFFFF })] })] } }

def ancWord : QWord := word 0x02 [(80, 2), (85, 31)]
def macWord : QWord := word 0x03 [(72, 9), (76, 9), (88, 1), (93, 1), (98, 31), (103, 31), (108, 31), (113, 31)]
def drainWord : QWord := word 0x04 [(80, 0), (85, 31)]
def loadWord : QWord := word 0x05 [(80, 0), (85, 31)]
def vecWord (ag : Nat) : QWord := word 0x08 [(64, 0x01), (88, ag), (93, 31), (98, 0), (103, 0), (108, 31)]

def vecTwice (ag : Nat) : QWord := word 0x08 [(8, 1), (64, 0x01), (88, ag), (93, 31), (98, 0), (103, 0), (108, 31)]

theorem witness_DatapathWords :
    wordReady (onPath ancWord) 0 0x02 ancWord [] ∧ wordReady (onPath macWord) 0 0x03 macWord []
      ∧ wordReady (onPath drainWord) 0 0x04 drainWord [] ∧ wordReady (onPath loadWord) 0 0x05 loadWord []
      ∧ (wordReady (onPath (vecWord 0)) 0 0x08 (vecWord 0) [] ∧ (runSteps (vecStep (vecWord 0).w.toNat
          (wordRnd (coreOf (onPath (vecWord 0)) 0) (vecWord 0).w.toNat)) 1 0
          { core := coreOf (onPath (vecWord 0)) 0, spad := spadOf (onPath (vecWord 0)) 0 }).2.2 = none)
      ∧ (let s := onPath (vecTwice 0);
        let t := modCore 0 (fun x => { x with wstep := 1 }) s;
        wordReady t 0 0x08 (vecTwice 0) [] ∧ cwRepeat (vecTwice 0).w.toNat - (coreOf t 0).wstep = 1
          ∧ (runSteps (vecStep (vecTwice 0).w.toNat (wordRnd (coreOf t 0) (vecTwice 0).w.toNat)) 1 1
            { core := coreOf t 0, spad := spadOf t 0 }).2.2 = none)
      ∧ wordReady (onPath (vecWord 3)) 0 0x08 (vecWord 3) []
      ∧ (let z := runSteps (vecStep (vecWord 3).w.toNat (wordRnd (coreOf (onPath (vecWord 3)) 0) (vecWord 3).w.toNat)) 1 0
            { core := coreOf (onPath (vecWord 3)) 0, spad := spadOf (onPath (vecWord 3)) 0 };
        z.2.2.isSome = true ∧ z.1.core.run = 1 ∧ z.1.core.pidx = 0) := by unfold wordReady; decide +kernel

/-- SIGNAL or WAIT of semaphore 3 with value 5. -/
def semWord (op consume : Nat) : QWord := word op [(64, 3), (80, 5), (112, consume)]

/-- Core 0 at such a word, with the semaphore at `v` and `k` of its RUN's operations applied by an earlier run. -/
def atSem (q : QWord) (v : W32) (k : Nat) : State :=
  let s := onCore [q]
  { s with sem := { values := [(19, v)] }, hif := { s.hif with cmds := [(1, { cmdOf s 1 with semDone := [(0, k)] })] } }

theorem witness_SignalAndWaitWords :
    (wordReady (atSem (semWord 0x10 0) 2 0) 0 0x10 (semWord 0x10 0) [] ∧ semReplayed (atSem (semWord 0x10 0) 2 0) 0 = false
        ∧ semNum (atSem (semWord 0x10 0) 2 0) 0 (cw (semWord 0x10 0).w.toNat 64 16) = some 19
        ∧ (atSem (semWord 0x10 0) 2 0).sem.waiters.filter (fun w => w.sem = 19) = [])
      ∧ (wordReady (atSem (semWord 0x10 0) 2 1) 0 0x10 (semWord 0x10 0) [] ∧ semReplayed (atSem (semWord 0x10 0) 2 1) 0 = true)
      ∧ (wordReady (atSem (semWord 0x11 1) 2 1) 0 0x11 (semWord 0x11 1) [] ∧ semReplayed (atSem (semWord 0x11 1) 2 1) 0 = true)
      ∧ (wordReady (atSem (semWord 0x11 1) 5 0) 0 0x11 (semWord 0x11 1) [] ∧ semReplayed (atSem (semWord 0x11 1) 5 0) 0 = false
        ∧ cw (semWord 0x11 1).w.toNat 80 32 ≤ semVal (atSem (semWord 0x11 1) 5 0) 19
        ∧ ∀ w ∈ (atSem (semWord 0x11 1) 5 0).sem.waiters, w.sem = 19 → w.consume = false)
      ∧ (wordReady (atSem (semWord 0x11 0) 4 0) 0 0x11 (semWord 0x11 0) [] ∧ semReplayed (atSem (semWord 0x11 0) 4 0) 0 = false
        ∧ semVal (atSem (semWord 0x11 0) 4 0) 19 < cw (semWord 0x11 0).w.toNat 80 32) := by unfold wordReady; decide +kernel

/-- The same RUN on a second core, or not. -/
def ending (second : Bool) : State :=
  let s := onCore [word 0x3F []]
  if second then { s with saf := { cores := [(0, coreOf s 0), (1, { state := .running, run := 1, pidx := 1 })] } } else s

theorem witness_EndOfARun :
    (wordReady (ending false) 0 0x3F (word 0x3F []) [] ∧ coresOf (ending false) 1 = [0]
        ∧ (partOf (ending false) (homeOf (ending false) (cmdOf (ending false) 1).fn)).swapped.filter (fun e => e.2.core.run = 1) = [])
      ∧ (wordReady (ending true) 0 0x3F (word 0x3F []) [] ∧ 1 ∈ coresOf (ending true) 1 ∧ (coreOf (ending true) 1).done = false) := by
  unfold wordReady; decide +kernel

/-- Core 0 with `left` words of its stream, at address `a`, still to be fetched. -/
def fetching (a left : Nat) : State :=
  let s := onCore []
  { s with saf := { cores := [(0, { coreOf s 0 with fetchAddr := a, fetchLeft := left })] } }

theorem witness_StreamFetchAndReservedWords :
    (let s := onCore [word 0x06 []];
      running s = true ∧ coreLive (coreOf s 0) = true ∧ coreIssues s 0 = true
        ∧ opCodes.contains ((word 0x06 []).w.toNat % 256) = false)
      ∧ (coreLive (coreOf (fetching 0 0) 0) = true ∧ (coreOf (fetching 0 0) 0).fetchLeft = 0 ∧ (coreOf (fetching 0 0) 0).queue = [])
      ∧ (coreLive (coreOf (fetching 32 1) 0) = true ∧ (coreOf (fetching 32 1) 0).fetchLeft ≠ 0
        ∧ (coreOf (fetching 32 1) 0).fetchAddr % 64 ≠ 0)
      ∧ (let s := fetching 0 2;
        let x := coreOf s 0;
        coreLive x = true ∧ hostHeld s (cmdOf s x.run).fn x.fetchHost = false ∧ x.fetchLeft ≠ 0 ∧ x.fetchAddr % 64 = 0 ∧ x.queue.length + Nat.min 16 x.fetchLeft ≤ 64 ∧ x.fetchHost = false
          ∧ accessClear (setReply .nothing s) 1 x.part [(x.fetchAddr, 128)] []
          ∧ ∀ i, i < 2 → (fetchWordAt s x i).1 = true ∧ (fetchWordAt s x i).2.2 = false)
      ∧ (let s := devPoisonSector 0 64 (fetching 0 2);
        let x := coreOf s 0;
        accessClear (setReply .nothing s) 1 x.part [(x.fetchAddr, 128)] [] ∧ (fetchWordAt s x 0).1 = true ∧ (fetchWordAt s x 0).2.2 = false
          ∧ (fetchWordAt s x 1).1 = true ∧ (fetchWordAt s x 1).2.2 = true) := by
  unfold accessClear; decide +kernel

/-- Core 0 asked to suspend, at a YIELD_POINT. -/
def asked (x : Core → Core) : State :=
  let s := onCore [word 0x13 []]
  { s with saf := { cores := [(0, x { coreOf s 0 with suspendReq := true, grace := 5 })] } }

theorem witness_CoreStopsAndBudgets :
    (wordReady (asked id) 0 0x13 (word 0x13 []) [] ∧ (coreOf (asked id) 0).suspendReq = true)
      ∧ (wordReady (asked fun x => { x with suspendReq := false }) 0 0x13 (word 0x13 []) []
        ∧ (coreOf (asked fun x => { x with suspendReq := false }) 0).suspendReq = false)
      ∧ (let s := asked fun x => { x with graceRun := true };
        coreLive (coreOf s 0) = true ∧ (coreOf s 0).suspendReq = true ∧ (coreOf s 0).graceRun = true ∧ (coreOf s 0).keepWait = false
          ∧ (coreOf s 0).queue = [word 0x13 []] ∧ (wordSteps (coreOf s 0) (word 0x13 []).w.toNat).isNone = true)
      ∧ (let w : Waiter := { sem := 19, value := 5, consume := true, who := .word 1 0, fn := 1, ring := 0, kept := true };
        let t := asked fun x => { x with graceRun := true, keepWait := true, held := true, queue := [semWord 0x11 1] };
        let s := { t with sem := { waiters := [w] } };
        (coreOf s 0).keepWait = true ∧ (∀ v ∈ s.sem.waiters, semVal s v.sem < v.value)
          ∧ (wordSteps (coreOf s 0) (semWord 0x11 1).w.toNat).isNone = true)
      ∧ (let s := onPath (vecTwice 0);
        let x := { coreOf s 0 with suspendReq := true, graceRun := true };
        coreLive x = true ∧ x.held = false ∧ x.queue = [vecTwice 0] ∧ (wordSteps x (vecTwice 0).w.toNat).map (·.1) = some 2
          ∧ decodeFault s x (vecTwice 0).w.toNat = none
          ∧ ∀ j, j < 2 → let z := runSteps (vecStep (vecTwice 0).w.toNat (wordRnd x (vecTwice 0).w.toNat)) j 0 { core := x, spad := spadOf s 0 }
            coreLive z.1.core = true ∧ z.1.core.held = false ∧ z.1.core.run = x.run ∧ z.1.core.pidx = x.pidx ∧ z.1.core.queue = x.queue
              ∧ z.2.2 = none)
      ∧ ((coreOf (asked fun x => { x with state := .suspended, saving := true }) 0).state = .suspended
        ∧ (coreOf (asked fun x => { x with state := .suspended, saving := true }) 0).saving = true)
      ∧ (let w : Waiter := { sem := 19, value := 5, consume := true, who := .command 1, fn := 1, ring := 0 };
        let s := { waiting 2 with sem := { waiters := [w], holders := [{ sem := 19, fn := 2, ring := 0 }] } };
        let u := modRing 1 0 (fun q => { q with cls := 1 }) s;
        running u = true ∧ u.sem.waiters.find? (fun v => v.who = .command 1) = some w ∧ causesInheritance u w = true)
      ∧ (let w : Waiter := { sem := 19, value := 5, consume := true, who := .command 1, fn := 1, ring := 0 };
        let v : Waiter := { sem := 19, value := 7, consume := true, who := .word 9 0, fn := 2, ring := 0 };
        let s := { waiting 2 with sem := { waiters := [w, v], holders := [{ sem := 19, fn := 2, ring := 0 }] } };
        (s.sem.waiters.erase w).all (fun v => decide (semVal s v.sem < v.value)) = true) := by
  unfold wordReady; decide +kernel

/-! ### Witnesses: Clove engines (07) -/

/-- Clove 5 running program `q` of BANK_RUN 1. -/
def onClove (q : CloveProg) : State :=
  let s := job (desc [(0, 0x03)])
  { s with clv := { clove := [(5, { state := .running, progs := [{ q with cmd := 1, loaded := true, started := true }] })] } }

/-- A program with the instruction `w` at pc 0. -/
def prog (w : Nat) : CloveProg := { imem := (rangeFrom 0 4).map fun i => (i, BitVec.ofNat 8 (w / 2 ^ (8 * i))), wlim := 2 ^ 20 - 1 }

/-- A bank-vector instruction: major opcode, funct7, rd, rs1, rs2 (R226). -/
def bv (op f7 rd a b : Nat) : Nat := encR op 0 f7 rd a b

def theProg (w : Nat) : CloveProg := { prog w with cmd := 1, loaded := true, started := true }

/-- The result is a value with the property, or the error named. -/
def okWith {α : Type} (r : Except Flt α) (p : α → Bool) : Bool := match r with | .ok a => p a | .error _ => false
def errWith {α : Type} (r : Except Flt α) (e : Flt) : Bool := match r with | .ok _ => false | .error x => decide (x = e)

def readyB (s : State) (g : Nat) (q : CloveProg) (w len : Nat) : Bool :=
  decide (activeProg s g = some q) && !q.stalled && okWith (instrAt q) (fun e => e == (w, len)) && !(cloveOf s g).forcedPending

theorem ready_iff {s : State} {g : Nat} {q : CloveProg} {w len : Nat} : cloveReady s g q w len ↔ readyB s g q w len = true := by
  simp only [cloveReady, readyB, okWith, Bool.and_eq_true, decide_eq_true_eq, Bool.not_eq_true', and_assoc]
  cases instrAt q <;> simp

/-- Each row's first two clauses: the word of the row at the pc, its program ready. -/
theorem witness_CloveInstructionsRetire :
    cloveReady (onClove (prog (bv 0x2B 0x12 1 2 0))) 5 (theProg (bv 0x2B 0x12 1 2 0)) (bv 0x2B 0x12 1 2 0) 4
      ∧ bvRow 0x2B 0x12 (bv 0x2B 0x12 1 2 0) = true
      ∧ okWith (mvExec (bv 0x2B 0x12 1 2 0) { theProg (bv 0x2B 0x12 1 2 0) with pc := 4 }) (fun q => !q.stalled) = true
      ∧ (pureRows 5).length = 32 := by simp only [ready_iff]; decide +kernel

theorem witness_CloveInstructionsFault :
    cloveReady (onClove (prog (bv 0x2B 0x00 1 2 3))) 5 (theProg (bv 0x2B 0x00 1 2 3)) (bv 0x2B 0x00 1 2 3) 4
      ∧ bvRow 0x2B 0x00 (bv 0x2B 0x00 1 2 3) = true
      ∧ errWith (bvTwo arithFmts true laneOnly (fun _ => valAdd) (bv 0x2B 0x00 1 2 3) { theProg (bv 0x2B 0x00 1 2 3) with pc := 4, bvfmt := 1 })
        (.formatFault, 0x210) = true := by simp only [ready_iff]; decide +kernel

theorem witness_ElementwiseLanes :
    okWith (bvTwo arithFmts true laneOnly (fun _ => valAdd) (bv 0x2B 0x00 1 2 3) (theProg 0)) (fun _ => true) = true
      ∧ okWith (laneVals (fmtD (theProg 0)) (vv (theProg 0) 2)) (fun l => l.length = 16) = true
      ∧ okWith (laneVals (fmtD (theProg 0)) (vv (theProg 0) 3)) (fun l => l.length = 16) = true := by decide +kernel

theorem witness_CloveScalarInstructions :
    (cloveReady (onClove (prog (encI 0x13 0 1 0 7))) 5 (theProg (encI 0x13 0 1 0 7)) (encI 0x13 0 1 0 7) 4
        ∧ isBv (encI 0x13 0 1 0 7) = false ∧ isCsrWrite (encI 0x13 0 1 0 7) = false
        ∧ okWith (scalarExec 5 (encI 0x13 0 1 0 7) 4 { theProg (encI 0x13 0 1 0 7) with pc := 4 } (onClove (prog (encI 0x13 0 1 0 7))))
          (fun z => !z.2.stalled && xv z.2 1 = 7) = true)
      ∧ (cloveReady (onClove (prog 0x7F)) 5 (theProg 0x7F) 0x7F 4 ∧ isBv 0x7F = false ∧ isCsrWrite 0x7F = false
        ∧ errWith (scalarExec 5 0x7F 4 { theProg 0x7F with pc := 4 } (onClove (prog 0x7F))) (.descFault, 0x204) = true)
      ∧ (let q := { theProg 0 with x := [(2, 0x10004)] };
        xp q 2 = false ∧ ((tabGet 0 q.x 2 : W32) + BitVec.signExtend 32 (BitVec.ofNat 12 0xFFC)).toNat % 4 = 0
          ∧ inDmem ((tabGet 0 q.x 2 : W32) + BitVec.signExtend 32 (BitVec.ofNat 12 0xFFC)).toNat 4 = true)
      ∧ (let q := { theProg 0 with x := [(2, 0x10004)], xPoison := [(2, true)] };
        xp q 2 = true ∧ accessFault q ((tabGet 0 q.x 2 : W32) + BitVec.signExtend 32 (BitVec.ofNat 12 0xFFC)).toNat 4 = none
          ∧ accessFault q ((tabGet 0 q.x 2 : W32) + BitVec.signExtend 32 (BitVec.ofNat 12 0xFFB)).toNat 4 = some (.alignFault, 0x220)) := by
  simp only [ready_iff]; decide +kernel

/-- BV.LD v1, (x2) and BV.ST v1, (x2), with x2 = `a` (R226). -/
def bvLdWord : Nat := 0x0B + 1 * 2 ^ 7 + 0 * 2 ^ 12 + 2 * 2 ^ 15
def bvStWord : Nat := 0x0B + 1 * 2 ^ 12 + 2 * 2 ^ 15 + 1 * 2 ^ 20

def ldProg (w a : Nat) (q : CloveProg → CloveProg) : CloveProg := q { theProg w with x := [(2, BitVec.ofNat 32 a)] }

/-- Clove 5 running exactly `q`. -/
def running5 (q : CloveProg) : State :=
  let s := job (desc [(0, 0x03)])
  { s with clv := { clove := [(5, { state := .running, progs := [q] })] } }

theorem witness_BankLoadsAndStores :
    (let q := ldProg bvLdWord 128 fun q => bufPut 2 7 0 q;
      cloveReady (running5 q) 5 q bvLdWord 4 ∧ memRow 0 bvLdWord = true ∧ (sectorsOf 128 (moveBytes bvLdWord)).all (bufHas q) = true
        ∧ okWith (moveAddr bvLdWord { q with pc := 4 } (bvF2 bvLdWord) (windowOk q)) (fun a => a = 128) = true)
      ∧ (let q := ldProg bvLdWord 128 id;
        cloveReady (running5 q) 5 q bvLdWord 4 ∧ (sectorsOf 128 (moveBytes bvLdWord)).all (bufHas q) = false
          ∧ okWith (moveAddr bvLdWord { q with pc := 4 } (bvF2 bvLdWord) (windowOk q)) (fun a => a = 128) = true)
      ∧ (let q := ldProg bvStWord 128 id;
        cloveReady (running5 q) 5 q bvStWord 4 ∧ memRow 1 bvStWord = true
          ∧ okWith (moveAddr bvStWord { q with pc := 4 } (bvF0 bvStWord) (windowOk q)) (fun a => a = 128) = true)
      ∧ (let q := ldProg bvLdWord 32 id;
        cloveReady (running5 q) 5 q bvLdWord 4 ∧ bvFunct7 bvLdWord ≤ 3 ∧ bvF2 bvLdWord = 0 ∧ xp q 2 = false ∧ xv q 2 % moveAlign bvLdWord ≠ 0)
      ∧ (let q := ldProg bvStWord (2 ^ 20) id;
        cloveReady (running5 q) 5 q bvStWord 4 ∧ bvFunct7 bvStWord ≤ 3 ∧ bvF0 bvStWord = 0 ∧ xp q 2 = false
          ∧ xv q 2 % moveAlign bvStWord = 0 ∧ windowOk q (xv q 2) (moveBytes bvStWord) = false)
      ∧ (let q := ldProg bvLdWord 128 fun q => { q with outstanding := [9] };
        activeProg (running5 q) 5 = some q ∧ q.outstanding = [9] ∧ (cloveOf (running5 q) 5).forcedPending = false ∧ q.stalled = false)
      ∧ (let q := ldProg bvLdWord 128 fun q => { q with outstanding := [2], stalled := true };
        activeProg (running5 q) 5 = some q ∧ q.outstanding = [2] ∧ q.stalled = true
          ∧ (sectorsOf (xv q (bvF1 bvLdWord)) (moveBytes bvLdWord)).all (fun j => !([].contains j)) = true) := by
  simp only [ready_iff]; decide +kernel

/-! ### Witnesses: stacks and far memory (06) -/

theorem witness_EccCorrectsOneAndFindsTwo : (0x8000000000000001 : Nat) < 2 ^ 64 ∧ (0 : Nat) ≠ 63 := by decide

/-- An EXCLUSIVE program on Clove 5 whose window holds offset 128. -/
def exclusive5 : State := running5 { theProg 0 with excl := true }

theorem witness_OrdinaryStackAccesses :
    (running up = true ∧ chunkMoving up (chunkAt up 4095 (2 ^ 27 - 64)) = false ∧ bwWaits up 63 7 = false ∧ windowDefers up 4095 (2 ^ 27 - 64) 64 = false
        ∧ (∀ i, i < 8 → (readWord up 4095 (2 ^ 27 - 64 + 8 * i)).2 = .clean))
      ∧ (let s : State := { up with mem := { up.mem with moves := [⟨0, 0, 9⟩] } };
        chunkMoving s (chunkAt s 0 0) = true)
      ∧ (let s : State := { up with mem := { up.mem with shareNow := [(67, 1 + 2 ^ 16)], bwUsed := [(67, 31)] } };
        chunkMoving s (chunkAt s 512 0) = false ∧ bwWaits s 3 1 = true)
      ∧ (running exclusive5 = true ∧ bwWaits exclusive5 0 0 = false ∧ chunkMoving exclusive5 (chunkAt exclusive5 5 128) = false ∧ windowDefers exclusive5 5 128 64 = true
        ∧ (tabGet [] exclusive5.mem.deferred 5).length < 64) := by decide +kernel

/-- One flipped bit in the word at offset 8 of bank 3. -/
def flipped : State := { up with mem := { up.mem with dram := [(3 * 2 ^ 27 + 8, 1)] } }

theorem witness_ScrubbingAndRefresh :
    (running up = true ∧ chunkMoving up (chunkAt up 3 8) = false ∧ windowDefers up 3 8 8 = false ∧ (readWord up 3 8).2 = .clean)
      ∧ (chunkMoving flipped (chunkAt flipped 3 8) = false ∧ windowDefers flipped 3 8 8 = false ∧ testWindow flipped 3 8 = false
        ∧ readWord flipped 3 8 = (0, .corrected)) := by decide +kernel

theorem witness_ReadbacksAndRawAccesses :
    (let s : State := { up with mem := { up.mem with rewrites := [⟨3, 8, true⟩, ⟨3, 16, false⟩] } };
      s.mem.rewrites.find? (fun r => r.g = 3 && r.off = 8) = some ⟨3, 8, true⟩ ∧ eccSyndrome (0 : W64).toNat (eccCheck 0) = 0
        ∧ s.mem.rewrites.find? (fun r => r.g = 3 && r.off = 16) = some ⟨3, 16, false⟩
        ∧ eccSyndrome (0 : W64).toNat (eccCheck 0 ^^^ 0x7F) = 0x7F)
      ∧ (let t := job 0;
        let s := { t with mem := { t.mem with ecc := [(0, { en := true, pchunk := 5, part := 0 })] } };
        let w := testWord (eccOf s 0);
        let u := modClove w.1 (fun x => { x with state := .running, progs := [{ theProg 0 with excl := true, wlim := 2 ^ 27 - 1 }] }) s;
        rawReady s 0 = true ∧ (1 : W32).getLsbD 0 = true ∧ (1 : W32).getLsbD 1 = false ∧ windowDefers s w.1 w.2 8 = false
          ∧ rawReady u 0 = true ∧ testWord (eccOf u 0) = w ∧ windowDefers u w.1 w.2 8 = true) := by decide +kernel

theorem witness_RetirementAndFarLinks :
    (let s : State := { up with mem := { up.mem with moves := [⟨7, 0, 9⟩], localRetire := [8] } };
      s.mem.moves.find? (fun m => m.chunk = 7) = some ⟨7, 0, 9⟩ ∧ s.mem.localRetire.contains 8 = true ∧ windowOver s 8 = false
        ∧ mapOf s 8 = none)
      ∧ (let t := job 0;
        let s := modPart 0 (fun q => { q with models := [(3, { state := .ready, localPlace := [1] })] }) { t with mem := { t.mem with localRetire := [6] } };
        (mapOf s 6).map (·.1) = some 1 ∧ entryOwner s 1 = some 0 ∧ (partOf s 0).ctBase = 0
          ∧ ((partOf s 0).models.filter fun m => m.2.state = .ready && m.2.localPlace.contains 1).map (·.1) = [3])
      ∧ (let s : State := { up with mem := { up.mem with farPorts := [(1, { link := true, present := true, width := 2 })] } };
        farUp s 1 = true ∧ (farPortOf s 1).retraining = false)
      ∧ (let s : State := { up with mem := { up.mem with farPorts := [(0, { link := true, present := true, retraining := true })] } };
        (farPortOf s 0).retraining = true ∧ s.rst.phase ≠ .hibernate) := by decide +kernel

/-! ### Witnesses: power, temperature, reset (13, 16, 17) -/

/-- The module in another phase, or with other power, thermal and reset state. -/
def inPhase (ph : ModulePhase) : State := { up with rst := { up.rst with phase := ph } }

theorem witness_PowerMeasurementAndCap :
    controllerRuns up = true ∧ controllerRuns (inPhase .booting) = true ∧ hostUp up 0 = true
      ∧ Instr.wf (.energyInterval 100001 [(0, 60)] [(1, 0, 40)]) = true ∧ energyOk (job 0) ((999 + 99001) / 1000) [(0, 60)] [(1, 0, 40)] = true
      ∧ (let v : W32 := 0x10000 + 1600;
        bits v.toNat 11 5 = 0 ∧ bits v.toNat 17 15 = 0 ∧ 600 ≤ bits v.toNat 0 11 ∧ bits v.toNat 0 11 ≤ 1600 ∧ v.getLsbD 16 = true)
      ∧ (bits (0x10000 + 1499 : W32).toNat 0 11 < 1500 ∧ (0x10000 + 1499 : W32).getLsbD 16 = true) ∧ bits (599 : W32).toNat 0 11 < 600
      ∧ 1600 < bits (1601 : W32).toNat 0 11 ∧ bits (0x800 + 600 : W32).toNat 11 5 ≠ 0 := by decide +kernel

/-- The module with power state `w`. -/
def powered (w : Power) : State := { up with pwr := w }

/-- A sensor of the board (class 0) reading hot, or clear again. -/
def hotSensor (t : BitVec 16) (l : Option Nat) : State :=
  { up with thm := { sensors := [(0, { valid := true, temp := t })] }, pwr := { tl := l } }

theorem witness_ClocksAndThrottling :
    controllerRuns (powered { fixed := true, tl := none }) = true
      ∧ (let x : Power := { fixed := true, tl := some 700, avg1 := 700 }; x.fixed = true ∧ x.tl = some 700 ∧ x.avg1.toNat ≤ 700)
      ∧ (let x : Power := { freq0 := 120, freq1 := 120, avg1 := 2000 };
        x.fixed = false ∧ effLimit { powered x with pwr := x } < x.avg1.toNat)
      ∧ (let x : Power := { freq0 := 600, freq1 := 120, avg1 := 2000 };
        effLimit { powered x with pwr := x } < x.avg1.toNat ∧ 120 ≤ x.freq0 ∧ x.freq0 ≠ 120)
      ∧ (let x : Power := { avg1 := 1425 };
        x.avg1.toNat ≤ effLimit (powered x) ∧ 100 * x.avg1.toNat ≤ 95 * effLimit (powered x))
      ∧ (let x : Power := { avg1 := 1426 };
        x.avg1.toNat ≤ effLimit (powered x) ∧ 95 * effLimit (powered x) < 100 * x.avg1.toNat)
      ∧ (readsHot (hotSensor 1680 none) = true ∧ (hotSensor 1680 none).pwr.tl = none)
      ∧ (readsHot (hotSensor 1680 (some 700)) = true ∧ (hotSensor 1680 (some 700)).pwr.tl = some 700)
      ∧ (readsClear (hotSensor 1599 (some 700)) = true ∧ 700 + 75 < (hotSensor 1599 (some 700)).pwr.cap.toNat)
      ∧ (readsClear (hotSensor 1599 (some 1425)) = true ∧ (hotSensor 1599 (some 1425)).pwr.cap.toNat ≤ 1425 + 75) := by
  decide +kernel

/-- A coolant sensor, and one of another class. -/
theorem witness_SensorsAndTheirStops :
    (sensing up = true ∧ sensorClass 184 = 5 ∧ sensorClass 0 ≠ 5 ∧ readingStops 0 (BitVec.ofNat 16 400).toInt = false
        ∧ sensorNext 0 (sensorOld (sensorOf up 0)) (BitVec.ofNat 16 400).toInt ≠ .broken)
      ∧ (readingStops 0 (BitVec.ofNat 16 1888).toInt = true ∧ readingBroken (BitVec.ofNat 16 1888).toInt = false)
      ∧ (readingBroken (BitVec.ofNat 16 0x8000).toInt = true ∧ sensorNext 0 (sensorOld (sensorOf up 0)) (BitVec.ofNat 16 0x8000).toInt = .broken)
      ∧ (let s : State := { up with thm := { sensors := [(0, { checkFailed := true, state := .broken })] } };
        sensing s = true ∧ sensorNext 0 (sensorOld (sensorOf s 0)) (BitVec.ofNat 16 400).toInt = .broken
          ∧ readingStops 0 (BitVec.ofNat 16 400).toInt = false)
      ∧ up.rst.phase ≠ .off ∧ (inPhase .stopped).rst.phase = .stopped := by decide +kernel

theorem witness_CoolantInputAndRestart :
    (let s : State := { up with thm := { up.thm with coolantOk := false } };
      sensing s = true ∧ s.thm.coolantOk = false ∧ s.rst.poweringUp = false)
      ∧ ((inPhase .waitCoolant).rst.phase = .waitCoolant ∧ (inPhase .waitCoolant).thm.coolantOk = true)
      ∧ (let s : State := { inPhase .stopped with thm := { sdCause := 1, restarts := 2, sensors := (rangeFrom 0 186).map fun n => (n, { valid := true, temp := 10 }) } };
        s.rst.phase = .stopped ∧ coolEnough s = true ∧ s.thm.coolantOk = true ∧ s.thm.sdCause ≠ 4 ∧ s.thm.restarts < 3)
      ∧ up.rst.phase ≠ .off ∧ (inPhase .off).rst.phase = .off := by decide +kernel

theorem witness_PowerUpResetAndBoot :
    (inPhase .off).rst.phase = .off ∧ (inPhase .off).thm.sdCause ≠ 4 ∧ ({ inPhase .off with thm := { sdCause := 4 } } : State).thm.sdCause = 4
      ∧ hostLink (inPhase .waitCoolant) 1025 = true ∧ hostLink { up with rst := { up.rst with perst := true } } 3 = false
      ∧ (inPhase .rails).rst.phase = .rails
      ∧ ((inPhase .inReset).rst.phase = .inReset ∧ (inPhase .inReset).rst.railsGood = true ∧ (inPhase .inReset).rst.perst = false)
      ∧ up.rst.phase = .running ∧ State.reset.rst.phase = .booting ∧ hostUp up 0 = true
      ∧ (let s : State := { up with mem := { up.mem with farPorts := [(1, { link := true, present := true })] } };
        (farPortOf s 1).present = true ∧ far1Host s = false) := by decide +kernel

theorem witness_IdleStates :
    (let s : State := { up with pwr := { latency := 100 } };
      running s = true ∧ deviceIdle s = true ∧ idleCode s.pwr.idle + 1 ≤ permitted s ∧ idleCode s.pwr.idle < 3)
      ∧ (let s : State := { up with pwr := { latency := 0xFFFFFFFF, idle := .idle3, d3hot := true } };
        deviceIdle s = true ∧ s.pwr.idle = .idle3 ∧ permitted s = 4)
      ∧ (let s : State := { up with pwr := { latency := 100, idle := .idle2 } };
        WakeCause.doorbell.wf = true ∧ s.pwr.idle ≠ .active ∧ wakeAllowed s .doorbell = true)
      ∧ (let s : State := { up with rst := { up.rst with claims := [(2, { func := 3, owner := 3 })] } };
        controllerRuns s = true ∧ (claimOf s 2).func = 3 ∧ (claimOf s 2).owner ≠ 0) := by decide +kernel

/-! ### Witnesses: the event controller, faults and recovery (14) -/

/-- Sources 40 and 41 pending, unmasked and routed to target 3. -/
def offered (ins : Option Nat) : State :=
  { up with evc := { groups := [(1, { pend := 0x300, mask := 0 }), (5, { held := true, mask := 0xFFFFFFFF })]
                     route := [(40, 3), (41, 3)], targets := [(3, { insvc := ins })] } }

theorem witness_EventController :
    running (offered none) = true ∧ (groupOf (offered none) 5).held = true ∧ offer up 3 = none ∧ offer (offered none) 3 = some 40
      ∧ (targetOf (offered (some 40)) 3).insvc = some (bits (40 : W32).toNat 0 11)
      ∧ (targetOf (offered (some 40)) 3).insvc ≠ some (bits (41 : W32).toNat 0 11)
      ∧ (let s := { offered (some 41) with evc := { (offered (some 41)).evc with groups := [(1, { pend := 0x100, mask := 0 })] } };
        (targetOf s 3).insvc = some 41 ∧ deliverable s 40 = true ∧ routeOf s 40 = 3
          ∧ (rangeFrom 0 40).all (fun j => routeOf s j != 3 || !deliverable s j) = true) := by decide +kernel

/-- The partition of `job` with application core 9, and a Clove of it waiting for its forced yield. -/
def faulty : State :=
  let s := onCore [word 0 []]
  { modPart 0 (fun q => { q with acs := [9] }) s with
    clv := { clove := [(5, { state := .running, progs := [{ theProg 0 with part := 0, fn := 1 }], forcedPending := true })] }
    kvt := { frames := [(4, { owner := 0, state := .held, refcnt := 1, vf := 1 })] } }

theorem witness_FaultsAreRecordedAndRecoveryIsDue :
    running faulty = true ∧ coreLive (coreOf faulty 0) = true ∧ coreParts faulty 0 = [0]
      ∧ (let s := { faulty with hif := { faulty.hif with cmds := [(1, { cmdOf faulty 1 with desc := desc [(0, 0x01)] })] } };
        moverParts s 0 = [0] ∧ (moverOf s 0).state ≠ .deconfigured)
      ∧ anyParts faulty = [0] ∧ (cloveOf faulty 5).forcedPending = true ∧ cloveParts faulty 5 = [0]
      ∧ ((partOf faulty 0).state = .active ∧ (partOf faulty 0).acs.contains 9 = true)
      ∧ FaultInfo.wf { kind := 0x10, unit := 255, detail := 3 } = true ∧ FaultInfo.wf { kind := 0x11, unit := 0, detail := 3 } = true
      ∧ FaultInfo.wf { kind := 0x13, unit := 5, detail := 0 } = true ∧ FaultInfo.wf { kind := 0x14, unit := 4095, detail := 4 } = true
      ∧ FaultInfo.wf { kind := 0x12, unit := 31, detail := 0 } = true ∧ FaultInfo.wf { kind := 0x12, unit := 0x107, detail := 0 } = true
      ∧ FaultInfo.wf { kind := 0x22, unit := 9, detail := 0 } = true := by decide +kernel

theorem witness_MemoryFaultsAndMaskedFaults : running up = true ∧ testWindow up 4095 (2 ^ 27 - 8) = false
    ∧ (let s : State := { up with mem := { up.mem with planeMode := 0 } };
      planeLocal s (chunkAt s 0 0) = false)
    ∧ (let k := chunkAt up 4095 8;
      planeLocal up k = true ∧ k / 4096 < 32 ∧ (match mapOf up k with | none => true | some e => e.2.kv) = true)
    ∧ (let s : State := { up with mem := { up.mem with planeMode := 2 ^ 63 } };
      planeLocal s (chunkAt s 4095 (2 ^ 27 - 8)) = true ∧ 32 ≤ chunkAt s 4095 (2 ^ 27 - 8) / 4096) := by decide +kernel

/-- The job's recovery is due after its `n`-th run. -/
def recovering (n : Nat) : State := modRing 1 0 (fun q => { q with recover := true, faulted := true, runs := n }) (onCore [word 0 []])

theorem witness_GroupsRecover :
    (let s := recovering 3;
      running s = true ∧ (jobsOf s 0).filter (fun j => (jobRing s j).recover) = [(1, 0)]
        ∧ (s.kvt.frames.filter fun e => e.2.retired && e.2.state = .held && e.2.owner = 0) = []
        ∧ (jobRing s (1, 0)).faulted = true ∧ (jobRing s (1, 0)).lost = []
        ∧ groupLost s (groupCmds s 1 0 (jobRing s (1, 0)).curGroup) = false ∧ (jobRing s (1, 0)).runs < 4
        ∧ ∀ c ∈ groupCmds s 1 0 (jobRing s (1, 0)).curGroup, (cmdOf s c).overLong = false ∧ keepsEnd (cmdOf s c) = false)
      ∧ (4 ≤ (jobRing (recovering 4) (1, 0)).runs ∧ groupLost (recovering 4) (groupCmds (recovering 4) 1 0 0) = false
        ∧ groupCmds (recovering 4) 1 0 0 = [1] ∧ (cmdOf (recovering 4) 1).phase ≠ .reported)
      ∧ (let e : Nat × CoreImage := (1, { core := { state := .running, run := 1, pidx := 1 } });
        let s := modPart 0 (fun q => { q with coreList := [0], orphans := [(1, 0)], swapped := [e] }) (onCore [word 0 []]);
        running s = true ∧ (partOf s 0).swapped = [e] ∧ swappable s 0 e = some 0
          ∧ (partOf s 0).swapped.find? (fun e => (swappable s 0 e).isSome) = some e ∧ e.2.core.held = false
          ∧ ∀ w ∈ s.sem.waiters, w.who ≠ WaitName.word (coreOf s 0).run (coreOf s 0).pidx) := by decide +kernel

/-! ### Witnesses: Stawa (12) -/

/-- The module with device ID 1, device 2 behind port 4, and port 0 as given. -/
def ported (x : Port) : State :=
  { up with stw := { devId := 1, devValid := true, routes := [(2, { valid := true, port := 4 })]
                     ports := [(0, x), (4, { state := .active, enc := true, txFree := fullCredits })] } }

def flit1 : Flit := { seq := 3, typ := 4, pay := natLe 2 2 ++ natLe 2 1 }

theorem witness_PortsTrainKeyAndFail :
    ((portOf (ported { state := .training, rxFail := 0x10 }) 0).state = .training ∧ lanesFree 1 0x10 = true ∧ (ported {}).thm.refMissing.contains 3 = false
        ∧ running (ported {}) = true)
      ∧ (portOf (ported { state := .training, attempts := 1 }) 0).attempts < 2
      ∧ (portOf (ported { state := .training, attempts := 2 }) 0).state = .training
      ∧ ((portOf (ported { state := .keying, rxWidth := 3 }) 0).state = .keying ∧ lanesFree 3 (portOf (ported { state := .keying, rxWidth := 3 }) 0).rxFail = true)
      ∧ (let x := portOf (ported { state := .keying, rxWidth := 3, rxFail := 1 }) 0;
        x.state = .keying ∧ lanesFree x.rxWidth x.rxFail = false ∧ bothHalves x.rxFail = false ∧ bothHalves x.txFail = false ∧ x.recentRetrains < 2)
      ∧ ((portOf (ported { state := .active, enc := true }) 0).state = .active ∧ (portOf (ported { state := .active, enc := true }) 0).enc = true)
      ∧ (let x := portOf (ported { state := .active, rxFail := 1 }) 0;
        x.state = .active ∧ bothHalves (x.rxFail ||| BitVec.ofNat 8 (2 ^ 3)) = false ∧ bothHalves x.txFail = false ∧ x.recentRetrains < 2
          ∧ bothHalves (x.rxFail ||| BitVec.ofNat 8 (2 ^ 4)) = true)
      ∧ (let x := portOf (ported { state := .retrain, rxFail := 1 }) 0;
        x.state = .retrain ∧ bothHalves x.rxFail = false ∧ bothHalves (x.txFail ||| 2) = false ∧ bothHalves (x.txFail ||| 0x12) = true) := by
  decide +kernel

/-- A port with one flit to send, or one kept that has been sent `k` times. -/
def sending : Port := { state := .active, txFree := fullCredits, queue := [(0, flit1)] }
def kept (k : Nat) : Port := { state := .active, txSeq := 4, replay := [{ flit := flit1, sent := k }] }

theorem witness_FlitsAreSentAndSentAgain :
    ((portOf (ported sending) 0).state = .active ∧ nextSend (portOf (ported sending) 0) = some (0, flit1))
      ∧ (nextSend (portOf (ported (kept 1)) 0) = none ∧ keyFresh (portOf (ported (kept 1)) 0) = true)
      ∧ (let x := portOf (ported { sending with txSeq := 2 ^ 40 + 5, keyedSeq := 5 }) 0; 2 ^ 40 ≤ x.txSeq - x.keyedSeq)
      ∧ (let x := portOf (ported { sending with idleTx := 2 ^ 40 }) 0; 2 ^ 40 ≤ x.idleTx - x.keyedIdle + 1)
      ∧ ((portOf (ported (kept 7)) 0).replay ≠ [] ∧ ∀ e ∈ (portOf (ported (kept 7)) 0).replay, e.sent < 8)
      ∧ (∃ e ∈ (portOf (ported (kept 8)) 0).replay, 8 ≤ e.sent) := by decide +kernel

/-- A flit sealed as its receiver expects it. -/
def sealFor (x : Port) (y : Flit) : Flit :=
  { y with trailer := flitTag x.keyRx x.saltRx (if y.typ = 0 ∨ y.typ = 5 then idleCount y.count else seqCount x.rxSeq y.seq) y }

theorem authentic_sealFor (x : Port) (y : Flit) : authentic x (sealFor x y) = true := by
  have h : ∀ k s n z, flitTag k s n { y with trailer := z } = flitTag k s n y := fun _ _ _ _ => rfl
  simp only [authentic, sealFor, h]
  rw [Bool.or_eq_true]
  exact .inl (decide_eq_true rfl)

/-- Port 0 expecting SEQ 3, and a SINGLE flit for device 1, 2 or 5. -/
def expecting (nak : Bool) : State := ported { state := .active, rxSeq := 3, nakSent := nak, idleRx := 6 }
def single (dst : Nat) : Flit := { seq := 3, typ := 4, plen := 4, pay := natLe 2 dst ++ natLe 2 2 }

theorem witness_FlitsAreReceived :
    (running (expecting true) = true ∧ (portOf (expecting true) 0).state = .active ∧ (single 1).wf = true
        ∧ (portOf (expecting true) 0).nakSent = true ∧ ({ single 1 with fec := false } : Flit).fec = false)
      ∧ ((portOf (expecting false) 0).nakSent = false ∧ keyFresh (portOf (expecting false) 0) = true)
      ∧ ((single 1).fec = true ∧ (single 1).seq = (portOf (expecting false) 0).rxSeq % 4096 ∧ packetWay (expecting false) 0 (single 1) = 0
        ∧ tabGet [] (portOf (expecting false) 0).partial_ (single 1).vc = [])
      ∧ packetWay (expecting false) 0 (single 5) = 1
      ∧ packetWay (expecting false) 0 (single 2) = 2 + 4 * 4 + 0
      ∧ Flit.wf { typ := 0, count := 7 } = true
      ∧ (let x := portOf (ported (kept 1)) 0;
        (x.replay.findIdx? fun e => e.flit.seq = 3) = some 0 ∧ ∀ e ∈ x.replay, e.sent < 8)
      ∧ Flit.wf { typ := 6 } = true ∧ portUp (portOf (ported { state := .training }) 0) = true := by decide +kernel

/-- The authentic flits of these clauses. -/
theorem witness_FlitsAreReceived_sealed :
    authentic (portOf (expecting false) 0) (sealFor (portOf (expecting false) 0) (single 1)) = true
      ∧ countNewer (portOf (expecting false) 0) (sealFor (portOf (expecting false) 0) { typ := 0, count := 7 }) = true
      ∧ countNewer (portOf (expecting false) 0) (sealFor (portOf (expecting false) 0) { typ := 0, count := 6 }) = false
      ∧ countNewer (portOf (ported (kept 1)) 0) (sealFor (portOf (ported (kept 1)) 0) { typ := 5, ack := 3, count := 1 }) = true
      ∧ countNewer (portOf (ported (kept 1)) 0) (sealFor (portOf (ported (kept 1)) 0) { typ := 5, count := 0 }) = false := by
  simp only [countNewer, authentic_sealFor]; decide +kernel

/-- A tensor descriptor of rank 1: address, extent, format code and SPACE (R125). -/
def tensor (addr ext fmt space : Nat) : List Byte :=
  natLe 128 (addr + ext * 2 ^ 256 + fmt * 2 ^ 416 + space * 2 ^ 422 + 2 ^ 428 + 2 ^ 448)

/-- The job's fabric command with a descriptor of 16 elements at device address 0 (FABRIC_SEND to device 2, FABRIC_RECV from it). -/
def fabric (cls : Nat) (st : Fabric) : State :=
  let s := devPut 0 0 (tensor 4096 16 0 2) (job (desc [(0, cls), (8, 0), (16, 2), (18, 9)]))
  { s with stw := st }

def linked : Fabric := (ported {}).stw

/-- A FABRIC_RECV under way, matched to message 5 of device 2 or to none, and a message being sent as command 1. -/
def receiving (msg : Option (Nat × Nat)) (got : List Nat) (k : Packet) (total : Nat := 64) : State :=
  let y : RecvCtx := { cmd := 1, part := 0, domain := 7, source := 2, channel := 9, desc := tensor 4096 16 0 2, msg := msg, total := total
                       got := got }
  fabric 0x31 { linked with recvs := [y], inbox := [k] }

def aSend (sent acked : Nat) : SendCtx :=
  { cmd := 1, part := 0, domain := 7, dest := 2, channel := 9, mseq := 5, data := [1, 2, 3], granted := 1, sends := [(0, sent)]
    acked := if acked = 0 then [] else [0] }

def sent1 (y : SendCtx) (k : Packet) : State := fabric 0x30 { linked with sends := [y], inbox := [k] }

def packet (kind : Nat) (data : List Byte) : Packet := { kind := kind, dst := 1, src := 2, domain := 7, channel := 9, mseq := 5, data := data, nbytes := data.length }

/-- A BARRIER under way as command 1, this device at ring position `pos` of devices 1 and 2. -/
def barrier (passes pos : Nat) : State :=
  fabric 0x32 { linked with
    colls := [{ cmd := 1, part := 0, domain := 7, collId := 9, op := 3, ndev := 2, pos := pos, ids := if pos = 0 then [1, 2] else [2, 1]
                passes := passes, begun := true }]
    inbox := [packet 5 []] }

/-- An ALL_REDUCE of 65,536 elements under way as command 1, at position 0 of devices 1 and 2, with a COLL packet of its step's record. -/
def collecting (k : Packet) (x : CollCtx → CollCtx) : State :=
  let y : CollCtx := { cmd := 1, part := 0, domain := 7, collId := 9, op := 0, ndev := 2, pos := 0, ids := [1, 2], head := [4, 5], ecount := 65536
                       begun := true }
  fabric 0x32 { linked with colls := [x y], inbox := [k] }

theorem witness_PacketsOfMessages :
    (running (receiving none [] (packet 1 [])) = true ∧ (receiving none [] (packet 1 [])).stw.inbox = [packet 1 []]
        ∧ domainPart (receiving none [] (packet 1 [])) 8 = none)
      ∧ (let k := packet 1 (natLe 8 16 ++ [0, 0] ++ natLe 6 0 ++ natLe 8 64);
        let s := receiving none [] k;
        s.stw.inbox = [k] ∧ domainPart s k.domain = some 0 ∧ ∃ y ∈ s.stw.recvs, y.closed = 0 ∧ y.msg = none ∧ y.part = 0 ∧ y.wants k = true
          ∧ leNat ((k.data.drop 0).take 8) = product (tdescOf y.desc).ext ∧ leNat ((k.data.drop 8).take 1) = fmtCode (tdescOf y.desc).fmt
          ∧ leNat ((k.data.drop 9).take 1) = (tdescOf y.desc).sblk)
      ∧ (let k := packet 1 (natLe 8 17);
        ∃ y ∈ (receiving none [] k).stw.recvs, leNat ((k.data.drop 0).take 8) ≠ product (tdescOf y.desc).ext)
      ∧ (let k := { packet 1 [] with src := 3 };
        ∀ y ∈ (receiving none [] k).stw.recvs, y.closed = 0 → y.msg = none → y.wants k = false)
      ∧ (let k := { packet 0 [1, 2] with offset := 65536 };
        let s := receiving (some (2, 5)) [0] k 196608;
        domainPart s k.domain = some 0 ∧ (chosenMover s).isSome = true
          ∧ ∃ y ∈ s.stw.recvs, (y.closed != 2 && y.part = 0 && y.takes k) = true ∧ y.got.length + 1 ≠ packetCount y.total ∧ y.got.contains k.offset = false
            ∧ y.cmd = 1 ∧ accessClear (setReply .nothing s) 2 0 ((recvOut y k).bytes.map fun e => (e.1, 1)) [])
      ∧ (let k := packet 0 [1, 2];
        let s := receiving (some (2, 5)) [] k 64;
        ∃ y ∈ s.stw.recvs, (y.closed != 2 && y.part = 0 && y.takes k) = true ∧ y.closed = 0 ∧ y.got.contains k.offset = false
          ∧ y.got.length + 1 = packetCount y.total ∧ y.poison = [] ∧ k.poison = [] ∧ (recvOut y k).bytes.length = 2
          ∧ accessClear (setReply .nothing s) 2 0 ((recvOut y k).bytes.map fun e => (e.1, 1)) []
          ∧ chosenMover { s with mov := (rangeFrom 0 32).map fun m => (m, { state := .deconfigured }) } = none)
      ∧ (let k := packet 0 [1, 2];
        ∃ y ∈ (receiving (some (2, 5)) [0] k 196608).stw.recvs, y.takes k = true ∧ y.got.contains k.offset = true
          ∧ y.got.length ≠ packetCount y.total)
      ∧ (let k := packet 2 (natLe 4 1 ++ natLe 4 1);
        let s := sent1 (aSend 1 0) k;
        domainPart s k.domain = some 0 ∧ ackTarget s 0 k = some (aSend 1 0) ∧ phaseDone (cmdOf s 1).phase = false ∧ (aSend 1 0).coll = false ∧ ((aSend 1 0).ackedBy k).complete = true ∧ (aSend 1 0).poison = [])
      ∧ (let k := packet 3 [];
        let s := sent1 (aSend 1 0) k;
        domainPart s k.domain = some 0 ∧ s.stw.sends.find? (fun x => x.answeredBy 0 k && !(phaseDone (cmdOf s x.cmd).phase)) = some (aSend 1 0))
      ∧ (let k := packet 6 [];
        let s := receiving (some (2, 5)) [] k;
        k.nbytes = 0 ∧ domainPart s k.domain = some 0 ∧ (∃ y ∈ s.stw.recvs, y.closed = 0 ∧ y.part = 0 ∧ y.takes k = true)
          ∧ phaseDone (cmdOf s 1).phase = false)
 := by simp only [clearOf_iff]; decide +kernel

theorem witness_PacketsOfMessages_collectives :
    (let k := packet 4 [];
        let s := receiving none [] k;
        s.stw.colls = [] ∧ collOld s k = false ∧ domainPart s k.domain = some 0
          ∧ collOld { s with stw := { s.stw with collLast := [(collKey k, 6)] } } k = true)
      ∧ (let k := { packet 4 [9] with offset := 2 };
        let s := collecting k fun x => { x with msg := some 5 };
        domainPart s k.domain = some 0 ∧ (collFor (fun x => x.part = 0 && x.takes k) k s).any (fun x => decide (x.msg = some k.mseq ∧ k.src = x.prev
          ∧ x.got.contains k.offset = false ∧ x.head.length ≤ k.offset ∧ x.got.length + 1 ≠ packetCount x.inLen ∧ cmdRuns s x.cmd = true)) = true)
      ∧ (let k := packet 4 [4, 5];
        let s := collecting k id;
        domainPart s k.domain = some 0 ∧ (collFor (fun x => x.part = 0 && x.takes k) k s).any (fun x => decide (x.msg = none ∧ k.offset = 0
          ∧ cmdRuns s x.cmd = true ∧ collOld s k = false ∧ k.data = x.head ∧ k.src = x.prev ∧ x.op ≠ 3 ∧ x.got.length ≠ packetCount x.inLen)) = true)
      ∧ (let k := { packet 4 [4, 5] with src := 3 };
        (collFor (fun x => x.part = 0 && x.takes k) k (collecting k id)).any (fun x => decide (k.src ≠ x.prev)) = true)
      ∧ domainPart (receiving none [] (packet 4 [])) 8 = none
      ∧ (let s := barrier 0 1;
        cmdRuns s 1 = true ∧ domainPart s 7 = some 0 ∧ (s.stw.colls.find? fun x => x.part = 0 && x.takes (packet 5 []) && x.op = 3).isSome = true
          ∧ accessClear (setReply .nothing s) 2 0 [(collWork (cmdOf s 1), workLen (cmdOf s 1))] []
          ∧ ∀ x ∈ s.stw.colls, x.passes = 0 ∧ (usableRoute s x.next).isSome = true ∧ usableRoute { s with stw := { s.stw with ports := [] } } x.next = none)
      ∧ (let s := barrier 1 0;
        cmdRuns s 1 = true ∧ domainPart s 7 = some 0 ∧ (s.stw.colls.find? fun x => x.part = 0 && x.takes (packet 5 []) && x.op = 3).isSome = true
          ∧ ∀ x ∈ s.stw.colls, x.passes = 1 ∧ x.pos = 0 ∧ x.poison = false) := by
  simp only [clearOf_iff]; decide +kernel

/-- A BARRIER of two devices whose ring table, at device address 0, names devices 1 and 2. -/
def collective (ndev : Nat) : State :=
  let s := devPut 0 0 (natLe 2 1 ++ natLe 2 2) (job (desc [(0, 0x32), (16, 128), (32, 65536), (60, ndev), (62, 3)]))
  { s with stw := linked }

/-- A FABRIC_SEND whose descriptor has been read: its tensor is the one of `fabric`, its data free, deferred. -/
def sendBegins (s : State) : Bool × Bool × Bool :=
  let x := cmdOf s 1
  let v := setReply .nothing s
  match sendTensor v x with
  | .inl _ => (false, false, false)
  | .inr d =>
    let w := modCmd 1 (fun x => { x with fetched := some { src := (bodyGet v x false 0 128).2.1 } }) (bodyNote x false 0 128 v)
    (product d.ext = 16, clearOf w (tensorTouches 2 d) (tensorTouches 3 d), blockedOf w (tensorTouches 2 d) (tensorTouches 3 d))

theorem witness_FabricCommandsBegin :
    (let s := fabric 0x30 linked;
      let x := cmdOf s 1;
      classReady s 1 0x30 = true ∧ x.applied = false ∧ x.fetched = none ∧ sendFault (setReply .nothing s) x = none
        ∧ accessClear (setReply .nothing s) 2 0 (bodyTouch false 0 128) [] ∧ sendBegins s = (true, true, false) ∧ (∀ y ∈ s.stw.sends, y.cmd ≠ 1)
        ∧ usableRoute s (field x 16 2) = some 4)
      ∧ (let s := blocking 4096 (fabric 0x30 linked);
        sendBegins s = (true, false, true) ∧ accessClear (setReply .nothing s) 2 0 (bodyTouch false 0 128) [])
      ∧ (let s := blocking 0 (fabric 0x30 linked);
        classReady s 1 0x30 = true ∧ accessDefers (setReply .nothing s) 2 0 (bodyTouch false 0 128) [])
      ∧ (let d := tensor 4096 16 0 2;
        let s := modCmd 1 (fun x => { x with fetched := some { src := d } }) (fabric 0x30 linked);
        classReady s 1 0x30 = true ∧ (chosenMover s).isSome = true
          ∧ accessClear (setReply .nothing s) 2 0 (tensorTouches 2 (tdescOf d)) (tensorTouches 3 (tdescOf d))
          ∧ chosenMover { s with mov := (rangeFrom 0 32).map fun m => (m, { state := .deconfigured }) } = none)
      ∧ (let s := fabric 0x30 {};
        classReady s 1 0x30 = true ∧ sendFault (setReply .nothing s) (cmdOf s 1) = some (.boundsFault, 0x830))
 := by
  simp only [clearOf_iff, blockedOf_iff]; decide +kernel

theorem witness_FabricCommandsBegin_others :
      (let s := fabric 0x31 linked;
        classReady s 1 0x31 = true ∧ (cmdOf s 1).applied = false ∧ (∀ y ∈ s.stw.recvs, y.cmd ≠ 1) ∧ recvFault (setReply .nothing s) (cmdOf s 1) = none
          ∧ accessClear (setReply .nothing s) 2 0 (bodyTouch false 0 128) [] ∧ s.stw.waiting = [])
      ∧ (let s := modPart 0 (fun q => { q with domain := 0 }) (fabric 0x31 linked);
        classReady s 1 0x31 = true ∧ recvFault (setReply .nothing s) (cmdOf s 1) = some (.boundsFault, 0x831))
      ∧ (let s := collective 2;
        let x := cmdOf s 1;
        let u := bodyNote x false (collRing x) (2 * collN x) (setReply .nothing s);
        let y := collCtx 1 x u;
        let w := { u with stw := { u.stw with colls := u.stw.colls ++ [y] } };
        classReady s 1 0x32 = true ∧ firstFault (collFaults (setReply .nothing s) x) = none ∧ (∀ y ∈ s.stw.colls, y.cmd ≠ 1)
          ∧ accessClear (setReply .nothing s) 2 0 (tableTouches x) [] ∧ collOp x = 3 ∧ y.part = 0
          ∧ accessClear w 2 0 (beginTouches 2 y x) (beginTouches 3 y x) ∧ (usableRoute s y.next).isSome = true)
      ∧ (let s := collective 1;
        classReady s 1 0x32 = true ∧ firstFault (collFaults (setReply .nothing s) (cmdOf s 1)) = some (.descFault, 0x801)
          ∧ accessClear (setReply .nothing s) 2 0 (tableTouches (cmdOf s 1)) [])
      ∧ (let s := sent1 (aSend 3 0) (packet 2 []);
        unackedSend s 1 0 = some (aSend 3 0) ∧ (usableRoute s 2).isSome = true ∧ (chosenMover s).isSome = true ∧ ((aSend 3 0).admitted.find? fun e => e.1 = 0).isSome = true)
      ∧ (let s := sent1 (aSend 4 0) (packet 2 []);
        unackedSend s 1 0 = some (aSend 4 0) ∧ 4 ≤ tabGet 0 (aSend 4 0).sends 0)
      ∧ (let s := sent1 { aSend 1 1 with data := [] } (packet 2 []);
        (cmdOf s 1).phase = .running ∧ cmdClass (cmdOf s 1) = 0x30 ∧ cmdRuns s 1 = true ∧ (∀ y ∈ s.stw.sends, y.holdsGrant = false)
          ∧ engineClean s (1, 0) = false ∧ (partOf s 0).images.length < (partOf s 0).saveSlots)
      ∧ (3 < [1, 2, 3, 4].length ∧ (∀ d ∈ [1, 2, 3, 4], d < 65536) ∧ [2, 0, 3, 1].Perm (List.range 4)) := by
  simp only [clearOf_iff]; decide +kernel

/-! ### Witnesses: movers, STEP, BANK_RUN (04, 07, 09) -/

/-- A COPY of 16 F32 elements from device address 4096 to 8192, with its descriptors at 0 and 128; the source may lie elsewhere, the destination be malformed. -/
def copyingFrom (src ext : Nat) : State :=
  devPut 0 0 (tensor src 16 0 2 ++ tensor 8192 ext 0 2) (job (desc [(0, 0x01), (8, 0), (16, 128)]))

def copying (ext : Nat) : State := copyingFrom 4096 ext

/-- The same COPY in its first stage: checks passed, nothing held; its accesses free, or deferred. -/
def copyStarts (s : State) : Bool × Bool × Bool × Bool :=
  let x := cmdOf s 1
  let v := setReply .nothing s
  (decide (x.fetched = none) && !(hostHeld v x.fn (bit (field x 40 1) 3 || bit (field x 40 1) 4))
    , (copyCheck v x (tdescRead v x false 0 0) (tdescRead v x false 128 1)).isNone
    , clearOf v (copyStartTouches v x) [], blockedOf v (copyStartTouches v x) [])

/-- The COPY with its descriptors fetched, and in its second stage: nothing held; its accesses free, or deferred; its plan faultless. -/
def fetchedCopy (s : State) : State :=
  let x := cmdOf s 1
  let y : Fetched := { src := (bodyGet s x false 0 128).2.1, dst := (bodyGet s x false 128 128).2.1, sidx := [], didx := [] }
  modCmd 1 (fun x => { x with fetched := some y }) s
def copyRuns (s : State) : Option (Bool × Bool × Bool × Bool × Bool × Nat) :=
  let x := cmdOf s 1
  let v := setReply .nothing s
  x.fetched.map fun y =>
    let src := tdescOf y.src
    let dst := tdescOf y.dst
    let l := copyTouches 2 src dst y.sidx y.didx
    let far := copyTouches 3 src dst y.sidx y.didx
    let rd : Rnd := { mode := roundMode x, seed := field x 24 8, stream := field x 32 8 }
    let plan := copyPlan v x rd src dst y.sidx y.didx
    let items := copyItems src dst y.sidx y.didx
    let out := outSummaries dst (items ++ paddingItems dst (product (copyShape src dst))) plan.out
    (!(hostHeld v x.fn (src.space = 4 || dst.space = 4)), clearOf v l far, blockedOf v l far, plan.fault.isSome
      , (deadWrite v x dst items out).isNone && plan.poisonAt.isNone && !(hostRefused v x dst (outRuns v x dst out)), out.bytes.length)

def moverless : State :=
  let t := fetchedCopy (copying 16)
  { t with mov := (rangeFrom 0 32).map fun m => (m, { state := .deconfigured }) }

theorem witness_CopiesComplete :
    (classReady (copying 16) 1 0x01 = true ∧ copyStarts (copying 16) = (true, true, true, false))
      ∧ (classReady (copying 17) 1 0x01 = true ∧ chosenMover (copying 17) = some 0 ∧ copyStarts (copying 17) = (true, false, true, false))
      ∧ copyStarts (blocking 0 (copying 16)) = (true, true, false, true) := by decide +kernel

theorem witness_CopiesComplete_ready : (classReady (fetchedCopy (copying 16)) 1 0x01 = true ∧ chosenMover (fetchedCopy (copying 16)) = some 0)
    ∧ (classReady moverless 1 0x01 = true ∧ chosenMover moverless = none) := by decide +kernel

theorem witness_CopiesComplete_fetched : copyRuns (fetchedCopy (copying 16)) = some (true, true, false, false, true, 64) := by
  decide +kernel

theorem witness_CopiesComplete_deferred :
    copyRuns (blocking 8192 (fetchedCopy (copying 16))) = some (true, false, true, false, true, 64) := by decide +kernel

theorem witness_CopiesComplete_faulted :
    (copyRuns (fetchedCopy (copyingFrom (2 ^ 40) 16))).map (fun z => (z.2.1, z.2.2.2.1)) = some (true, true) := by decide +kernel

/-- A STEP of one request of one token: header at 0 (R293), entry at 64, record of a sequence at 4,096 (R262); `nreq` requests asked
for, the return area at host address 0. Its K/V chunk is chunk 0, whose first frames function 1 held last. -/
def stepping (nreq : Nat) : State :=
  let t := job (desc [(0, 0x04), (1, 2), (8, 0), (16, 0), (40, 512)])
  let t := { t with kvt := { t.kvt with frames := [(0, { vf := 1 }), (1, { vf := 1 })] }
                    mem := { t.mem with ct := [(0, { valid := true, pchunk := 5 }), (1, { valid := true, kv := true })] } }
  let s := devPut 0 0 (natLe 64 (0x50455453 + nreq * 2 ^ 32 + 2 ^ 64) ++ natLe 64 (4096 + 0xFFFFFFFF * 2 ^ 64 + 2 ^ 96)
      ++ natLe 64 0)
    (devPut 0 4096 (natLe 64 (2 ^ 64 + 2 ^ 96 + 2 ^ 112 + 64 * 2 ^ 128 + 2 ^ 144) ++ natLe 4 (2 ^ 32 - 1) ++ natLe 8 (2 ^ 64 - 1)) t)
  modPart 0 (fun q => { q with models := [(0, { state := .ready, layers := 1, qheads := 1, kvheads := 1, dim := 64, kvfmt := 1
                                                vocab := 16, hidden := 64 })] })
    (modFn 1 (fun y => { y with bufs := [(0, { len := 8192, sealAt := 65536, valid := true, access := 3 })] }) s)

/-- The checks, accesses and admission of a STEP: checks passed, accesses free, accesses deferred, fault of admission, rows admitted. -/
def stepBegins (s : State) : Bool × Bool × Bool × Bool × Bool :=
  let x := cmdOf s 1
  let u := setReply .nothing s
  match (stepCheck u x).ctx with
  | none => (false, false, false, false, false)
  | some k =>
    let l := (stepCheck u x).works
    let a := admitAll k l u
    (decide (stepWorst (stepCheck u x).faults = none), clearOf u (stepTouches k l u) (stepFar k l u), blockedOf u (stepTouches k l u) (stepFar k l u), a.fault.isSome
      , a.out.any ran)

/-- A STEP with its admission done: its admission, layers, admitted requests, batch and state. -/
def stepOf (s : State) : Option (Admit × LayerCtx × List StepWork × Batch × State) :=
  let x := cmdOf s 1
  let u := setReply .nothing s
  (stepCheck u x).ctx.map fun k =>
    let l := (stepCheck u x).works
    let a := admitAll k l u
    let v := keepAdmission 1 k.p l a (kvNote { a.z with errs := [], copyErrs := [] } a.z.s)
    let y := layerCtx v k l a
    (a, y, l.filter (fun w => a.out.any fun d => d.ix = w.req.ix && ran d), stepBatch y (List.zip l (firstRows 0 (l.map (·.req)))) a
      , raise (128 + k.p) v)

/-- How a STEP ends that admits no request: whether there is a batch, and whether the return area is refused. -/
def stepEnds (s : State) : Bool × Bool :=
  match stepOf s with
  | none => (false, false)
  | some (a, y, _, b, v) =>
    let l := (stepCheck (setReply .nothing s) (cmdOf s 1)).works
    (b.rows = [], returnRefused v y.k (joinRuns [tableRun y.k (List.zip l (firstRows 0 (l.map (·.req)))) a v]))

/-- `stepping 1` with no quota for a frame. -/
def starved : State := modPart 0 (fun q => { q with kvQuota := 0 }) (stepping 1)

/-- `stepping 1` with the frame of its sequence shared, and poison in it. -/
def sharedStep : State :=
  let s := devPut 0 4160 (natLe 4 128) (devPut 0 4100 (natLe 4 1) (stepping 1))
  devPoisonSector 0 (2 ^ 21) { s with kvt := { s.kvt with frames := [(0, { state := .held, refcnt := 2, vf := 1, owner := 0 }), (1, { vf := 1 })] } }

/-- `stepping 1` with poison in a section of its model. -/
def poisonedModel : State :=
  devPoisonSector 0 512 (modPart 0 (fun q => { q with models := [(0, { tabGet {} q.models 0 with
    sections := [{ off := 0, size := 1024, kind := 0, role := 0, reserved := false }], place := [0] })] }) (stepping 1))

theorem witness_StepsComplete :
    classReady (stepping 1) 1 0x04 = true ∧ hostHeld (stepping 1) 1 true = false ∧ stepWaits (stepping 1) 1 = false ∧ (cmdOf (stepping 1) 1).applied = false
      ∧ (classReady (stepping 0) 1 0x04 = true ∧ stepWaits (stepping 0) 1 = false
        ∧ stepWorst (stepCheck (stepping 0) (cmdOf (stepping 0) 1)).faults = some (0, .descFault, 0x501))
      ∧ stepWaits (blocking 4096 (stepping 1)) 1 = false ∧ stepWaits sharedStep 1 = false ∧ stepWaits starved 1 = false
      ∧ (let s := modCmd 1 (fun x => { x with applied := true }) (stepping 1);
        classReady s 1 0x04 = true ∧ stepWaits s 1 = false ∧ (cmdOf s 1).applied = true) := by decide +kernel

theorem witness_StepsComplete_admits : stepBegins (stepping 1) = (true, true, false, false, true) := by decide +kernel

theorem witness_StepsComplete_deferred : stepBegins (blocking 4096 (stepping 1)) = (true, false, true, false, true) := by decide +kernel

theorem witness_StepsComplete_faulted : stepBegins sharedStep = (true, true, false, true, false) := by decide +kernel

theorem witness_StepsComplete_paused : stepBegins starved = (true, true, false, false, false) := by decide +kernel

theorem witness_StepsComplete_ends : stepEnds starved = (true, false) := by decide +kernel

theorem witness_StepsComplete_poison : ∃ a y done b v, stepOf poisonedModel = some (a, y, done, b, v) ∧ b.rows ≠ []
    ∧ (runLayers y done b v).1.fault.isSome = true := by
  have key : (stepOf poisonedModel).elim false (fun z => !z.2.2.2.1.rows.isEmpty
      && decide ((noteWeights z.2.1 z.2.2.2.1 z.2.2.2.2).1.fault.isSome = true)) = true := by decide +kernel
  generalize stepOf poisonedModel = o at key
  match o, key with
  | some (a, y, done, b, v), key =>
    simp only [Option.elim, Bool.and_eq_true, Bool.not_eq_true', decide_eq_true_eq] at key
    exact ⟨a, y, done, b, v, rfl, by intro h; simp [h] at key, by
      obtain ⟨f, h⟩ := Option.isSome_iff_exists.1 key.2
      rw [runLayers_fault h]; rfl⟩

/-- A BANK_RUN of one program on Clove 5: image at 0 (R231), launch table at 4,096 (R232), the bank's slot 0 held with LOCAL. -/
def banking (n : Nat) : State :=
  let t := job (desc [(0, 0x03), (8, 0), (16, 4096), (48, n)])
  let t := { t with clv := { stackMode := 1 }
                    mem := { t.mem with ct := [(0, { valid := true, pchunk := 6 }), (1, { valid := true, bankLocal := true, pchunk := 5 })] } }
  devPut 0 0 (natLe 64 (0x31564C43 + 4 * 2 ^ 32)) (devPut 0 4096 (natLe 32 (5 + 4095 * 2 ^ 64 + 4096 * 2 ^ 128)) t)

theorem witness_BankRunsAndTheirPrograms_accesses :
    (let s := banking 1;
      let x := cmdOf s 1;
      let v := setReply .nothing s;
      hostHeld v x.fn (brLaunchHost x || brFlushHost x) = false ∧ accessClear v 2 0 (bankTouches x (bankRunOf v x)) []
        ∧ bankRunFault v x = none ∧ ((bankRunOf v x).launch.map (·.bank)).Nodup)
      ∧ (let v := setReply .nothing (blocking 0 (banking 1));
        accessDefers v 2 0 (bankTouches (cmdOf v 1) (bankRunOf v (cmdOf v 1))) [])
      ∧ (let v := setReply .nothing (banking 4097);
        accessClear v 2 0 (bankTouches (cmdOf v 1) (bankRunOf v (cmdOf v 1))) [] ∧ (bankRunFault v (cmdOf v 1)).isSome = true) := by
  simp only [clearOf_iff, blockedOf_iff]; decide +kernel

theorem witness_BankRunsAndTheirPrograms :
    (let s := banking 1;
      classReady s 1 0x03 = true ∧ (cmdOf s 1).waitFor = [] ∧ onCloves s 1 = false ∧ (bankRunFault s (cmdOf s 1)).isNone = true ∧ (bankRunOf s (cmdOf s 1)).flush.any (flushBusy s 1) = false
        ∧ ((bankRunOf s (cmdOf s 1)).launch.map (·.bank)) = [5])
      ∧ (classReady (banking 4097) 1 0x03 = true ∧ bankRunFault (banking 4097) (cmdOf (banking 4097) 1) = some (0, .descFault, 0x202))
      ∧ (let q : CloveProg := { cmd := 1, part := 0, fn := 1 };
        let t := modCmd 1 (fun x => { x with waitFor := [0, 3] }) (banking 1);
        let s := { t with clv := { clove := [(5, { waiting := [q] })] } };
        running s = true ∧ (cmdOf s 1).phase = .running ∧ cmdClass (cmdOf s 1) = 0x03 ∧ (cmdOf s 1).waitFor.contains 0 = true
          ∧ (cloveOf s 5).state ≠ .off ∧ (cloveOf s 5).progs = [] ∧ (cloveOf s 5).waiting = [q]) := by decide +kernel

theorem witness_BankRunsAndTheirPrograms_yields :
    (let q : CloveProg := { cmd := 1, part := 0, fn := 1 };
        let t := modCmd 1 (fun x => { x with waitFor := [0] }) (banking 1);
        let s := { t with clv := { clove := [(5, { state := .running, progs := (rangeFrom 2 8).map fun c => { theProg 0 with cmd := c }
                                                   waiting := [q] })] } };
        8 ≤ (cloveOf s 5).progs.length ∧ (cloveOf s 5).waiting = [q] ∧ q.cmd = 1)
      ∧ (let q : CloveProg := { cmd := 1, part := 0, fn := 1, loaded := true };
        let s := { banking 1 with clv := { clove := [(5, { state := .running, progs := [theProg 0], waiting := [q] })] } };
        (cloveOf s 5).progs.length < 8 ∧ ((cloveOf s 5).waiting.find? fun q => q.loaded && !q.suspended) = some q)
      ∧ (let q := theProg (bv 0x7B 0 0 0 0);
        let s := running5 q;
        (cloveOf s 5).progs = [q] ∧ activeProg s 5 = some q ∧ tabGet [] s.mem.deferred 5 = [] ∧ cloveReady s 5 q (bv 0x7B 0 0 0 0) 4
          ∧ bvRow 0x7B 0 (bv 0x7B 0 0 0 0) = true ∧ yieldCheck (bv 0x7B 0 0 0 0) q = none ∧ suspendPending s q = false ∧ q.stalled = false)
      ∧ (let q := theProg (bv 0x7B 0 0 0 0);
        let p2 := { theProg 0 with cmd := 2 };
        let t := running5 q;
        let s := { t with clv := { clove := [(5, { state := .running, progs := [q, p2] })] } };
        activeProg s 5 = some q ∧ cloveReady s 5 q (bv 0x7B 0 0 0 0) 4 ∧ yieldCheck (bv 0x7B 0 0 0 0) q = none
          ∧ (cloveOf s 5).progs = [q, p2] ∧ p2.suspended = false ∧ p2.cmd ≠ q.cmd ∧ suspendPending s q = false
          ∧ (eccOf s 0).busy = false)
      ∧ (let q := { theProg (bv 0x7B 0 0 0 0) with fn := 1 };
        let s := modRing 1 0 (fun y => { y with job := .suspending }) (running5 q);
        activeProg s 5 = some q ∧ cloveReady s 5 q (bv 0x7B 0 0 0 0) 4 ∧ yieldCheck (bv 0x7B 0 0 0 0) q = none
          ∧ (cloveOf s 5).progs = [q] ∧ suspendPending s q = true)
      ∧ (let w := bv 0x7B 1 0 0 0;
        let q := theProg w;
        let s := running5 q;
        cloveReady s 5 q w 4 ∧ bvRow 0x7B 1 w = true ∧ bvF0 w = 0 ∧ bvF1 w = 0 ∧ bvF2 w = 0 ∧ q.storedPoison = false
          ∧ (cloveOf s 5).waiting = [] ∧ (cmdOf s q.cmd).faults = [] ∧ tabWf {} s.clv.clove = true
          ∧ ∀ e ∈ s.clv.clove, e.1 ≠ 5 → ∀ p ∈ e.2.progs ++ e.2.waiting, p.cmd ≠ q.cmd)
      ∧ (let q := { theProg 0 with stalled := true };
        (cloveOf (running5 q) 5).progs = [q] ∧ activeProg (running5 q) 5 = some q) := by simp only [ready_iff]; decide +kernel

/-! ### Witnesses: commands, groups, jobs (10, 11) -/

/-- Function 1's ring 0 with one descriptor to fetch. -/
def toFetch : State := modRing 1 0 (fun q => { q with tail := 1, job := .idle }) { job 0 with hif := { (job 0).hif with cmds := [] } }

/-- Command 1 fetched, with descriptor `d`, and its job running. -/
def toStart (d : BitVec 512) : State := modCmd 1 (fun x => { x with phase := .fetched }) (job d)

/-- Command 1 done, alone or beside another of its group that is not over. -/
def toReport (other : Bool) : State :=
  let s := modCmd 1 (fun x => { x with phase := .done, last := other == false }) (job 0)
  if other then modCmd 2 (fun _ => { phase := .running, fn := 1 }) s else modRing 1 0 (fun q => { q with fetchGroup := 1 }) s

theorem witness_CommandsAreFetchedStartedAndReported :
    (canFetch toFetch 1 0 = true ∧ (ringOf toFetch 1 0).fetchLen < 1024 ∧ (ringOf toFetch 1 0).failed = false)
      ∧ (canStart (toStart (desc [(0, 0x20)])) 1 = true ∧ startFault (toStart (desc [(0, 0x20)])) (cmdOf (toStart (desc [(0, 0x20)])) 1) = none)
      ∧ (canStart (toStart (desc [(0, 0x77)])) 1 = true
        ∧ startFault (toStart (desc [(0, 0x77)])) (cmdOf (toStart (desc [(0, 0x77)])) 1) = some (.descFault, 0x601))
      ∧ (canDrain (toReport false) 1 0 = true ∧ (partOf (toReport false) (homeOf (toReport false) 1)).running = some (1, 0)
        ∧ 3 ∈ partCores (toReport false) 0)
      ∧ (let s := toStart (desc [(0, 0x01), (16, 128)]);
        canStart s 1 = true ∧ startFault s (cmdOf s 1) = none ∧ cmdClass (cmdOf s 1) = 0x01 ∧ chosenMover s = some 0)
      ∧ (let s := modPart 0 (fun q => { q with running := none }) (modRing 1 0 (fun q => { q with job := .suspended }) (toReport false));
        canDrain s 1 0 = true ∧ (partOf s (homeOf s 1)).running ≠ some (1, 0))
      ∧ (let s := modCmd 1 (fun x => { x with status := .boundsFault }) (toReport true);
        canComplete s 1 = true ∧ (cmdOf s 1).noRecord = false ∧ statusOk (cmdOf s 1).status = false ∧ othersOpen s 1 ≠ []
          ∧ 2 ∈ groupCmds s 1 0 (cmdOf s 1).group ∧ phaseDone (cmdOf s 2).phase = false)
      ∧ (let s := modRing 1 0 (fun q => { q with drained := true }) (toReport false);
        canComplete s 1 = true ∧ (cmdOf s 1).noRecord = false ∧ statusOk (cmdOf s 1).status = true ∧ othersOpen s 1 = []
          ∧ groupClosed s (cmdOf s 1) = true ∧ (cmdOf s 1).group = (ringOf s 1 0).curGroup)
      ∧ (let s := toReport true;
        canComplete s 1 = true ∧ (cmdOf s 1).noRecord = false ∧ statusOk (cmdOf s 1).status = true ∧ othersOpen s 1 ≠ []
          ∧ (fnOf s (cmdOf s 1).fn).enc = false ∧ (ringOf s 1 0).count = 0 ∧ (fnOf s 1).assigned = true ∧ (fnOf s 1).part < 64) := by
  decide +kernel

/-- The job of function 1, ring 0, running a RUN, with a job of ring 1 in a state, `k` images of others in its one save slot, and a
pending stop. -/
def sharing (other : JobState) (cls : BitVec 2) (k reason : Nat) : State :=
  let s := modRing 1 1 (fun q => { q with state := .active, job := other, cls := cls }) (onCore [word 0 []])
  modPart 0 (fun q => { q with pendingStop := reason, images := if k = 0 then [] else [{ fn := 1, ring := 3, cores := [], staging := {} }] }) s

/-- The same job stopped, its core saved. -/
def stopped1 (wait : Bool) : State :=
  let s := modRing 1 0 (fun q => { q with job := .suspending }) (sharing .ready 2 0 0)
  modPart 0 (fun q => { q with pendingWait := wait }) (modCore 0 (fun x => { x with state := .suspended, suspendReq := false }) s)

/-- Its image in the save slot, chosen to run. -/
def chosen : State :=
  let s := modRing 1 0 (fun q => { q with job := .suspended }) (job (desc [(0, 0x02)]))
  modPart 0 (fun q => { q with running := none, next := some (1, 0)
                               images := [{ fn := 1, ring := 0, cores := [{ core := { run := 1, pidx := 0 } }], staging := {} }] }) s

theorem witness_JobsStopAndResume :
    (let s := sharing .ready 3 0 0;
      activeJob s 0 = some (1, 0) ∧ effClass (jobRing s (1, 0)) < minClass s (readyJobs s 0))
      ∧ (let s := sharing .ready 2 0 0;
        activeJob s 0 = some (1, 0) ∧ minClass s (readyJobs s 0) ≤ effClass (jobRing s (1, 0)) ∧ (partOf s 0).pendingStop ≠ 1 ∧ (partOf s 0).pendingHold = false
          ∧ engineClean s (1, 0) = false ∧ (partOf s 0).images.length < (partOf s 0).saveSlots)
      ∧ (let s := sharing .ready 2 1 0;
        activeJob s 0 = some (1, 0) ∧ minClass s (readyJobs s 0) ≤ effClass (jobRing s (1, 0))
          ∧ engineClean s (1, 0) = false ∧ (partOf s 0).saveSlots ≤ (partOf s 0).images.length)
 := by decide +kernel

theorem witness_JobsStopAndResume_waits :
    (let s := modCore 0 (fun x => { x with held := true }) (sharing .idle 2 0 0);
        (cmdOf s 1).phase = .running ∧ cmdClass (cmdOf s 1) = 0x02 ∧ runHeld s 1 = true ∧ activeJob s 0 = some (1, 0)
          ∧ (1, 0) = ((cmdOf s 1).fn, (cmdOf s 1).ring) ∧ homeOf s 1 = 0)
      ∧ (let s := modCore 0 (fun x => { x with held := true }) (sharing .idle 2 1 0);
        runHeld s 1 = true ∧ activeJob s 0 = some (1, 0) ∧ (partOf s 0).saveSlots ≤ (partOf s 0).images.length)
      ∧ (let s := sharing .ready 2 0 2;
        activeJob s 0 = some (1, 0) ∧ (partOf s 0).pendingStop ≠ 0 ∧ (partOf s 0).images.length < (partOf s 0).saveSlots
          ∧ stopStands s 0 (1, 0) = true ∧ engineClean s (1, 0) = false)
      ∧ (let s := modPart 0 (fun q => { q with pendingHold := true }) (modCore 0 (fun x => { x with held := true }) (sharing .idle 2 0 0));
        activeJob s 0 = some (1, 0) ∧ (partOf s 0).pendingHold = true ∧ (partOf s 0).images.length < (partOf s 0).saveSlots
          ∧ stopStands s 0 (1, 0) = true ∧ engineClean s (1, 0) = false)
      ∧ stopStands (sharing .idle 2 0 2) 0 (1, 0) = false
      ∧ (let s := stopped1 true;
        homeOf s 1 = 0 ∧ (jobRing s (1, 0)).job = .suspending ∧ (partOf s 0).running = some (1, 0) ∧ (jobRing s (1, 0)).failed = false
          ∧ groupOver s (1, 0) = false ∧ stopDone s (1, 0) = true)
      ∧ (let s := chosen;
        ((partOf s 0).images.find? fun m => m.fn = 1 && m.ring = 0).isSome = true ∧ (jobRing s (1, 0)).job = .suspended
          ∧ (partOf s 0).running = none ∧ (partOf s 0).next = some (1, 0) ∧ running s = true ∧ s.pwr.idle = .active
          ∧ (jobRing s (1, 0)).recover = false ∧ isAside s 0 0 = false ∧ physCore s 0 0 = some 0) := by decide +kernel

theorem witness_JobsStopAndResume_routeless :
    let s := { chosen with stw := { chosen.stw with sends := [{ cmd := 1, part := 0, domain := 0, dest := 5, channel := 0, mseq := 0 }] } };
    homeOf s 1 = 0 ∧ (jobRing s (1, 0)).job = .suspended ∧ (partOf s 0).running = none ∧ (partOf s 0).next = some (1, 0)
      ∧ ∀ x ∈ s.stw.sends, ((cmdOf s x.cmd).fn, (cmdOf s x.cmd).ring) = (1, 0) ∧ x.coll = false ∧ x.unsent = true
        ∧ usableRoute s x.dest = none := by decide +kernel

/-! ### Witnesses: management, partitions, SPDM, claims (11, 15, 16) -/

/-- The owner's PF session 1, authenticated; another session 2 is not the owner's. -/
def owned (s : State) : State :=
  { s with sec := { s.sec with sessions := [{ fn := 0, num := 1, owner := true, finished := true }, { fn := 0, num := 2, finished := true }] } }

def request : Req := { sess := 1, seq := 9 }

theorem witness_ManagementRequestsAreAnswered :
    (Instr.wf (.planeMode request 0) = true ∧ hostUp (owned up) 0 = true ∧ mgmtOf (.planeMode request 0) = some (6, request))
      ∧ (let t := owned up;
        let s := { t with sec := { t.sec with openReq := some ⟨1, 8, 0⟩, queue := [.planeMode request 0] } };
        s.sec.openReq.isSome = true ∧ s.sec.queue.length < 16)
      ∧ (let t := owned up;
        let s := { t with sec := { t.sec with openReq := some ⟨1, 8, 0⟩, queue := (rangeFrom 0 16).map fun _ => .reset request } };
        16 ≤ s.sec.queue.length)
      ∧ (let t := owned up;
        let r : Response := { op := 6, seq := 9 };
        let s := { t with sec := { t.sec with stored := some r } };
        s.sec.openReq = none ∧ ownerSession s 1 = true ∧ s.sec.stored = some r ∧ r.seq = request.seq)
      ∧ (let s := owned up;
        s.sec.openReq = none ∧ s.sec.stored = none ∧ allowed s 6 2 = false)
      ∧ (let q : Req := { request with len := 5000 };
        Instr.wf (.planeMode q 0) = true ∧ mgmtOf (.planeMode q 0) = some (6, q) ∧ allowed (owned up) 6 q.sess = true ∧ 4096 < q.len) := by
  decide +kernel

/-- Parameters of a partition of core groups 4 and 5, two chunks and one of the pool, 64 semaphores and staging region 3. -/
def params : PartParams :=
  { block := pblock [(0, 0x30), (8, 2), (16, 64), (18, 100), (20, 10), (24, 2), (26, 2), (28, 1), (30, 1), (31, 1), (40, 3), (42, 2), (48, 8)]
    choice := [(4096, false), (5, true), (4097, false)] }

/-- The owner's module with PLANE_MODE making planes 1 and up INTERLEAVED. -/
def managed : State := owned { up with mem := { up.mem with planeMode := 1 } }

/-- The owner's module with `job`'s partition 0, idle. -/
def withPart : State :=
  let t := owned (job 0)
  modPart 0 (fun q => { q with running := none }) { t with hif := { t.hif with cmds := [] } }

theorem witness_PartitionsAndTheirFunctions :
    (request.malformed = false ∧ hostUp managed 0 = true ∧ managed.sec.openReq = none ∧ managed.sec.stored = none ∧ ownerSession managed 1 = true ∧ managed.sec.lc = 2
        ∧ managed.sec.recovery = false)
      ∧ (createBad params = false ∧ stagingHeld managed params.staging = none ∧ modesDiffer managed params.stackMode = false
        ∧ createLacks managed params = false ∧ choiceOk managed params.choice params.chunks params.pool = true)
      ∧ ((partOf withPart 0).state = .active ∧ hostUp withPart 0 = true ∧ ownerSession withPart 1 = true)
      ∧ (∀ f ∈ assignFns 1023 2 true false, fnExists withPart f = true ∧ (fnOf withPart f).state = .disabled ∧ (fnOf withPart f).assigned = false)
      ∧ (let s := modFn 1024 (fun y => { y with assigned := true, part := 0 }) withPart;
        ∀ f ∈ assignFns 1024 1 false false, fnExists s f = true ∧ (fnOf s f).state = .disabled ∧ (fnOf s f).assigned = true ∧ (fnOf s f).part = 0)
      ∧ ((partOf withPart 0).saveSlots + 15 ≤ 16 ∧ (∀ k, k < 64 → (0x8000000000000000 : W64).getLsbD k = true → groupFree withPart k = true)
        ∧ (lowestGap (ctRanges withPart 0) ((partOf withPart 0).ctCount + 1) 262144).isSome = true ∧ choiceOk withPart [(9, true)] 1 0 = true)
      ∧ ((partOf withPart 0).images = [] ∧ (1 : W64) ||| (partOf withPart 0).cores = (partOf withPart 0).cores ∧ (partOf withPart 0).orphans = [])
      ∧ (let t := modPart 0 (fun q => { q with state := .creating }) withPart;
        let u := { t with sec := { t.sec with openReq := some ⟨1, 5, 0⟩ } };
        running u = true ∧ u.sec.openReq = some ⟨1, 5, 0⟩ ∧ tabWf {} u.rst.claims = true ∧ (partOf u 0).state = .creating)
      ∧ (let t := modPart 0 (fun q => { q with state := .teardown, leaving := [1] }) withPart;
        let u := modFn 1 (fun y => { y with state := .disabled }) { t with sec := { t.sec with openReq := some ⟨2, 5, 0⟩ } };
        (partOf u 0).state = .teardown ∧ ∀ f ∈ (partOf u 0).leaving, (fnOf u f).state ≠ .disabling) := by decide +kernel

theorem witness_ConfigurationFirmwareAndLifeCycle :
    (noPartition managed = true ∧ ownerSession managed 1 = true ∧ managed.sec.lc = 2 ∧ managed.sec.recovery = false
        ∧ (portOf managed 7).state = .down ∧ managed.sec.releases ≠ 0 ∧ slotError managed managed.sec.slotA = none)
      ∧ (let s := { withPart with mem := { withPart.mem with ct := [(0, { valid := true, bankLocal := true, pchunk := 5 })] } };
        eccWindowOk s 0 0 5 = true ∧ (partOf s 0).state ≠ .none ∧ (∀ k, k < 64 → k ≠ 0 → (partOf s k).domain ≠ 9))
      ∧ (eccOf { up with mem := { up.mem with ecc := [(7, { en := true })] } } 7).en = true
      ∧ (let s := { owned up with sec := { (owned up).sec with lc := 1 } };
        pfSession s 2 = true ∧ s.sec.lc = 1 ∧ s.sec.recovery = false ∧ hostUp s 0 = true)
      ∧ (let s := { up with sec := { up.sec with sessions := [{ fn := 3, num := 1, finished := true }] } };
        hostUp s 3 = true ∧ (sessionOf s 3 1).isSome = true ∧ s.sec.lc = 2 ∧ bindRefused s 3 = false) := by decide +kernel

/-- FW_ACTIVATE may revoke some key: whatever keys the factory images name, one of the four is not the only one. -/
theorem witness_ConfigurationFirmwareAndLifeCycle_revoke : ∃ k, k < 4 ∧ (validKeys managed).any (fun j => j ≠ k) = true := by
  have z : ∀ t, slotImageError managed managed.sec.slotA t = 0 := by
    intro t
    simp [slotImageError, factoryError, minSvn, managed, owned, up, State.reset, show tabGet (0#6) ([] : Tab (BitVec 6)) t = 0#6 from rfl]
  have h : validKeys managed ≠ [] := by
    have v : managed.sec.slotA.valid = true := by decide
    simp [validKeys, z, v, rangeFrom]
  obtain ⟨a, l, e⟩ := List.exists_cons_of_ne_nil h
  by_cases h0 : a = 0
  · exact ⟨1, by decide, by simp [e, h0]⟩
  · exact ⟨0, by decide, by simp [e, h0]⟩

/-- Function 5's DOE negotiated, with its session 7, bound or not. -/
def talking (bound finished : Bool) (st : FnState) : State :=
  { up with
    sec := { up.sec with does := [(5, { version := true, caps := true, algs := true })]
                         cert1 := [1, 2, 3], sessions := [{ fn := 5, num := 7, bound := bound, finished := finished }] }
    hif := { fn := [(5, { state := st, enc := true, assigned := true })] } }

theorem witness_SpdmExchanges_periods : (∃ x, sessionOf (talking false true .enabled) 5 7 = some x ∧ x.period = 0)
    ∧ ∃ x, sessionOf { talking false true .enabled with sec := { (talking false true .enabled).sec with
        sessions := [{ fn := 5, num := 7, finished := true, period := 30 }] } } 5 7 = some x ∧ x.period ≠ 0 ∧ x.bound = false :=
  ⟨⟨_, rfl, rfl⟩, ⟨_, rfl, by decide, rfl⟩⟩

theorem witness_SpdmExchanges :
    (let s := talking false true .enabled;
      hostUp s 5 = true ∧ (doeOf s 5).version = true ∧ (doeOf s 5).caps = true ∧ (doeOf s 5).algs = true ∧ s.sec.lc = 2
        ∧ certChain s 1 = some [1, 2, 3] ∧ measured s 5 0 = some (natLe 1 (measureIxs s 5).length) ∧ (sessionOf s 5 7).isSome = true
        ∧ doeFull s 5 false = true)
      ∧ (hostUp up 0 = true ∧ (doeOf up 0).version = false)
      ∧ (let s := { up with sec := { up.sec with does := [(0, { version := true, caps := true, algs := true })] } };
        (doeOf s 0).algs = true ∧ doeFull s 0 true = false)
      ∧ (∃ x, anySession (talking false false .enabled) 5 7 = some x ∧ x.finished = false) ∧ (∃ x, sessionOf (talking false true .enabled) 5 7 = some x ∧ x.bound = false)
      ∧ (∃ x, sessionOf (talking true true .enabled) 5 7 = some x ∧ x.bound = true) ∧ (fnOf (talking true true .enabled) 5).enc = true
      ∧ (fnOf (talking true true .enabled) 5).state = .enabled := by
  refine ⟨by decide +kernel, by decide +kernel, by decide +kernel, ⟨_, rfl, rfl⟩, ⟨_, rfl, rfl⟩, ⟨_, rfl, rfl⟩, rfl, rfl⟩

theorem witness_ClaimsAndSmbusReads :
    (hostUp up 0 = true ∧ (pinFuncs 2).contains 3 = true ∧ (claimOf up 2).owner = 0 ∧ placedOn up 2 3 = none)
      ∧ ((pinFuncs 7).contains 3 = false ∧ (claimOf up 7).owner = 0 ∧ placedOn up 7 3 = none ∧ 8 ≤ 0x40 ∧ ∀ k, k < 256 → (claimOf up k).owner ≤ 4 ∧ (claimOf up k).part < 64)
      ∧ (let s := { up with rst := { up.rst with claims := [(5, ⟨5, 3, 0⟩)] } };
        (placedOn s 4 5).isSome = true ∧ (pinFuncs 4).contains 5 = true ∧ (claimOf s 5).owner = 3 ∧ (claimOf s 6).owner ≠ 3)
      ∧ (let s := { up with rst := { up.rst with straps := 4 } };
        s.rst.phase ≠ .off ∧ s.rst.straps.getLsbD 2 = true ∧ (smbusValue s 0xC2).isSome = true ∧ smbusValue s 0xC3 = none) := by decide +kernel

/-! ### Witnesses: KV commands, frames, adapters (08, 09) -/

/-- A KV command on the record of `stepping`. -/
def kvJob (cls : Nat) : State :=
  devPut 0 4096 (natLe 64 (2 ^ 64 + 2 ^ 96 + 2 ^ 112 + 64 * 2 ^ 128 + 2 ^ 144) ++ natLe 4 (2 ^ 32 - 1) ++ natLe 8 (2 ^ 64 - 1))
    (job (desc [(0, cls), (8, 4096)]))

/-- What a KV command makes of its record. -/
def kvDone (s : State) (work : Cmd → Kv → Kv × Nat) : Option KvFlt :=
  kvFault (kvWork work (cmdOf s 1) (noteRecords 0 [4096] (setReply .nothing s))).1

/-- What it touches, in device and in far memory. -/
def kvSpans (s : State) (work : Cmd → Kv → Kv × Nat) : List (Nat × Nat) × List (Nat × Nat) :=
  let z := (kvWork work (cmdOf s 1) (setReply .nothing s)).1
  (kvTouches z, kvFar z)

theorem witness_KvCommandsApplyAllOrNothing :
    (classReady (kvJob 0x10) 1 0x10 = true ∧ (cmdOf (kvJob 0x10) 1).applied = false ∧ classReady (kvJob 0x11) 1 0x11 = true
        ∧ classReady (kvJob 0x12) 1 0x12 = true ∧ classReady (kvJob 0x13) 1 0x13 = true)
      ∧ (let l := kvSpans (kvJob 0x13) kvFreeWork;
        kvBehind (kvJob 0x13) 1 = false ∧ accessClear (setReply .nothing (kvJob 0x13)) 2 0 l.1 l.2 ∧ kvDone (kvJob 0x13) kvFreeWork = none)
      ∧ (let s := devPut 0 4096 (natLe 8 0 ++ natLe 8 0) (kvJob 0x13);
        let l := kvSpans s kvFreeWork;
        accessClear (setReply .nothing s) 2 0 l.1 l.2 ∧ (kvDone s kvFreeWork).isSome = true)
      ∧ (let s := blocking 4096 (kvJob 0x13);
        let l := kvSpans s kvFreeWork;
        classReady s 1 0x13 = true ∧ kvBehind s 1 = false ∧ accessDefers (setReply .nothing s) 2 0 l.1 l.2) := by
  simp only [clearOf_iff, blockedOf_iff]; decide +kernel

theorem witness_FramesTakenAndReleased :
    (frameOf faulty 4).vf = 1 ∧ (frameOf faulty 4).vf ≠ 2 ∧ (frameOf faulty 4).refcnt ≤ 1
      ∧ 2 ≤ (frameOf { up with kvt := { frames := [(4, { refcnt := 2 })] } } 4).refcnt := by decide +kernel

/-- A frame whose table entry is wrong, which the one record of its partition names. -/
theorem witness_FaultsAreRecordedAndRecoveryIsDue_frames :
    let s := modPart 0 (fun q => { q with kvRecords := [4096] }) sharedStep;
    running s = true ∧ ({ kind := 0x14, unit := 0, detail := 0 } : FaultInfo).wf = true ∧ frameHolder s 0 = some 0 ∧ (frameNames s 0 0).length = 1 := by
  decide +kernel

/-- Partition 0 with an adapter image for one target of one row and column (R303) and a model image of one empty section (R289), in
far memory, and one chunk of adapter pool. -/
def loading (cls : Nat) (l : List (Nat × Nat)) : State :=
  let t := job (desc ((0, cls) :: l))
  let t := modPart 0 (fun q => { q with poolBase := 2, poolChunks := 1, ctCount := 3 })
    { t with mem := { t.mem with ct := t.mem.ct ++ [(2, { valid := true, pchunk := 8 })], farPorts := [(0, { link := true, present := true, capacity := 16 })] } }
  let t := farPut 0 0 (natLe 64 (4096 + 256 * 2 ^ 64 + 77 * 2 ^ 96 + 2 ^ 128 + 2 ^ 136 + 2 ^ 152)) t
  let t := farPut 0 4096 (natLe 64 (0x50414441 + 2 ^ 32)) (farPut 0 4160 (natLe 64 (128 * 2 ^ 64 + 192 * 2 ^ 128 + 2 ^ 192 + 2 ^ 224)) t)
  let t := farPut 0 4224 (natLe 128 0) t
  farPut 0 8192 (natLe 256 (0x4C444F4D + 77 * 2 ^ 32 + 2 ^ 64 + 2 ^ 80 + 2 ^ 96 + 2 ^ 112 + 2 ^ 128 + 2 ^ 160 + 2 ^ 192 + 2 ^ 224) ++ natLe 64 0) t

/-- Slots 0 to 4 hold adapters 10 to 14, used in that order. -/
def resident (s : State) : State :=
  modPart 0 (fun q => { q with adapters := (rangeFrom 0 5).map fun i => (i, { state := .ready, dir := 10 + i, lastUse := i + 1, bytes := 64 }) }) s

/-- Whether an ADAPTER_LOAD passes its checks and finds a slot, nothing holding accesses. -/
def loads (s : State) : Bool × Bool :=
  let x := cmdOf s 1
  let v := setReply .nothing s
  (quiet v, (loadFault v 0 (field x 8 4) (field x 12 2)).isNone && (chooseSlot v 0 (field x 12 2) (busySlots v 0 x)).isRight)

theorem witness_AdaptersAndModels :
    (let s := loading 0x18 [(8, 0), (12, 0xFFFF)];
      classReady s 1 0x18 = true ∧ homeOf s (cmdOf s 1).fn = 0 ∧ residentIn s 0 0 = none
        ∧ loads s = (true, true))
      ∧ (let s := loading 0x18 [(8, 8), (12, 0xFFFF)];
        classReady s 1 0x18 = true ∧ residentIn s 0 8 = none
          ∧ loads s = (true, false))
      ∧ (let s := resident (loading 0x18 [(8, 11), (12, 0xFFFF)]);
        classReady s 1 0x18 = true ∧ field (cmdOf s 1) 8 4 = 11 ∧ residentIn s 0 11 = some 1)
      ∧ (let s := modPart 0 (fun q => { q with dircap := 16 }) (resident (loading 0x19 [(8, 12)]));
        classReady s 1 0x19 = true ∧ startedBefore s 1 0x04 = [] ∧ residentIn s 0 12 = some 2)
      ∧ (let s := resident (loading 0x19 [(8, 9)]);
        classReady s 1 0x19 = true ∧ startedBefore s 1 0x04 = [] ∧ residentIn s 0 9 = none) := by decide +kernel

theorem witness_AdaptersAndModels_swap :
    (let s := loading 0x1A [(8, 8192), (16, 320), (24, 15)];
        let r := modelRead (setReply .nothing s) 0 8192 320;
        classReady s 1 0x1A = true ∧ quiet (setReply .nothing s) = true ∧ field (cmdOf s 1) 24 1 < 16 ∧ startedBefore s 1 0x04 = [] ∧ startedBefore s 1 0x1A = []
          ∧ (r.2.2.1.any fun e => (farGet s 0 (8192 + e.off) e.size).2) = false ∧ farOk s 0 8192 320 = true ∧ 256 ≤ field (cmdOf s 1) 16 8
          ∧ field (cmdOf s 1) 8 8 % 64 = 0 ∧ r.1 = true ∧ r.2.2.2 = false ∧ (placeModel s 0 15 (sectionBytes r.2.2.1 false) false).isSome = true
          ∧ (placeModel s 0 15 (sectionBytes r.2.2.1 true) true).isSome = true ∧ (chosenMover s).isSome = true) := by decide +kernel

theorem witness_AdaptersAndModels_poison :
    (let t := loading 0x1A [(8, 8192), (16, 384), (24, 15)];
        let s := farPoisonSector 0 8512 (farPut 0 8448 (natLe 32 (320 + 64 * 2 ^ 64)) t);
        let r := modelRead (setReply .nothing s) 0 8192 384;
        classReady s 1 0x1A = true ∧ quiet (setReply .nothing s) = true
          ∧ startedBefore s 1 0x04 = [] ∧ startedBefore s 1 0x1A = [] ∧ farOk s 0 8192 384 = true
          ∧ (r.2.2.1.any fun e => (farGet s 0 (8192 + e.off) e.size).2) = true ∧ r.1 = true ∧ r.2.2.2 = false
          ∧ (placeModel s 0 15 (sectionBytes r.2.2.1 false) false).isSome = true
          ∧ (placeModel s 0 15 (sectionBytes r.2.2.1 true) true).isSome = true ∧ (chosenMover s).isSome = true) := by decide +kernel

theorem witness_AdaptersAndModels_evict :
    (let s := resident (loading 0x41 [(8, 0), (9, 1), (12, 1)]);
        classReady s 1 0x41 = true ∧ (cmdOf s 1).applied = false ∧ evictPart (cmdOf s 1) s < 64 ∧ (partOf s (evictPart (cmdOf s 1) s)).state = .active
          ∧ evictKind (cmdOf s 1) = 1 ∧ evictTarget (cmdOf s 1) = 1
          ∧ lruSlot s 0 (busySlots (setReply .nothing s) 0 (cmdOf s 1)) (fun k => decide ((partOf s 0).slotQuota ≤ k)) = some 4) := by decide +kernel

/-! ### Worked examples of the spec -/

/-- The state after a command, the state before it where the command does not answer one. -/
def run1 (i : Instr) (s : State) : State := match exec i s with | .next t => t | _ => s

/-- 00, the example after R2: bank 5 of channel 19 in stack 6 has g = 3,381. 06, the example of R190: device address
0x0000_0004_0001_2345 with PCHUNK 0x2_84D2 lies in bank 800 at offset 0x0509_A545. Frame 423 of bank 3,381 lies in chunk 15,669 at
0x9_C000, at bank offset 0x69_C000. -/
theorem test_device_addresses :
    chunkLoc false 0x284D2 0x12345 = (800, 0x0509A545) ∧ chunkLoc true 15669 0x9C000 = (6 * 512 + 19 * 16 + 5, 0x0069C000) := by
  decide +kernel

/-- 02, the example of R44: four F6E3 values packed in 24 bits; their values 1.0, −0.25, 28.0 and 2^-4. -/
theorem test_packed_f6e3 :
    packCodes 6 [0x0C, 0x24, 0x1F, 0x01] = 0x0005F90C
      ∧ (encodeVal .f6e3 rne 0 (.fin ⟨1, 1⟩)).1 = 0x0C ∧ (encodeVal .f6e3 rne 0 (.fin ⟨-1, 4⟩)).1 = 0x24
      ∧ (encodeVal .f6e3 rne 0 (.fin ⟨28, 1⟩)).1 = 0x1F ∧ (encodeVal .f6e3 rne 0 (.fin ⟨1, 16⟩)).1 = 0x01 := by decide +kernel

/-- 02, the example of R55: the F8E4 dot product is 557,056 units of 2^-18, and rounds to 0x4008 as BF16; as F8E4 it lies halfway. -/
theorem test_f8e4_dot_product :
    (let c := accDot (.fin 92) { anc := .fin 92 } ([0x3C, 0xAC, 0x45, 0x03].map (decodeFloat .f8e4)) ([0x40, 0x4A, 0xB0, 0x7E].map (decodeFloat .f8e4));
      fixedAnchor .f8e4 .f8e4 false = some 92 ∧ c.map (fun c => c.acc.toInt) = some 557056
        ∧ c.map (fun c => (encodeVal .bf16 rne 0 (accVal c)).1) = some 0x4008
        ∧ c.map (fun c => (encodeVal .f8e4 rne 0 (accVal c)).1) = some 0x40
        ∧ c.map (fun c => (encodeVal .f8e4 { mode := 1 } 0 (accVal c)).1) = some 0x40
        ∧ c.map (fun c => [2, 3].map fun m => (encodeVal .f8e4 { mode := m } 0 (accVal c)).1) = some [0x40, 0x41]) := by
  decide +kernel

/-- 02, the example of R57: the two halves of a BF16 dot product as W128 entries with anchor 60 (entry 0x003C), and their sum. -/
theorem test_w128_entries :
    (let a := accDot (.fin 60) { anc := .fin 60 } ([0x3F80, 0x3F80].map (decodeFloat .bf16)) ([0x5D80, 0x3F80].map (decodeFloat .bf16));
      let b := accDot (.fin 60) { anc := .fin 60 } ([0x3F80, 0x3080].map (decodeFloat .bf16)) ([0xDD80, 0x30C0].map (decodeFloat .bf16));
      a.map accEntry = some (0x00004000000000000004000000000000, 0x003C)
        ∧ b.map accEntry = some (0xFFFFC000000000000000000000000000, 0x003C)
        ∧ ((a.bind fun a => b.bind fun b => entryAdd a b).map fun c => (encodeVal .f32 rne 0 (accVal c)).1) = some 0x3F800000) := by
  decide +kernel

/-- 08, the example of R254: the bytes a frame uses with F8E4 and D = 128, without scales and with blocks of 32; BF16 fills it. -/
theorem test_frame_sizes :
    (let r : KvRec := { addr := 0, seq := 0, kvlen := 72, cap := 128, layers := 48, heads := 8, dim := 128, fmt := .f8e4, sblk := 0
                        spillEn := false, verifies := 0, accepted := 0, lastPath := 0, spill := 0, reserved := false };
      r.rb = 128 ∧ r.u = 8192 ∧ { r with sblk := 2 }.u = 8448 ∧ { r with fmt := .bf16 }.u = 16384 ∧ r.lists = 384 ∧ r.used = 3) := by
  decide +kernel

/-- 10, the example of R349: the IV of VF17's descriptor at count 300 of ring 2. -/
theorem test_descriptor_iv : natLe 12 (ivOf 17 2 0 300) = natLe 12 0x00110200000000000000012C := by decide +kernel

/-- 13, the example of R436: at 105.0 °C with a 10 ms average of 1,480 W TL is 1,405 W, then 1,330 W; in 35 ms the reading is clear, and
at 100 ms steps TL rises to 1,405 W and 1,480 W and is removed. -/
theorem test_throttling :
    (let s := { up with pwr := { up.pwr with avg10 := 1480 }, thm := { sensors := [(7, { valid := true, temp := 1680, state := .throttle })] } };
      let a := run1 .throttleStep s;
      let b := run1 .throttleStep a;
      let c := { b with thm := { sensors := [(7, { valid := true, temp := 1598 })] } };
      let d := run1 .throttleStep c;
      let e := run1 .throttleRecovery d;
      a.pwr.tl = some 1405 ∧ a.pwr.throttleEvents = 1 ∧ b.pwr.tl = some 1330 ∧ b.pwr.throttleEvents = 1 ∧ d.pwr.tl = some 1330
        ∧ e.pwr.tl = some 1405 ∧ (run1 .throttleRecovery e).pwr.tl = some 1480
        ∧ (run1 .throttleRecovery (run1 .throttleRecovery e)).pwr.tl = none) := by decide +kernel

/-- 16, the example of R516: with STRAP_WAKE the PF's claim of SB2 fails; SB5 as FAULT# is granted, SB4 as FAULT# then fails. -/
theorem test_pin_claims :
    (let s := { up with rst := { up.rst with straps := 8, claims := strapClaims 8 } };
      let a := run1 (.clmClaim 0x0102) s;
      let b := run1 (.clmClaim 0x0505) a;
      let c := run1 (.clmClaim 0x0504) b;
      claimOf s 2 = { func := 3, owner := 1 } ∧ a.rst.clmResult = 0x31020100 ∧ (claimOf b 5).owner = 3
        ∧ c.rst.clmResult = 0x31050300 ∧ claimOf c 4 = {}) := by decide +kernel

/-- 14, R449 and R450: target 3 is offered the one unmasked pending source that is routed to it, 35; the read takes it into service. -/
theorem test_event_claim :
    (let s := { up with evc := { groups := [(1, { mask := 0xFFFFFFF0, pend := 0x19 })], route := [(35, 3)] } };
      let t := run1 (.evcClaim 3) s;
      t.reply = .data 0x80000023 ∧ groupOf t 1 = { mask := 0xFFFFFFF0, pend := 0x11 } ∧ offer t 3 = none) := by decide +kernel

/-- 06, R191 to R194: data bit 56 has column 0x1F; one wrong bit is put right, two are found, check bits with 0x7F mark poison. -/
theorem test_ecc_word :
    eccCheck (2 ^ 56) = 0x1F ∧ eccDecode (2 ^ 56 + 1) (eccCheck (2 ^ 56)) = (2 ^ 56, .corrected)
      ∧ (eccDecode (2 ^ 56 + 3) (eccCheck (2 ^ 56))).2 = .failed ∧ (eccDecode 5 (eccCheck 5 ^^^ 0x7F)).2 = .poisoned := by decide +kernel

end Sys2Proof.Tests
end

section
/-!
Registers of the functions (00_scope.md): accesses of a 64-bit register in halves, writes of a ring's base, counted accesses, HOLD of
an event group.
-/
namespace Sys2Proof.Machine

/-! ### Accesses in halves (R4) -/

@[simp] theorem setLatch_latch (f off : Nat) (v : Option W32) (s : State) (k : Nat) :
    tabGet none (setLatch f off v s).hif.latch k = if k = halfKey f off then v else tabGet none s.hif.latch k := by
  simp [setLatch]
@[simp] theorem setWbuf_wbuf (f off : Nat) (v : Option W32) (s : State) (k : Nat) :
    tabGet none (setWbuf f off v s).hif.wbuf k = if k = halfKey f off then v else tabGet none s.hif.wbuf k := by
  simp [setWbuf]

/-! Noting the residency of the present idle state (R443) touches neither the host interface nor the reply. -/

theorem noteIdle_hif (s : State) : (noteIdle s).hif = s.hif := by
  unfold noteIdle; split <;> rfl
theorem noteIdle_setReply (r : Reply) (s : State) : noteIdle (setReply r s) = setReply r (noteIdle s) := by
  unfold noteIdle
  by_cases h : s.pwr.idle = .active
  · rw [if_pos h, if_pos (show (setReply r s).pwr.idle = .active from h)]
  · rw [if_neg h, if_neg (show (setReply r s).pwr.idle ≠ .active from h)]; rfl

theorem noteResidency_hif (f off : Nat) (s : State) : (noteResidency f off s).hif = s.hif := by
  unfold noteResidency; split
  · exact noteIdle_hif s
  · rfl
theorem noteResidency_setReply (f off : Nat) (r : Reply) (s : State) :
    noteResidency f off (setReply r s) = setReply r (noteResidency f off s) := by
  unfold noteResidency
  simp only [setReply_pwr, noteIdle_setReply]; split <;> rfl
/-- With the device active no idle state counts. -/
theorem noteResidency_of_active (f off : Nat) {s : State} (h : s.pwr.idle = .active) : noteResidency f off s = s := by
  unfold noteResidency noteIdle; rw [if_pos h, ite_self]

/-! The effect of each access at an offset where a 64-bit register stands. -/

theorem halfReadLowEffect_register {s : State} {f off y : Nat} (w : Bool) (hu : hostUp s f = true)
    (hy : reg64 (noteResidency f off s) f off = some y) :
    halfReadLowEffect f { at_ := off, whole := w } s = setReply (.data (bif w then y else y % 2 ^ 32))
      (setLatch f off (bif w then none else some (BitVec.ofNat 32 (y / 2 ^ 32))) (noteResidency f off s)) := by
  cases w <;> simp [halfReadLowEffect, hu, hy]

theorem halfReadHighEffect_latched {s : State} {f off x : Nat} {h : W32} (hu : hostUp s f = true) (hx : reg64 s f off = some x)
    (hl : tabGet none s.hif.latch (halfKey f off) = some h) :
    halfReadHighEffect f off s = setReply (.data h.toNat) (setLatch f off none s) := by
  simp [halfReadHighEffect, hu, hx, hl]

theorem halfReadHighEffect_unlatched {s : State} {f off x : Nat} (hu : hostUp s f = true) (hx : reg64 s f off = some x)
    (hl : tabGet none s.hif.latch (halfKey f off) = none) :
    halfReadHighEffect f off s = setReply (.data (x / 2 ^ 32 % 2 ^ 32)) s := by
  simp [halfReadHighEffect, hu, hx, hl]

theorem halfWriteLowEffect_held {s : State} {f off x : Nat} (v : W32) (hu : hostUp s f = true) (hx : reg64 s f off = some x) :
    halfWriteLowEffect f off v s = setWbuf f off (some v) s := by
  simp [halfWriteLowEffect, hu, hx]

theorem halfWriteHighEffect_buffered {s : State} {f off x : Nat} {v lo : W32} (hu : hostUp s f = true) (hx : reg64 s f off = some x)
    (hb : tabGet none s.hif.wbuf (halfKey f off) = some lo) :
    halfWriteHighEffect f off v s = setWbuf f off none (write64 f off (v.toNat * 2 ^ 32 + lo.toNat) s) := by
  simp [halfWriteHighEffect, hu, hx, hb]

theorem registerWriteEffect_64 {s : State} {f off x : Nat} (v : W64) (hf : f ≤ 1025) (hu : hostUp s f = true) (hx : reg64 s f off = some x) :
    registerWriteEffect f off 64 v s = setWbuf f off none (write64 f off v.toNat s) := by
  have hs : f ≠ sumacSender := by unfold sumacSender; omega
  simp [registerWriteEffect, hs, hu, hx]

theorem toNat_append_halves (v lo : W32) : (v ++ lo).toNat = v.toNat * 2 ^ 32 + lo.toNat := by
  rw [BitVec.toNat_append, ← Nat.shiftLeft_add_eq_or_of_lt lo.isLt, Nat.shiftLeft_eq]

/-- A read that sets its latch touches nothing else but the reply. -/
theorem latch_set_frame (f off : Nat) (v : Option W32) (rep : Reply) (s : State) :
    let t := setReply rep (setLatch f off v s)
    tabGet none t.hif.latch (halfKey f off) = v ∧ t = { s with hif := { s.hif with latch := t.hif.latch }, reply := t.reply }
      ∧ ∀ k, k ≠ halfKey f off → tabGet none t.hif.latch k = tabGet none s.hif.latch k :=
  ⟨by simp, rfl, fun k hk => by simp [hk]⟩

section
variable {s : State} {f off x y : Nat} (hf : f ≤ 1025) (ho : off % 8 = 0) (hu : hostUp s f = true)
include hf ho hu

theorem halfReadLow_sets_latch (w : Bool) (hy : reg64 (noteResidency f off s) f off = some y) :
    after (.halfReadLow f { at_ := off, whole := w }) s fun t => t.reply = .data (bif w then y else y % 2 ^ 32)
      ∧ tabGet none t.hif.latch (halfKey f off) = (bif w then none else some (BitVec.ofNat 32 (y / 2 ^ 32)))
      ∧ t = { noteResidency f off s with hif := { s.hif with latch := t.hif.latch }, reply := t.reply }
      ∧ ∀ k, k ≠ halfKey f off → tabGet none t.hif.latch k = tabGet none s.hif.latch k := by
  have hy' : reg64 (noteResidency f off (setReply .nothing s)) f off = some y := by rwa [noteResidency_setReply]
  refine ⟨_, exec_halfReadLow _ _ _ (by simp [Instr.wf, fnNum, hf, ho]), ?_⟩
  rw [halfReadLowEffect_register (s := setReply .nothing s) w hu hy', noteResidency_setReply, ← noteResidency_hif f off s]
  exact ⟨rfl, latch_set_frame f off _ _ _⟩

theorem halfReadHigh_takes_latch (hx : reg64 s f off = some x) :
    after (.halfReadHigh f off) s fun t =>
      t.reply = .data (match tabGet none s.hif.latch (halfKey f off) with | some h => h.toNat | none => x / 2 ^ 32 % 2 ^ 32)
      ∧ tabGet none t.hif.latch (halfKey f off) = none
      ∧ t = { s with hif := { s.hif with latch := t.hif.latch }, reply := t.reply }
      ∧ ∀ k, k ≠ halfKey f off → tabGet none t.hif.latch k = tabGet none s.hif.latch k := by
  refine ⟨_, exec_halfReadHigh _ _ _ (by simp [Instr.wf, fnNum, hf, ho]), ?_⟩
  cases hl : tabGet none s.hif.latch (halfKey f off) with
  | some h =>
    rw [halfReadHighEffect_latched (s := setReply .nothing s) hu hx hl]
    exact ⟨rfl, latch_set_frame f off none _ s⟩
  | none =>
    rw [halfReadHighEffect_unlatched (s := setReply .nothing s) hu hx hl]
    exact ⟨rfl, hl, rfl, fun _ _ => rfl⟩

theorem halfWriteLow_holds (hx : reg64 s f off = some x) (v : W32) :
    after (.halfWriteLow f off v) s fun t => tabGet none t.hif.wbuf (halfKey f off) = some v
      ∧ t = { s with hif := { s.hif with wbuf := t.hif.wbuf }, reply := t.reply }
      ∧ ∀ k, k ≠ halfKey f off → tabGet none t.hif.wbuf k = tabGet none s.hif.wbuf k := by
  refine ⟨_, exec_halfWriteLow _ _ _ _ (by simp [Instr.wf, fnNum, hf, ho]), ?_⟩
  rw [halfWriteLowEffect_held (s := setReply .nothing s) v hu hx]
  exact ⟨by simp, rfl, fun k hk => by simp [hk]⟩

theorem halfWriteHigh_writes_both (hx : reg64 s f off = some x) {v lo : W32} (hb : tabGet none s.hif.wbuf (halfKey f off) = some lo) :
    after (.halfWriteHigh f off v) s fun t => tabGet none t.hif.wbuf (halfKey f off) = none
        ∧ exec (.registerWrite f off 64 (v ++ lo)) s = .next t := by
  refine ⟨_, exec_halfWriteHigh _ _ _ _ (by simp [Instr.wf, fnNum, hf, ho]), ?_⟩
  rw [halfWriteHighEffect_buffered (s := setReply .nothing s) hu hx hb]
  refine ⟨by simp, ?_⟩
  rw [exec_registerWrite _ _ _ _ _ (by simp [Instr.wf, fnNum, hf, ho]), registerWriteEffect_64 (s := setReply .nothing s) _ hf hu hx,
    toNat_append_halves]
end

/-- Settles O7: a clause for each kind of access; a read notes a residency only at the register of the present idle state. -/
theorem halvesOfARegister : Obligations.HalvesOfARegister := by
  unfold Obligations.HalvesOfARegister
  intro s f off x hf ho hu hx
  refine ⟨fun y hy => ⟨halfReadLow_sets_latch hf ho hu false hy, halfReadLow_sets_latch hf ho hu true hy⟩, fun h => ?_,
    halfReadHigh_takes_latch hf ho hu hx, halfWriteLow_holds hf ho hu hx, fun v lo hb => halfWriteHigh_writes_both hf ho hu hx hb⟩
  rcases h with hi | hf0 | hoff
  · exact noteResidency_of_active f off hi
  · exact if_neg fun e => hf0 e.1
  · exact if_neg fun e => hoff e.2

/-! ### A ring's base register (R328) -/

/-- The offset `o` inside block `i` of an array of register blocks. -/
theorem blockIx_block {base stride n i o : Nat} (ho : o < stride) (hi : i < n) : blockIx (base + stride * i + o) base stride n = some (i, o) := by
  have hs : base + stride * i + o - base = o + stride * i := by omega
  have hq : (o + stride * i) / stride = i := by rw [Nat.add_mul_div_left _ _ (by omega), Nat.div_eq_of_lt ho, Nat.zero_add]
  have hr : (o + stride * i) % stride = o := by rw [Nat.add_mul_mod_self_left, Nat.mod_eq_of_lt ho]
  rw [blockIx, hs, hq, hr, if_pos ⟨by omega, hi⟩]

theorem blockIx_ringBase {r : Nat} (hr : r < 16) : blockIx (0x1000 + 0x80 * r) 0x1000 0x80 16 = some (r, 0) :=
  blockIx_block (o := 0) (by omega) hr

theorem reg64_ringBase (s : State) (f : Nat) {r : Nat} (hr : r < 16) :
    reg64 s f (0x1000 + 0x80 * r) = some (ringOf s f r).sqBase.toNat := by
  rw [reg64, if_neg (by omega), fnReg64, if_neg (by omega), blockIx_ringBase hr]; rfl

theorem write64_ringBase (s : State) (f x : Nat) {r : Nat} (hr : r < 16) :
    write64 f (0x1000 + 0x80 * r) x s
      = ringOffWrite f r (fun q => { q with sqBase := BitVec.ofNat 64 (x / 4096 * 4096) }) s := by
  rw [write64, if_neg (by omega), blockIx_ringBase hr]; rfl

/-- The page of an address, as the write computes it and as a mask. -/
theorem ofNat_page (v : W64) : BitVec.ofNat 64 (v.toNat / 4096 * 4096) = v &&& ~~~0xFFF#64 := by
  have hmask : ∀ i < 64, (~~~0xFFF#64).getLsbD i = decide (12 ≤ i) := by decide
  have hshift : BitVec.ofNat 64 (v.toNat / 4096 * 4096) = v >>> 12 <<< 12 :=
    BitVec.eq_of_toNat_eq (by simp [Nat.shiftRight_eq_div_pow, Nat.shiftLeft_eq])
  refine hshift.trans (BitVec.eq_of_getLsbD_eq fun i hi => ?_)
  rw [BitVec.getLsbD_and, hmask i hi, BitVec.getLsbD_shiftLeft, BitVec.getLsbD_ushiftRight]
  by_cases h : i < 12
  · simp [h]
  · simp [h, hi, Nat.le_of_not_lt h]

theorem ringOffWrite_ringOf (f r : Nat) (g : Ring → Ring) (s : State) :
    ringOf (ringOffWrite f r g s) f r = if (ringOf s f r).state = .off then g (ringOf s f r) else ringOf s f r := by
  unfold ringOffWrite; split <;> simp

theorem ringOffWrite_setReply (f r : Nat) (g : Ring → Ring) (rep : Reply) (s : State) :
    ringOffWrite f r g (setReply rep s) = setReply rep (ringOffWrite f r g s) := by
  unfold ringOffWrite; rw [ringOf_setReply]; split <;> rfl

theorem setReply_modRing_onlyRing (rep : Reply) (f r : Nat) (g : Ring → Ring) (s : State) :
    onlyRing f r s (setReply rep (modRing f r g s)) :=
  ⟨⟨rfl, fun h hh => by simp [hh]⟩, by simp, fun q hq => by simp [hq]⟩

/-- A write that only an OFF ring takes touches that ring alone, beside the write buffer. -/
theorem ringOffWrite_onlyRing (f r off : Nat) (g : Ring → Ring) (s : State) :
    let t := setWbuf f off none (setReply .nothing (ringOffWrite f r g s))
    onlyRing f r s { t with hif := { t.hif with wbuf := s.hif.wbuf } } := by
  unfold ringOffWrite; split
  · exact setReply_modRing_onlyRing .nothing f r g s
  · exact ⟨⟨rfl, fun _ _ => rfl⟩, rfl, fun _ _ => rfl⟩

theorem ringBaseWrite_when_off (s : State) {f r : Nat} (v : W64) (hf : f ≤ 1025) (hu : hostUp s f = true) (hr : r < 16) :
    after (.registerWrite f (0x1000 + 0x80 * r) 64 v) s fun t =>
      ringOf t f r = (if (ringOf s f r).state = .off then { ringOf s f r with sqBase := v &&& ~~~0xFFF#64 } else ringOf s f r)
      ∧ onlyRing f r s { t with hif := { t.hif with wbuf := s.hif.wbuf } } := by
  refine ⟨_, exec_registerWrite _ _ _ _ _ (by simp [Instr.wf, fnNum, hf]; omega), ?_⟩
  rw [registerWriteEffect_64 (s := setReply .nothing s) v hf hu (reg64_ringBase _ f hr), write64_ringBase _ _ _ hr, ofNat_page,
    ringOffWrite_setReply]
  exact ⟨ringOffWrite_ringOf f r (fun q => { q with sqBase := v &&& ~~~0xFFF#64 }) s, ringOffWrite_onlyRing f r _ _ s⟩

/-! ### Counted accesses (R3, R5) -/

theorem setReply_modFn_onlyFn (rep : Reply) (f : Nat) (g : Fn → Fn) (s : State) : onlyFn f s (setReply rep (modFn f g s)) :=
  ⟨rfl, fun h hh => by simp [hh]⟩

theorem badSizeAccess_counted (s : State) {f bar off size : Nat} (hf : f ≤ 1025) (hu : hostUp s f = true) (hb : bar = 0 ∨ bar = 2)
    (hs : 0 < size) (h : badSize s f bar off size = true) :
    after (.badSizeAccess f bar off size) s fun t => t.reply = .data 0 ∧ onlyFn f s t
        ∧ fnOf t f = { fnOf s f with badAccess := satAdd 32 (fnOf s f).badAccess 1 } := by
  refine ⟨_, exec_badSizeAccess _ _ _ _ _ (by simp [Instr.wf, fnNum, hf, hs, hb]), ?_⟩
  simp only [badSizeEffect, when, hostUp_setReply, badSize_setReply, hu, h, Bool.and_self, ↓reduceIte]
  exact ⟨rfl, setReply_modFn_onlyFn _ f _ s, by simp [badAccess]⟩

theorem readDroppedDb_clears (s : State) {f : Nat} (hf : f ≤ 1025) (hu : hostUp s f = true) :
    after (.readDroppedDb f) s fun t => t.reply = .data (fnOf s f).droppedDb.toNat ∧ onlyFn f s t
        ∧ fnOf t f = { fnOf s f with droppedDb := 0 } := by
  refine ⟨_, exec_readDroppedDb _ _ (by simp [Instr.wf, fnNum, hf]), ?_⟩
  simp only [readDroppedDbEffect, when, hostUp_setReply, hu, ↓reduceIte]
  exact ⟨rfl, setReply_modFn_onlyFn _ f _ s, by simp⟩

theorem readBadAccess_clears (s : State) {f : Nat} (hf : f ≤ 1025) (hu : hostUp s f = true) :
    after (.readBadAccess f) s fun t => t.reply = .data (fnOf s f).badAccess.toNat ∧ onlyFn f s t
        ∧ fnOf t f = { fnOf s f with badAccess := 0 } := by
  refine ⟨_, exec_readBadAccess _ _ (by simp [Instr.wf, fnNum, hf]), ?_⟩
  simp only [readBadAccessEffect, when, hostUp_setReply, hu, ↓reduceIte]
  exact ⟨rfl, setReply_modFn_onlyFn _ f _ s, by simp⟩

/-! ### HOLD of an event group (R449, R455) -/

theorem registerWriteEffect_sumac {s : State} (off : Nat) (v : W64) (hrun : running s = true) :
    registerWriteEffect 1026 off 32 v s = (sumacWrite32 off v.toNat s).getD (notTaken s) :=
  (if_pos rfl).trans (if_pos ⟨rfl, hrun⟩)

theorem sumacWrite32_hold (s : State) (x : Nat) {k : Nat} (h2 : 2 ≤ k) (hk : k < 64) :
    sumacWrite32 (0x500 + 4 * k) x s = some (holdTimer k x (modGroup k (fun g => { g with hold := BitVec.ofNat 10 x }) s)) := by
  have hwake : arrayIx (0x500 + 4 * k) 0x400 4 64 = none := if_neg (by omega)
  have hhold : arrayIx (0x500 + 4 * k) 0x500 4 64 = some k := by
    rw [arrayIx, Nat.add_sub_cancel_left, Nat.mul_mod_right, Nat.mul_div_cancel_left k (by omega), if_pos ⟨by omega, rfl, hk⟩]
  rw [sumacWrite32, hwake, hhold]
  exact congrArg some (if_neg (by omega))

theorem holdTimer_claims {k x : Nat} {s : State} (h : (claimOf s (0x40 + k)).owner = 0) (hx : x % 2 ^ 10 ≠ 0) :
    holdTimer k x s = setClaim (0x40 + k) { func := 0, owner := 2 } s := if_pos ⟨h, hx⟩

theorem holdTimer_releases {k x : Nat} {s : State} (h : (claimOf s (0x40 + k)).owner = 2) (hx : x % 2 ^ 10 = 0) :
    holdTimer k x s = setClaim (0x40 + k) {} s := (if_neg fun e => e.2 hx).trans (if_pos ⟨h, hx⟩)

theorem holdTimer_claimOf_other (k x : Nat) (s : State) {j : Nat} (hj : j ≠ 0x40 + k) : claimOf (holdTimer k x s) j = claimOf s j := by
  unfold holdTimer
  dsimp only
  split
  · rw [setClaim_claimOf, if_neg hj]
  · split
    · rw [setClaim_claimOf, if_neg hj]
    · rfl

theorem holdTimer_frame (k x : Nat) (s : State) :
    holdTimer k x s = { s with rst := { s.rst with claims := (holdTimer k x s).rst.claims } } := by
  unfold holdTimer
  dsimp only
  split
  · rfl
  · split <;> rfl

theorem holdWrite_by_sumac (s : State) {k n : Nat} (hrun : running s = true) (h2 : 2 ≤ k) (hk : k < 64) (hn : n < 1024) :
    after (.registerWrite 1026 (0x500 + 4 * k) 32 (BitVec.ofNat 64 n)) s fun t =>
      groupOf t k = { groupOf s k with hold := BitVec.ofNat 10 n } ∧ (∀ j, j ≠ k → groupOf t j = groupOf s j)
        ∧ (∀ j, j ≠ 0x40 + k → claimOf t j = claimOf s j)
        ∧ ((claimOf s (0x40 + k)).owner = 0 → n ≠ 0 → claimOf t (0x40 + k) = { func := 0, owner := 2 })
        ∧ ((claimOf s (0x40 + k)).owner = 2 → n = 0 → claimOf t (0x40 + k) = {})
        ∧ t = { s with evc := t.evc, rst := { s.rst with claims := t.rst.claims }, reply := t.reply } := by
  have hx : (BitVec.ofNat 64 n).toNat = n := by rw [BitVec.toNat_ofNat]; omega
  have hmod : n % 2 ^ 10 = n := Nat.mod_eq_of_lt hn
  refine ⟨_, exec_registerWrite _ _ _ _ _ (by simp [Instr.wf]), ?_⟩
  rw [registerWriteEffect_sumac (s := setReply .nothing s) _ _ hrun, hx, sumacWrite32_hold _ _ h2 hk, Option.getD_some]
  refine ⟨?_, fun j hj => ?_, fun j hj => ?_, fun h0 hn0 => ?_, fun h0 hn0 => ?_, ?_⟩
  · rw [holdTimer_frame]; exact (modGroup_groupOf k _ _ k).trans (if_pos rfl)
  · rw [holdTimer_frame]; exact (modGroup_groupOf k _ _ j).trans (if_neg hj)
  · exact holdTimer_claimOf_other k n _ hj
  · rw [holdTimer_claims (s := modGroup k _ (setReply .nothing s)) h0 (by rwa [hmod]), setClaim_claimOf, if_pos rfl]
  · rw [holdTimer_releases (s := modGroup k _ (setReply .nothing s)) h0 (by rw [hmod, hn0]), setClaim_claimOf, if_pos rfl]
  · rw [holdTimer_frame]; rfl

/-- Settles O8: the base register's write, the three counted accesses, and Sumac's write of HOLD. -/
theorem registerAccesses : Obligations.RegisterAccesses := by
  unfold Obligations.RegisterAccesses
  refine ⟨fun s f hf hu => ⟨?_, ?_, ?_, ?_⟩, fun s k n hrun h2 hk hn => holdWrite_by_sumac s hrun h2 hk hn⟩
  · exact fun r v hr => ringBaseWrite_when_off s v hf hu hr
  · exact fun bar off size hb hs h => badSizeAccess_counted s hf hu hb hs h
  · exact readDroppedDb_clears s hf hu
  · exact readBadAccess_clears s hf hu

/-! ### The alternation of cores (R466), on a core table that lists a core twice -/

/-- Index 1 of a partition, aside with a RUN that it can go on with. -/
def asideIndex : Nat × CoreImage := (1, { core := { run := 2, pidx := 1 } })

/-- Core 0 serves indices 0 and 1 of partition 0 by turns; the WAIT words of RUNs 1 and 3 are registered, and their semaphore has reached
both values. The core table lists core 0 twice: the first entry, RUN 1, is the core; the second, RUN 3, is one that holds at its WAIT. -/
def coreListedTwice : State :=
  { rst := { phase := .running }
    hif := { fn := [(1, { assigned := true, part := 0 })] }
    parts := [(0, { coreList := [0], orphans := [(1, 0)], swapped := [asideIndex] })]
    saf := { cores := [(0, { run := 1 }), (0, { run := 3, held := true })] }
    sem := { waiters := [{ sem := 0, value := 0, consume := false, who := .word 1 0, fn := 1, ring := 0 },
                         { sem := 0, value := 0, consume := false, who := .word 3 0, fn := 1, ring := 0 }] } }

/-- The exchange abandons RUN 1's wait, so the waits left are served: RUN 3's is, and `wordCore` finds it at the second entry of core 0. The
word popped is the first of the index just taken up. -/
theorem alternation_pops_word_of_index_taken_up :
    (coreOf (coreAlternationTimeoutEffect 0 (setReply .nothing coreListedTwice)) 0).semSeen = 1 := by decide +kernel

/-- Refutes O50, in the clause that the alternation leaves core n as the image taken up has it: the statement does not ask that the core
table list each core once (keys strictly rising, as `tabWf` says of a table in canonical form). Where it lists core n twice, the wait of the
entry that `coreOf` does not see is served at core n, and the index just taken up loses its first word. -/
theorem not_groupsRecover : ¬ Obligations.GroupsRecover := by
  unfold Obligations.GroupsRecover
  rintro ⟨-, halternate⟩
  obtain ⟨t, ht, ⟨hcore, -⟩, -⟩ := halternate coreListedTwice 0 0 asideIndex (by decide) (by decide +kernel) (by decide +kernel)
    (by decide +kernel) (by decide +kernel) (by decide +kernel)
  rw [exec_coreAlternationTimeout _ _ (by decide)] at ht
  cases ht
  have hseen : 1 = 0 := alternation_pops_word_of_index_taken_up.symm.trans (congrArg Core.semSeen hcore)
  exact absurd hseen (by decide)

end Sys2Proof.Machine
end

section
/-!
COPY (04_tensor_layout_and_movement.md): what its reads and its writes leave alone, its accesses, the registers of its mover, its end.
-/
namespace Sys2Proof.Machine

/-! ### The effect of a read on the memories (R196, R199, R214, R461) -/

/-- Nothing differs but what reads report: memory and its error registers, events and fault records, the free values drawn, and which
words the groups of rings have lost and whose recovery is due. -/
structure onlyNoted (s t : State) : Prop where
  rest : t = { s with hif := t.hif, mem := t.mem, evc := t.evc, freeCtr := t.freeCtr }
  hif : t.hif = { s.hif with fn := t.hif.fn }
  fn : ∀ f, fnOf t f = { fnOf s f with rings := (fnOf t f).rings }
  ring : ∀ f r, ringOf t f r = { ringOf s f r with
    recover := (ringOf t f r).recover, faulted := (ringOf t f r).faulted, lost := (ringOf t f r).lost }

theorem onlyNoted.refl (s : State) : onlyNoted s s := ⟨rfl, rfl, fun _ => rfl, fun _ _ => rfl⟩

theorem onlyNoted.trans {s t u : State} (h : onlyNoted s t) (g : onlyNoted t u) : onlyNoted s u where
  rest := by have a := h.rest; have b := g.rest; rw [b, a]
  hif := by have a := h.hif; have b := g.hif; rw [b, a]
  fn f := by have a := h.fn f; have b := g.fn f; rw [b, a]
  ring f r := by have a := h.ring f r; have b := g.ring f r; rw [b, a]

theorem foldState_noted {α : Type} (l : List α) (f : α → State → State) (hf : ∀ a t, onlyNoted t (f a t)) (s : State) :
    onlyNoted s (foldState l f s) := by
  unfold foldState
  induction l generalizing s with
  | nil => exact .refl s
  | cons a l ih => exact (hf a s).trans (ih (f a s))

theorem mem_noted (s : State) (m : Memory) : onlyNoted s { s with mem := m } := ⟨rfl, rfl, fun _ => rfl, fun _ _ => rfl⟩
theorem evc_noted (s : State) (x : Events) : onlyNoted s { s with evc := x } := ⟨rfl, rfl, fun _ => rfl, fun _ _ => rfl⟩
theorem freeCtr_noted (s : State) (n : Nat) : onlyNoted s { s with freeCtr := n } := ⟨rfl, rfl, fun _ => rfl, fun _ _ => rfl⟩

theorem modRing_noted (f r : Nat) (g : Ring → Ring)
    (hg : ∀ q, g q = { q with recover := (g q).recover, faulted := (g q).faulted, lost := (g q).lost }) (s : State) :
    onlyNoted s (modRing f r g s) := by
  refine ⟨rfl, rfl, fun x => ?_, fun x y => ?_⟩
  · rw [modRing_fnOf]; split
    · subst x; rfl
    · rfl
  · rw [modRing_ringOf]; split
    · rename_i h; obtain ⟨rfl, rfl⟩ := h; exact hg _
    · rfl

theorem raise_noted (k : Nat) (s : State) : onlyNoted s (raise k s) := by
  unfold raise; split
  · exact .refl s
  · exact evc_noted s _

theorem loseWord_noted (p g off : Nat) (consumed : Bool) (s : State) : onlyNoted s (loseWord p g off consumed s) := by
  unfold loseWord; split
  · exact .refl s
  · split
    · exact .refl s
    · exact modRing_noted _ _ _ (fun q => by split <;> rfl) s

theorem startRecovery_noted (hard : Bool) (p : Nat) (s : State) : onlyNoted s (startRecovery hard p s) := by
  unfold startRecovery; split
  · exact .refl s
  · split
    · exact .refl s
    · exact (modRing_noted _ _ _ (fun _ => rfl) s).trans (raise_noted _ _)

theorem writeRecordOf_noted (r : FaultRec) (s : State) : onlyNoted s (writeRecordOf r s) :=
  ((freeCtr_noted s _).trans (evc_noted _ _)).trans (raise_noted _ _)

theorem faultAffects_noted (kind source unit : Nat) (detail : W64) (ps : List Nat) (s : State) :
    onlyNoted s (faultAffects kind source unit detail ps s) :=
  (writeRecordOf_noted _ s).trans (foldState_noted _ _ (fun p t => startRecovery_noted _ p t) _)

theorem noteWord_noted (p g off : Nat) (s : State) : onlyNoted s (noteWord p g off s) := by
  unfold noteWord
  dsimp only
  split
  case h_1 => exact .refl s
  case h_2 =>
    split
    · exact mem_noted s _
    · split
      · split
        · exact (mem_noted s _).trans (raise_noted _ _)
        · exact mem_noted s _
      · exact ((mem_noted s _).trans (loseWord_noted _ _ _ _ _)).trans (faultAffects_noted _ _ _ _ _ _)
      · exact ((mem_noted s _).trans (loseWord_noted _ _ _ _ _)).trans (startRecovery_noted _ _ _)

theorem countAt_noted (p : Nat) (l : List Nat) (s : State) : onlyNoted s (countAt p l s) :=
  foldState_noted _ _ (fun _ t => mem_noted t _) s

theorem devReport_noted (p x n : Nat) (s : State) : onlyNoted s (devReport p x n s) :=
  foldState_noted _ _ (fun a t => by
    split
    · exact .refl t
    · exact noteWord_noted _ _ _ t) s

theorem farRetry_noted (a : Nat) (s : State) : onlyNoted s (farRetry a s) := (freeCtr_noted s _).trans (mem_noted _ _)

theorem farNote_noted (p x n : Nat) (s : State) : onlyNoted s (farNote p x n s) := by
  have hlost : ∀ bad : List Nat, onlyNoted s (foldState bad (fun b => loseWord p 4096 b true)
      (foldState bad (fun b => modFarPort (farPortAt s b) fun q => { q with poisonReads := satAdd 16 q.poisonReads 1 }) s)) := fun bad =>
    (foldState_noted _ _ (fun _ t => mem_noted t _) s).trans (foldState_noted _ _ (fun _ t => loseWord_noted _ _ _ _ t) _)
  unfold farNote
  dsimp only
  refine onlyNoted.trans ?_ (farRetry_noted _ _)
  split
  · exact hlost _
  · exact (hlost _).trans (faultAffects_noted _ _ _ _ _ _)

theorem spNote_noted (x : Cmd) (t : TDesc) (l : List (Nat × Nat)) (s : State) : onlyNoted s (spNote x t l s) := by
  unfold spNote
  dsimp only
  split
  · exact (foldState_noted _ _ (fun _ u => devReport_noted _ _ _ u) s).trans (countAt_noted _ _ _)
  · exact foldState_noted _ _ (fun _ u => farNote_noted _ _ _ u) s
  · exact .refl s

theorem bodyNote_noted (x : Cmd) (host : Bool) (a n : Nat) (s : State) : onlyNoted s (bodyNote x host a n s) := by
  unfold bodyNote; split
  · exact .refl s
  · exact (devReport_noted _ _ _ s).trans (countAt_noted _ _ _)

theorem noteIndex_noted (x : Cmd) (d : Sum SideFlt TDesc) (s : State) : onlyNoted s (noteIndex x d s) := by
  unfold noteIndex; split
  · exact .refl s
  · split
    · exact spNote_noted _ _ _ s
    · exact .refl s

theorem noteIndexes_noted (x : Cmd) (a b : Sum SideFlt TDesc) (st : Status) (s : State) : onlyNoted s (noteIndexes x a b st s) := by
  unfold noteIndexes; split
  · exact .refl s
  · exact (noteIndex_noted x a s).trans (noteIndex_noted x b _)

theorem noteReads_noted (x : Cmd) (src dst : TDesc) (items kept : List Item) (s : State) :
    onlyNoted s (noteReads x src dst items kept s) := by
  have hsrc := spNote_noted x src (readSpans src (items.filterMap (·.src))) s
  unfold noteReads
  dsimp only
  generalize (if dst.reduce then items else kept) = back
  split
  · exact hsrc
  · exact hsrc.trans (spNote_noted _ _ _ _)

section
variable {s t : State} (h : onlyNoted s t)
include h

theorem onlyNoted.mov : t.mov = s.mov := by rw [h.rest]
theorem onlyNoted.reply : t.reply = s.reply := by rw [h.rest]
theorem onlyNoted.cmdOf (c : Nat) : cmdOf t c = cmdOf s c := by unfold Machine.cmdOf; rw [h.hif]
theorem onlyNoted.partOf (p : Nat) : partOf t p = partOf s p := by unfold Machine.partOf; rw [h.rest]
theorem onlyNoted.running : running t = running s := by unfold Machine.running; rw [h.rest]
theorem onlyNoted.homeOf (f : Nat) : homeOf t f = homeOf s f := by unfold Machine.homeOf; rw [h.fn f]
theorem onlyNoted.job (f r : Nat) : (ringOf t f r).job = (ringOf s f r).job := by rw [h.ring f r]

/-- A read that is reported leaves a command as ready for its effect as it was: no job leaves the engines for it. -/
theorem onlyNoted.classReady (c cls : Nat) : classReady t c cls = classReady s c cls := by
  simp only [Machine.classReady, jobRuns, h.cmdOf, h.running, h.partOf, h.homeOf, h.job]
end

theorem classReady_setFetched (y : Option Fetched) (s : State) (c cls : Nat) :
    classReady (modCmd c (fun x => { x with fetched := y }) s) c cls = classReady s c cls := by
  simp only [classReady, modCmd_cmdOf, if_pos]; rfl

/-! ### Writes leave the movers alone -/

theorem foldState_mov {α : Type} (l : List α) (f : α → State → State) (hf : ∀ a t, (f a t).mov = t.mov) (s : State) :
    (foldState l f s).mov = s.mov := by
  unfold foldState
  induction l generalizing s with
  | nil => rfl
  | cons a l ih => exact (ih (f a s)).trans (hf a s)

theorem noteWrote_mov (p kind a n : Nat) (s : State) : (noteWrote p kind a n s).mov = s.mov := by
  unfold noteWrote; split <;> rfl

theorem writeWord_mov (g off lo : Nat) (bs : List Byte) (s : State) : (writeWord g off lo bs s).mov = s.mov := by
  have hn : (noteWord 64 g off s).mov = s.mov := (noteWord_noted 64 g off s).mov
  unfold writeWord
  split
  · rfl
  · dsimp only; split <;> exact hn

theorem devPut_mov (p x : Nat) (bs : List Byte) (s : State) : (devPut p x bs s).mov = s.mov := by
  refine (countAt_noted p _ _).mov.trans ((noteWrote_mov _ _ _ _ _).trans (foldState_mov _ _ (fun e t => ?_) s))
  dsimp only
  split
  · rfl
  · exact writeWord_mov _ _ _ _ t

theorem devPoisonSector_mov (p x : Nat) (s : State) : (devPoisonSector p x s).mov = s.mov := by
  refine (noteWrote_mov _ _ _ _ _).trans (foldState_mov _ _ (fun a t => ?_) s)
  split <;> rfl

theorem farPut_mov (p x : Nat) (bs : List Byte) (s : State) : (farPut p x bs s).mov = s.mov := by
  refine (noteWrote_mov _ _ _ _ _).trans (foldState_mov _ _ (fun e t => ?_) s)
  dsimp only
  split <;> rfl

theorem farPoisonSector_mov (p x : Nat) (s : State) : (farPoisonSector p x s).mov = s.mov := noteWrote_mov _ _ _ _ _

theorem sealedPut_mov (f b a : Nat) (bs : List Byte) (s : State) : (sealedPut f b a bs s).mov = s.mov := by
  refine foldState_mov _ _ (fun e t => ?_) s
  dsimp only
  split
  · rfl
  · split <;> rfl

theorem hostPut_mov (f a : Nat) (bs : List Byte) (s : State) : (hostPut f a bs s).mov = s.mov := by
  unfold hostPut; split
  · rfl
  · exact foldState_mov _ _ (fun e t => sealedPut_mov _ _ _ _ t) s

theorem modIndexSpad_mov (p i : Nat) (g : Space → Space) (s : State) : (modIndexSpad p i g s).mov = s.mov := by
  unfold modIndexSpad; split
  · rfl
  · split <;> rfl

theorem spWrite_mov (x : Cmd) (t : TDesc) (a : Nat) (bs : List Byte) (s : State) : (spWrite x t a bs s).mov = s.mov := by
  unfold spWrite
  dsimp only
  split
  · exact modIndexSpad_mov _ _ _ s
  · rfl
  · exact devPut_mov _ _ _ s
  · exact farPut_mov _ _ _ s
  · exact hostPut_mov _ _ _ s

theorem spPoison_mov (x : Cmd) (t : TDesc) (a : Nat) (s : State) : (spPoison x t a s).mov = s.mov := by
  unfold spPoison
  dsimp only
  split
  · exact modIndexSpad_mov _ _ _ s
  · rfl
  · exact devPoisonSector_mov _ _ s
  · exact farPoisonSector_mov _ _ s
  · rfl

theorem storeOut_mov (x : Cmd) (dst : TDesc) (o : Out) (s : State) : (storeOut x dst o s).mov = s.mov :=
  (foldState_mov _ _ (fun a t => spPoison_mov x dst a t) _).trans (foldState_mov _ _ (fun (e : Nat × List Byte) t => spWrite_mov x dst e.1 e.2 t) _)

theorem scatterFree_mov (x : Cmd) (dst : TDesc) (items : List Item) (s : State) : (scatterFree x dst items s).mov = s.mov :=
  foldState_mov _ _ (fun _ t => spWrite_mov x dst _ _ t) _

theorem chosenMover_congr {s t : State} (h : t.mov = s.mov) : chosenMover t = chosenMover s := by
  unfold chosenMover moverOf; rw [h]
theorem moverOf_congr {s t : State} (h : t.mov = s.mov) (m : Nat) : moverOf t m = moverOf s m := by
  unfold moverOf; rw [h]

/-! ### The accesses of a command (R201, R207, R215, R239) -/

theorem withAccess_of_clear {s : State} {key p : Nat} {l far : List (Nat × Nat)} (h : accessClear s key p l far)
    (go : State → State) : withAccess key p l far go s = go s := by
  obtain ⟨hmoving, hcapped, hheld, hasked, hdeferred⟩ := h
  simp [withAccess, hmoving, hcapped, hheld, hasked, hdeferred]

/-- Deferrals counted at banks touch the counters of Cloves alone. -/
theorem countDeferrals_frame (banks : List Nat) (s : State) :
    let t := foldState banks (fun g s => modClove g (fun x => { x with deferredCount := satAdd 64 x.deferredCount 1 }) s) s
    t = { s with clv := t.clv } ∧ ∀ g, cloveOf t g = { cloveOf s g with deferredCount := (cloveOf t g).deferredCount } := by
  unfold foldState
  induction banks generalizing s with
  | nil => exact ⟨rfl, fun _ => rfl⟩
  | cons b banks ih =>
    obtain ⟨hrest, hclove⟩ := ih (modClove b (fun x => { x with deferredCount := satAdd 64 x.deferredCount 1 }) s)
    refine ⟨hrest, fun g => (hclove g).trans ?_⟩
    rw [modClove_cloveOf]
    split
    · subst g; rfl
    · rfl

theorem withAccess_asks {s : State} {key p : Nat} {l far : List (Nat × Nat)} (h : accessDefers s key p l far) (go : State → State) :
    accessAsked key (devDeferred s p l) s (withAccess key p l far go s) := by
  obtain ⟨hmoving, hcapped, hheld, hasked, hdeferred⟩ := h
  obtain ⟨hrest, hclove⟩ := countDeferrals_frame (devDeferred s p l)
    { s with mem := { s.mem with asked := tabSet none s.mem.asked key (some (devDeferred s p l).eraseDups) } }
  simp only [withAccess, hmoving, hcapped, hheld, hasked, hdeferred, Bool.false_eq_true, or_self, if_false]
  generalize foldState (devDeferred s p l) _ _ = t at hrest hclove ⊢
  obtain ⟨clv, rfl⟩ : ∃ clv, t = { s with mem := { s.mem with
      asked := tabSet none s.mem.asked key (some (devDeferred s p l).eraseDups) }, clv := clv } := ⟨_, hrest⟩
  exact ⟨by simp, fun k hk => by simp [hk], hclove, rfl⟩

/-! ### The registers of a COPY's mover (R148) -/

/-- The note of a COPY's end differs from the state before it in the movers and the free values drawn alone. -/
theorem noteMover_frame (st : Status) (f : Option SideFlt) (elem bytes : Nat) (s : State) :
    noteMover st f elem bytes s
      = { s with mov := (noteMover st f elem bytes s).mov, freeCtr := (noteMover st f elem bytes s).freeCtr } := by
  unfold noteMover; split <;> rfl

theorem noteMover_moverOf {s : State} {m : Nat} (h : chosenMover s = some m) (st : Status) (f : Option SideFlt) (elem bytes : Nat) :
    moverOf (noteMover st f elem bytes s) m = { moverOf s m with
      lastStatus := BitVec.ofNat 8 (statusCode st)
      faultStatus := (f.map fun e => BitVec.ofNat 8 (statusCode e.2.1)).getD (moverOf s m).faultStatus
      faultSide := (f.map (·.1)).getD (moverOf s m).faultSide
      faultCause := (f.map fun e => BitVec.ofNat 12 e.2.2).getD (moverOf s m).faultCause
      faultElem := (f.map fun _ => BitVec.ofNat 64 elem).getD (moverOf s m).faultElem
      bytes := (moverOf s m).bytes + BitVec.ofNat 64 bytes
      cycles := satAdd 64 (moverOf s m).cycles (draw s).1 } := by
  unfold noteMover; rw [h]
  simp [moverOf, modMover, draw]

theorem finish_mov (c : Nat) (st : Status) (cause result index : Nat) (flags : BitVec 4) (s : State) :
    (finish c st cause result index flags s).mov = s.mov := by
  rw [(finish_end c st cause result index flags s).rest]

/-- A COPY's end touches what the end of any command does, its mover, and the free value of the mover's cycles. -/
theorem finish_noteMover_onlyEnd (c : Nat) (st st' : Status) (cause result index : Nat) (flags : BitVec 4) (f : Option SideFlt)
    (elem bytes : Nat) (s : State) :
    let t := finish c st cause result index flags (noteMover st' f elem bytes s)
    onlyEnd c { s with mov := t.mov, freeCtr := t.freeCtr } t := by
  intro t
  have hend : onlyEnd c (noteMover st' f elem bytes s) t := finish_end ..
  have hstart : { s with mov := t.mov, freeCtr := t.freeCtr } = noteMover st' f elem bytes s := by
    rw [noteMover_frame st' f elem bytes s, hend.rest]
  rw [hstart]; exact hend

/-- A mover's registers show a fault found at an element. -/
def moverShows (t : State) (m : Nat) (f : SideFlt) (elem : Nat) : Prop :=
  (moverOf t m).faultStatus = BitVec.ofNat 8 (statusCode f.2.1) ∧ (moverOf t m).faultCause = BitVec.ofNat 12 f.2.2
    ∧ (moverOf t m).faultSide = f.1 ∧ (moverOf t m).faultElem = BitVec.ofNat 64 elem

theorem failCopy_ended (c : Nat) (f : SideFlt) (elem bytes : Nat) (flags : BitVec 4) (s : State) :
    ended (failCopy c f elem bytes flags s) c f.2.1 f.2.2 elem 0 := finish_ended ..

theorem failCopy_moverShows {s : State} {m : Nat} (h : chosenMover s = some m) (c : Nat) (f : SideFlt) (elem bytes : Nat)
    (flags : BitVec 4) : moverShows (failCopy c f elem bytes flags s) m f elem := by
  unfold moverShows failCopy
  simp [moverOf_congr (finish_mov ..), noteMover_moverOf h]

/-! ### The checks of a COPY (R10, R123) -/

theorem firstSided_append_true (l : List (Bool × Nat × Status × Nat)) (f : SideFlt) : ∃ g, firstSided (l ++ [(true, f)]) = some g := by
  unfold firstSided
  rw [List.filter_append, List.foldl_append]
  generalize List.foldl _ none _ = b
  cases b with
  | none => exact ⟨f, rfl⟩
  | some y =>
    by_cases hrank : statusRank f.2.1 < statusRank y.2.1
    · exact ⟨f, if_pos hrank⟩
    · exact ⟨y, if_neg hrank⟩

theorem copyCheck_of_moverless {s : State} (h : chosenMover s = none) (x : Cmd) (a b : Sum SideFlt TDesc) :
    ∃ f, copyCheck s x a b = some f := by
  unfold copyCheck
  dsimp only
  split
  · exact ⟨_, rfl⟩
  · rw [h]; exact firstSided_append_true _ _

/-! ### COPY as its state and its checks decide it -/

/-- The rounding that a COPY asks for (R140). -/
def copyRnd (x : Cmd) : Rnd := { mode := roundMode x, seed := field x 24 8, stream := field x 32 8 }

/-- What a COPY writes: the bytes of its plan with their summaries. -/
def copyOut (s : State) (x : Cmd) (src dst : TDesc) (sidx didx : List Int) : Out :=
  outSummaries dst (copyItems src dst sidx didx ++ paddingItems dst (product (copyShape src dst)))
    (copyPlan s x (copyRnd x) src dst sidx didx).out

/-- What the start of a COPY holds of its descriptors and its index tensors. -/
def copyFetched (s : State) (x : Cmd) (src dst : TDesc) : Fetched :=
  { src := (bodyGet s x (bit (field x 40 1) 3) (field x 8 8) 128).2.1
    dst := (bodyGet s x (bit (field x 40 1) 4) (field x 16 8) 128).2.1
    sidx := indexList s x src, didx := indexList s x dst }

/-- The state with the descriptors of a COPY read. -/
def copyRead (s : State) (x : Cmd) : State :=
  bodyNote x (bit (field x 40 1) 3) (field x 8 8) 128 (bodyNote x (bit (field x 40 1) 4) (field x 16 8) 128 s)

def copySrc (s : State) (x : Cmd) : Sum SideFlt TDesc := tdescRead s x (bit (field x 40 1) 3) (field x 8 8) 0
def copyDst (s : State) (x : Cmd) : Sum SideFlt TDesc := tdescRead s x (bit (field x 40 1) 4) (field x 16 8) 1

/-- The state of a COPY whose checks pass, before its data: what it has read, held by the command. -/
def copyHolds (c : Nat) (x : Cmd) (src dst : TDesc) (s : State) : State :=
  modCmd c (fun z => { z with fetched := some (copyFetched s x src dst) })
    (noteIndexes x (copySrc s x) (copyDst s x) .ok (copyRead s x))

theorem copyRead_noted (s : State) (x : Cmd) : onlyNoted s (copyRead s x) :=
  (bodyNote_noted _ _ _ _ s).trans (bodyNote_noted _ _ _ _ _)

section
variable {s : State} {c : Nat} (hready : classReady s c 0x01 = true)
include hready

theorem copyEffect_starts (hx : (cmdOf s c).fetched = none)
    (hheld : hostHeld s (cmdOf s c).fn (bit (field (cmdOf s c) 40 1) 3 || bit (field (cmdOf s c) 40 1) 4) = false) :
    copyEffect c s = withAccess (2 * c) (homeOf s (cmdOf s c).fn) (copyStartTouches s (cmdOf s c)) [] (copyStart c (cmdOf s c)) s := by
  simp [copyEffect, hready, hx, hheld]

theorem copyEffect_goes_on {y : Fetched} (hy : (cmdOf s c).fetched = some y) : copyEffect c s = copyData c (cmdOf s c) y s := by
  simp [copyEffect, hready, hy]
end

theorem copyStart_refused {s : State} {x : Cmd} {f : SideFlt} (c : Nat) (h : copyCheck s x (copySrc s x) (copyDst s x) = some f) :
    copyStart c x s = failCopy c f 0 0 0 (noteIndexes x (copySrc s x) (copyDst s x) f.2.1 (copyRead s x)) := by
  unfold copySrc copyDst at h
  simp only [copyStart, h]; rfl

theorem copyStart_passes {s : State} {x : Cmd} {src dst : TDesc} (c : Nat) (h : copyCheck s x (copySrc s x) (copyDst s x) = none)
    (ha : copySrc s x = .inr src) (hb : copyDst s x = .inr dst) :
    copyStart c x s = goOn (fun t => copyData c (cmdOf t c) (copyFetched s x src dst) t) (copyHolds c x src dst s) := by
  unfold copyHolds
  rw [ha, hb] at h ⊢
  unfold copySrc at ha
  unfold copyDst at hb
  simp only [copyStart, ha, hb, h]; rfl

theorem modCmd_congr {c : Nat} {g g' : Cmd → Cmd} {s : State} (h : g (cmdOf s c) = g' (cmdOf s c)) : modCmd c g s = modCmd c g' s := by
  unfold cmdOf at h
  unfold modCmd tabMod; rw [h]

/-- The command that comes to hold what was read is, for all the reads note, still the one that started. -/
theorem copyHolds_eq_modCmd {s : State} {c : Nat} {x : Cmd} {src dst : TDesc} (hx : cmdOf s c = x) {g : Cmd → Cmd}
    (hg : g x = { x with fetched := some (copyFetched s x src dst) }) :
    copyHolds c x src dst s = modCmd c g (noteIndexes x (copySrc s x) (copyDst s x) .ok (copyRead s x)) := by
  have hcmd := ((copyRead_noted s x).trans (noteIndexes_noted x (copySrc s x) (copyDst s x) .ok _)).cmdOf c
  exact modCmd_congr (by rw [hcmd, hx, hg])

theorem copyHolds_fetched (c : Nat) (src dst : TDesc) (s : State) (x : Cmd) :
    (cmdOf (copyHolds c x src dst s) c).fetched = some (copyFetched s x src dst) := by
  simp [copyHolds]

theorem copyHolds_ready {s : State} {c : Nat} (hready : classReady s c 0x01 = true) (x : Cmd) (src dst : TDesc) :
    classReady (copyHolds c x src dst s) c 0x01 = true := by
  rw [copyHolds, classReady_setFetched, ((copyRead_noted s x).trans (noteIndexes_noted _ _ _ _ _)).classReady, hready]

theorem copyHolds_reply (c : Nat) (x : Cmd) (src dst : TDesc) (s : State) : (copyHolds c x src dst s).reply = s.reply :=
  ((copyRead_noted s x).trans (noteIndexes_noted _ _ _ _ _)).reply

theorem copyData_moverless {s : State} (h : chosenMover s = none) (c : Nat) (x : Cmd) (y : Fetched) :
    copyData c x y s = failCopy c (3, .unrecovered, 0x150) 0 0 0 s := by
  simp [copyData, h]

theorem copyData_accesses {s : State} {x : Cmd} {y : Fetched} {m : Nat} (h : chosenMover s = some m)
    (hheld : hostHeld s x.fn ((tdescOf y.src).space = 4 || (tdescOf y.dst).space = 4) = false) (c : Nat) :
    copyData c x y s = withAccess (2 * c) (homeOf s x.fn) (copyTouches 2 (tdescOf y.src) (tdescOf y.dst) y.sidx y.didx)
      (copyTouches 3 (tdescOf y.src) (tdescOf y.dst) y.sidx y.didx)
      (runCopy c x (tdescOf y.src) (tdescOf y.dst) y.sidx y.didx) s := by
  simp [copyData, h, hheld]

section
variable {s : State} {x : Cmd} {src dst : TDesc} {sidx didx : List Int}

/-- A fault at an element ends a COPY; of the state, its destination's bytes aside, the movers are as they were. -/
theorem runCopy_faults {k : Nat} {f : SideFlt} (c : Nat) (h : (copyPlan s x (copyRnd x) src dst sidx didx).fault = some (k, f)) :
    ∃ u flags, u.mov = s.mov ∧ runCopy c x src dst sidx didx s = failCopy c f k 0 flags u := by
  unfold copyRnd at h
  refine ⟨_, _, ?_, by simp only [runCopy, h]; rfl⟩
  rw [scatterFree_mov, (noteReads_noted ..).mov]

theorem runCopy_stores (c : Nat) (hfault : (copyPlan s x (copyRnd x) src dst sidx didx).fault = none)
    (hdead : deadWrite s x dst (copyItems src dst sidx didx) (copyOut s x src dst sidx didx) = none)
    (hpoison : (copyPlan s x (copyRnd x) src dst sidx didx).poisonAt = none)
    (hrefused : hostRefused s x dst (outRuns s x dst (copyOut s x src dst sidx didx)) = false) :
    runCopy c x src dst sidx didx s =
      (let out := copyOut s x src dst sidx didx
      finish c .ok 0 out.bytes.length 0 out.flags (noteMover (okStatus x.replayed .ok) none 0 out.bytes.length
        (storeOut x dst out (noteReads x src dst (copyItems src dst sidx didx) (copyPlan s x (copyRnd x) src dst sidx didx).kept s)))) := by
  unfold copyOut copyRnd at *
  simp only [runCopy, hfault, hdead, hpoison, hrefused]
end

/-! ### How a COPY ends (R148, R342) -/

/-- A COPY that a check refuses: nothing is written, and its mover shows the fault. -/
theorem copyStart_refused_ends {s : State} {x : Cmd} {f : SideFlt} (c : Nat) (h : copyCheck s x (copySrc s x) (copyDst s x) = some f) :
    let t := copyStart c x s
    ended t c f.2.1 f.2.2 0 0 ∧ (∀ m, chosenMover s = some m → moverShows t m f 0)
      ∧ onlyEnd c { noteIndexes x (copySrc s x) (copyDst s x) f.2.1 (copyRead s x) with mov := t.mov, freeCtr := t.freeCtr } t := by
  have hmov := ((copyRead_noted s x).trans (noteIndexes_noted x (copySrc s x) (copyDst s x) f.2.1 _)).mov
  rw [copyStart_refused c h]
  exact ⟨failCopy_ended .., fun m hm => failCopy_moverShows ((chosenMover_congr hmov).trans hm) .., finish_noteMover_onlyEnd ..⟩

section
variable {s : State} {x : Cmd} {src dst : TDesc} {sidx didx : List Int} {m : Nat} (hm : chosenMover s = some m) (c : Nat)
include hm

theorem runCopy_faults_ends {k : Nat} {f : SideFlt} (h : (copyPlan s x (copyRnd x) src dst sidx didx).fault = some (k, f)) :
    let t := runCopy c x src dst sidx didx s
    ended t c f.2.1 f.2.2 k 0 ∧ moverShows t m f k := by
  obtain ⟨u, flags, hmov, hrun⟩ := runCopy_faults c h
  rw [hrun]
  exact ⟨failCopy_ended .., failCopy_moverShows ((chosenMover_congr hmov).trans hm) ..⟩

/-- A COPY that nothing stops: what its plan makes of the source is stored, and its mover counts the bytes and shows no fault of it. -/
theorem runCopy_stores_ends (hfault : (copyPlan s x (copyRnd x) src dst sidx didx).fault = none)
    (hdead : deadWrite s x dst (copyItems src dst sidx didx) (copyOut s x src dst sidx didx) = none)
    (hpoison : (copyPlan s x (copyRnd x) src dst sidx didx).poisonAt = none)
    (hrefused : hostRefused s x dst (outRuns s x dst (copyOut s x src dst sidx didx)) = false) :
    let out := copyOut s x src dst sidx didx
    let w := storeOut x dst out
      (noteReads x src dst (copyItems src dst sidx didx) (copyPlan s x (copyRnd x) src dst sidx didx).kept s)
    let t := runCopy c x src dst sidx didx s
    ended t c .ok 0 out.bytes.length 0 ∧ (cmdOf t c).flags = out.flags
      ∧ (moverOf t m).faultStatus = (moverOf w m).faultStatus ∧ (moverOf t m).faultCause = (moverOf w m).faultCause
      ∧ (moverOf t m).faultSide = (moverOf w m).faultSide ∧ (moverOf t m).faultElem = (moverOf w m).faultElem
      ∧ (moverOf t m).bytes = (moverOf w m).bytes + BitVec.ofNat 64 out.bytes.length
      ∧ onlyEnd c { w with mov := t.mov, freeCtr := t.freeCtr } t := by
  intro out w t
  have hchosen : chosenMover w = some m :=
    (chosenMover_congr ((storeOut_mov ..).trans (noteReads_noted ..).mov)).trans hm
  have hrun : t = finish c .ok 0 out.bytes.length 0 out.flags (noteMover (okStatus x.replayed .ok) none 0 out.bytes.length w) :=
    runCopy_stores c hfault hdead hpoison hrefused
  have hmover : moverOf t m = moverOf (noteMover (okStatus x.replayed .ok) none 0 out.bytes.length w) m := by
    rw [hrun]; exact moverOf_congr (finish_mov ..) m
  rw [hmover, noteMover_moverOf hchosen, hrun]
  exact ⟨finish_ended .., by rw [finish_cmdOf], rfl, rfl, rfl, rfl, rfl, finish_noteMover_onlyEnd ..⟩
end

/-! ### The command (R125, R159) -/

section
variable {s : State} {c : Nat} (hready : classReady s c 0x01 = true)
include hready

theorem exec_copy_unfetched (hx : (cmdOf s c).fetched = none)
    (hheld : hostHeld s (cmdOf s c).fn (bit (field (cmdOf s c) 40 1) 3 || bit (field (cmdOf s c) 40 1) 4) = false) :
    exec (.copy c) s = .next (withAccess (2 * c) (homeOf s (cmdOf s c).fn) (copyStartTouches s (cmdOf s c)) []
      (copyStart c (cmdOf s c)) (setReply .nothing s)) := by
  rw [exec_copy c s rfl, copyEffect_starts (s := setReply .nothing s) hready hx hheld]; rfl

theorem exec_copy_fetched {y : Fetched} (hy : (cmdOf s c).fetched = some y) :
    exec (.copy c) s = .next (copyData c (cmdOf s c) y (setReply .nothing s)) := by
  rw [exec_copy c s rfl, copyEffect_goes_on (s := setReply .nothing s) hready hy]; rfl
end

/-- A COPY goes on to its data at once: what it does there is what the command would do in the state that holds what was read. -/
theorem copyHolds_exec {s : State} {c : Nat} (hready : classReady s c 0x01 = true) (x : Cmd) (src dst : TDesc) :
    let w := copyHolds c x src dst (setReply .nothing s)
    exec (.copy c) w = .next (copyData c (cmdOf w c) (copyFetched (setReply .nothing s) x src dst) w) := by
  intro w
  have hreply : setReply .nothing w = w := by
    have h : w.reply = .nothing := copyHolds_reply ..
    unfold setReply; rw [← h]
  rw [exec_copy_fetched (copyHolds_ready (s := setReply .nothing s) hready x src dst) (copyHolds_fetched ..)]
  exact congrArg (fun u => Host.Outcome.next (copyData c (cmdOf w c) _ u)) hreply

/-- Settles O51: a COPY at its start, and one that holds what it has read, each by what holds its accesses and what its checks and its
plan find. -/
theorem copiesComplete : Obligations.CopiesComplete := by
  unfold Obligations.CopiesComplete
  intro s c hready x p v
  refine ⟨fun hx hheld => ?_, fun y hy => ?_⟩
  · have hstart : exec (.copy c) s = .next (withAccess (2 * c) p (copyStartTouches v x) [] (copyStart c x) v) :=
      exec_copy_unfetched hready hx hheld
    refine ⟨fun hclear => ⟨fun src dst hcheck ha hb => ⟨copyHolds c x src dst v, ?_, _, copyHolds_exec hready x src dst, ?_⟩, fun f hf => ?_,
      fun hm => copyCheck_of_moverless (s := v) hm ..⟩, fun hdefers => ⟨_, hstart, withAccess_asks (s := v) hdefers _⟩⟩
    · exact copyHolds_eq_modCmd (s := v) rfl rfl
    · rw [hstart, withAccess_of_clear (s := v) hclear, copyStart_passes (s := v) c hcheck ha hb]; rfl
    · obtain ⟨hended, hshows, honly⟩ := copyStart_refused_ends (s := v) c hf
      refine ⟨_, hstart, ?_⟩
      rw [withAccess_of_clear (s := v) hclear]
      refine ⟨hended, fun m hm => ?_, honly⟩
      obtain ⟨hstatus, hcause, hside, -⟩ := hshows m hm
      exact ⟨hstatus, hcause, hside⟩
  · have hdata := exec_copy_fetched hready hy
    refine ⟨fun hm => ⟨_, hdata, ?_⟩, fun m hm hheld => ?_⟩
    · rw [copyData_moverless (s := v) hm]; exact failCopy_ended ..
    · rw [copyData_accesses (s := v) hm hheld] at hdata
      refine ⟨fun hdefers => ⟨_, hdata, withAccess_asks (s := v) hdefers _⟩, fun hclear => ?_⟩
      rw [withAccess_of_clear (s := v) (p := homeOf v x.fn) hclear] at hdata
      exact ⟨fun k f hf => ⟨_, hdata, runCopy_faults_ends (s := v) hm c hf⟩, fun hfault hdead hpoison hrefused =>
        ⟨_, hdata, runCopy_stores_ends (s := v) hm c hfault hdead hpoison hrefused⟩⟩

end Sys2Proof.Machine
end

section
/-!
Semaphores (05_memory_model.md): what an add, a wait that arrives and a wait that is satisfied change, and what they leave alone.
-/
namespace Sys2Proof.Machine

/-! ### Frames of a decision of the scheduler and of the end of a command -/

theorem onlySched.sem {s t : State} (h : onlySched s t) : t.sem = s.sem := by rw [h.rest]
theorem onlySched.mem {s t : State} (h : onlySched s t) : t.mem = s.mem := by rw [h.rest]
theorem onlySched.cmdOf {s t : State} (h : onlySched s t) (c : Nat) : cmdOf t c = cmdOf s c := by unfold Machine.cmdOf; rw [h.hif]
theorem onlyEnd.sem {c : Nat} {s t : State} (h : onlyEnd c s t) : t.sem = s.sem := by rw [h.rest]
theorem onlyEnd.mem {c : Nat} {s t : State} (h : onlyEnd c s t) : t.mem = s.mem := by rw [h.rest]

theorem modCmd_onlyEnd (c : Nat) (g : Cmd → Cmd) (s : State) : onlyEnd c s (modCmd c g s) :=
  ⟨rfl, rfl, rfl, fun _ => rfl, fun _ => rfl, fun _ _ => rfl, fun _ => rfl, fun d hd _ => by simp [hd]⟩

/-- Semaphores and memory are as they were, and so is each command that did not run, but for its count of applied operations (R177). -/
structure keepsEnded (s t : State) : Prop where
  sem : t.sem = s.sem
  mem : t.mem = s.mem
  cmd : ∀ d, (cmdOf s d).phase ≠ .running → cmdOf t d = { cmdOf s d with semDone := (cmdOf t d).semDone }

theorem keepsEnded.refl (s : State) : keepsEnded s s := ⟨rfl, rfl, fun _ _ => rfl⟩

theorem keepsEnded.trans {s t u : State} (h : keepsEnded s t) (g : keepsEnded t u) : keepsEnded s u where
  sem := g.sem.trans h.sem
  mem := g.mem.trans h.mem
  cmd d hd := by
    have hst := h.cmd d hd
    have htu := g.cmd d (by rw [hst]; exact hd)
    rw [htu, hst]

theorem onlySched.keepsEnded {s t : State} (h : onlySched s t) : keepsEnded s t :=
  ⟨h.sem, h.mem, fun d _ => by rw [h.cmdOf]⟩

/-- The end of a command that ran touches no other that did not. -/
theorem onlyEnd.keepsEnded {c : Nat} {s t : State} (h : onlyEnd c s t) (hc : (Machine.cmdOf s c).phase = .running) : keepsEnded s t :=
  ⟨h.sem, h.mem, fun d hd => by rw [h.cmd d (fun hdc => hd (hdc ▸ hc)) (.inl hd)]⟩

theorem noteSemOp_keepsEnded (c i : Nat) (s : State) : keepsEnded s (noteSemOp c i s) := by
  refine ⟨rfl, rfl, fun d _ => ?_⟩
  by_cases hd : d = c
  · subst hd; simp [noteSemOp]
  · simp [noteSemOp, hd]

theorem keepsEnded.ended {s t : State} (h : keepsEnded s t) {c : Nat} {st : Status} {cause result index : Nat}
    (he : ended s c st cause result index) : ended t c st cause result index := by
  unfold Machine.ended at he ⊢
  rw [h.cmd c (by rw [he.1]; decide)]; exact he

theorem keepsEnded.applied {s t : State} (h : keepsEnded s t) {c : Nat} (hc : (cmdOf s c).phase = .done) :
    (cmdOf t c).applied = (cmdOf s c).applied := by
  rw [h.cmd c (by rw [hc]; decide)]

/-! ### Values -/

theorem semVal_congr {s t : State} (h : t.sem = s.sem) (k : Nat) : semVal t k = semVal s k := by unfold semVal; rw [h]

theorem semVal_lt (s : State) (n : Nat) : semVal s n < 2 ^ 32 := BitVec.isLt _

theorem setSem_semVal (n v : Nat) (s : State) (k : Nat) : semVal (setSem n v s) k = if k = n then v % 2 ^ 32 else semVal s k := by
  unfold semVal setSem
  simp only [tabGet_tabSet]
  split
  · exact BitVec.toNat_ofNat ..
  · rfl

/-- The state once a wait has taken its value, where it consumes (R174). -/
def takeValue (w : Waiter) (s : State) : State := if w.consume then setSem w.sem (semVal s w.sem - w.value) s else s

theorem takeValue_rest (w : Waiter) (s : State) :
    takeValue w s = { s with sem := { s.sem with values := (takeValue w s).sem.values } } := by
  unfold takeValue; split <;> rfl

theorem takeValue_cmdOf (w : Waiter) (s : State) (c : Nat) : cmdOf (takeValue w s) c = cmdOf s c := by rw [takeValue_rest]; rfl
theorem takeValue_mem (w : Waiter) (s : State) : (takeValue w s).mem = s.mem := by rw [takeValue_rest]
theorem takeValue_waiters (w : Waiter) (s : State) : (takeValue w s).sem.waiters = s.sem.waiters := by rw [takeValue_rest]

theorem takeValue_semVal (w : Waiter) (s : State) :
    semVal (takeValue w s) w.sem = if w.consume then semVal s w.sem - w.value else semVal s w.sem := by
  unfold takeValue
  split
  · have := semVal_lt s w.sem
    rw [setSem_semVal, if_pos rfl]; omega
  · rfl

theorem takeValue_semVal_other (w : Waiter) (s : State) {k : Nat} (hk : k ≠ w.sem) : semVal (takeValue w s) k = semVal s k := by
  unfold takeValue
  split
  · rw [setSem_semVal, if_neg hk]
  · rfl

/-! ### A wait is satisfied (R174, R375) -/

/-- The holders once wait `w` is satisfied: its job is one of them, once, where the wait consumes. -/
def holdersWith (w : Waiter) (l : List Holder) : List Holder :=
  if w.consume then { sem := w.sem, fn := w.fn, ring := w.ring } :: l.filter (fun h => !(h.sem = w.sem && h.fn = w.fn && h.ring = w.ring))
  else l

theorem exists_holder_holdersWith {w : Waiter} (hw : w.consume = true) (l : List Holder) :
    ∃ h ∈ holdersWith w l, h.sem = w.sem ∧ h.fn = w.fn ∧ h.ring = w.ring :=
  ⟨_, by rw [holdersWith, if_pos hw]; exact List.mem_cons_self, rfl, rfl, rfl⟩

/-- The semaphores once `w` is satisfied, with the waits `l` left. -/
def grantWait (w : Waiter) (l : List Waiter) (s : State) : State :=
  { s with sem := { s.sem with waiters := l, holders := holdersWith w s.sem.holders } }

theorem grantWait_semVal (w : Waiter) (l : List Waiter) (s : State) (k : Nat) : semVal (grantWait w l s) k = semVal s k := rfl
theorem grantWait_cmdOf (w : Waiter) (l : List Waiter) (s : State) (c : Nat) : cmdOf (grantWait w l s) c = cmdOf s c := rfl

/-- What satisfying a wait does beside the semaphores is its job's going on and, for a SEM_WAIT, its end. -/
theorem satisfy_keepsEnded (w : Waiter) (s : State) : keepsEnded (grantWait w (s.sem.waiters.erase w) s) (satisfy w s) := by
  unfold satisfy
  extract_lets p s' m u
  have hraise : onlySched s s' := ite_sched (raise_sched _ s) (.refl s)
  have hu : keepsEnded (grantWait w (s.sem.waiters.erase w) s) u := by
    refine ⟨?_, hraise.mem, fun d _ => ?_⟩
    · rw [show u.sem = (grantWait w (s'.sem.waiters.erase w) s').sem from rfl]; unfold grantWait; rw [hraise.sem]
    · rw [show cmdOf u d = cmdOf s d from hraise.cmdOf d]; rfl
  refine hu.trans ?_
  split
  next c _ =>
    split
    · exact .refl u
    next hrun =>
      have hend := (markDone_end c .ok 0 0 0 0 u).trans (modCmd_onlyEnd c (fun x => { x with applied := true }) _)
      exact (hend.keepsEnded (Decidable.not_not.mp hrun)).trans (wakeJob_sched _ _).keepsEnded
  next c i _ =>
    split
    next n _ =>
      have hpop : keepsEnded u (modCore n popWait (spendCycles n u)) := ⟨rfl, rfl, fun _ _ => rfl⟩
      exact (hpop.trans (noteSemOp_keepsEnded c i _)).trans (wakeJob_sched _ _).keepsEnded
    · have hpop : ∀ g : Part → Part, keepsEnded u (modPart p g u) := fun _ => ⟨rfl, rfl, fun _ _ => rfl⟩
      exact ((hpop _).trans (noteSemOp_keepsEnded c i _)).trans (wakeJob_sched _ _).keepsEnded

/-! ### Waits are settled after an add (R174) -/

theorem settleSem_of_no_wait {s : State} {n : Nat} (h : s.sem.waiters.filter (fun w => w.sem = n) = []) : settleSem n s = s := by
  simp [settleSem, h, foldState]

section
variable {s : State} {n : Nat} {w : Waiter} (h : s.sem.waiters.filter (fun w => w.sem = n) = [w])
include h

theorem sem_of_filter_eq_singleton : w.sem = n := by
  have hw : w ∈ s.sem.waiters.filter (fun w => w.sem = n) := by rw [h]; exact List.mem_singleton_self w
  simpa using (List.mem_filter.mp hw).2

theorem settleSem_of_unmet_wait (hv : semVal s n < w.value) : settleSem n s = s := by
  cases hc : w.consume with
  | false => simp [settleSem, h, foldState, hc, Nat.not_le.mpr hv]
  | true => simp [settleSem, h, foldState, hc, Nat.not_le.mpr hv]

theorem settleSem_of_met_wait (hv : w.value ≤ semVal s n) : settleSem n s = satisfy w (takeValue w s) := by
  have hw := sem_of_filter_eq_singleton h
  cases hc : w.consume with
  | false => simp [settleSem, h, foldState, hc, hv, takeValue]
  | true => simp [settleSem, h, foldState, hc, hv, takeValue, hw]
end

/-! ### A command ends with its effect noted as applied (R177) -/

/-- Command `c` ends with OK, its effect applied once and for all. -/
def endApplied (c : Nat) (s : State) : State := finishOk c 0 (modCmd c (fun x => { x with applied := true }) s)

theorem endApplied_ended (c : Nat) (s : State) : ended (endApplied c s) c .ok 0 0 0 := finish_ended ..
theorem endApplied_applied (c : Nat) (s : State) : (cmdOf (endApplied c s) c).applied = true := by
  simp [endApplied, finishOk, finish_cmdOf]
theorem endApplied_onlyEnd (c : Nat) (s : State) : onlyEnd c s (endApplied c s) := (modCmd_onlyEnd c _ s).trans (finish_end ..)

/-! ### SEM_SIGNAL (R175, R377, R379) -/

/-- The state after an add by job `j`, with the waits still to be settled (R174, R375). -/
def addValue (n v : Nat) (j : Nat × Nat) (s : State) : State :=
  let u := setSem n (Nat.min (semVal s n + v) (2 ^ 32 - 1)) s
  { u with sem := { u.sem with holders := s.sem.holders.filter fun h => !(h.sem = n && h.fn = j.1 && h.ring = j.2) } }

theorem semAdd_eq (n v : Nat) (j : Nat × Nat) (s : State) :
    semAdd n v j s = reinherit (homeOf s j.1) (settleSem n (addValue n v j s)) := rfl

theorem addValue_semVal (n v : Nat) (j : Nat × Nat) (s : State) : semVal (addValue n v j s) n = Nat.min (semVal s n + v) (2 ^ 32 - 1) := by
  have hlt : Nat.min (semVal s n + v) (2 ^ 32 - 1) < 2 ^ 32 := Nat.lt_of_le_of_lt (Nat.min_le_right _ _) (by decide)
  exact (setSem_semVal ..).trans (by rw [if_pos rfl, Nat.mod_eq_of_lt hlt])

theorem addValue_semVal_other (v : Nat) (j : Nat × Nat) (s : State) {n k : Nat} (hk : k ≠ n) :
    semVal (addValue n v j s) k = semVal s k :=
  (setSem_semVal ..).trans (if_neg hk)

/-- In `u` command `c` has added to semaphore `n` and ended, and no wait has been settled yet. -/
structure hasSignalled (c n : Nat) (s u : State) : Prop where
  ended : ended u c .ok 0 0 0
  applied : (cmdOf u c).applied = true
  value : semVal u n = Nat.min (semVal s n + semAmount (cmdOf s c)) (2 ^ 32 - 1)
  others : ∀ k, k ≠ n → semVal u k = semVal s k
  waiters : u.sem.waiters = s.sem.waiters
  mem : u.mem = s.mem

theorem hasSignalled.trans {c n : Nat} {s u t : State} (h : hasSignalled c n s u) (g : keepsEnded u t) : hasSignalled c n s t where
  ended := g.ended h.ended
  applied := (g.applied h.ended.1).trans h.applied
  value := (semVal_congr g.sem n).trans h.value
  others k hk := (semVal_congr g.sem k).trans (h.others k hk)
  waiters := by rw [g.sem, h.waiters]
  mem := g.mem.trans h.mem

/-- What an add does to the one wait that it meets: the wait takes its value where it consumes, and its job holds the semaphore. -/
theorem hasSignalled_serves {c n : Nat} {s u t : State} {w : Waiter} (h : hasSignalled c n s u) (hw : w.sem = n)
    (g : keepsEnded (satisfy w (takeValue w u)) t) :
    ended t c .ok 0 0 0 ∧ (∀ k, k ≠ n → semVal t k = semVal s k) ∧ t.mem = s.mem
      ∧ semVal t n = (if w.consume then semVal u n - w.value else semVal u n) ∧ t.sem.waiters = s.sem.waiters.erase w
      ∧ (w.consume = true → ∃ h ∈ t.sem.holders, h.sem = n ∧ h.fn = w.fn ∧ h.ring = w.ring) := by
  subst hw
  have hkeep := (satisfy_keepsEnded w (takeValue w u)).trans g
  have hval : ∀ k, semVal t k = semVal (takeValue w u) k := fun k => (semVal_congr hkeep.sem k).trans (grantWait_semVal ..)
  refine ⟨hkeep.ended ?_, fun k hk => ?_, ?_, ?_, ?_, fun hc => ?_⟩
  · unfold ended
    rw [grantWait_cmdOf, takeValue_cmdOf]
    exact h.ended
  · rw [hval, takeValue_semVal_other w u hk, h.others k hk]
  · exact (hkeep.mem.trans (takeValue_mem w u)).trans h.mem
  · rw [hval, takeValue_semVal]
  · rw [hkeep.sem, ← h.waiters, ← takeValue_waiters w u]; rfl
  · rw [hkeep.sem]; exact exists_holder_holdersWith hc _

section
variable {s : State} {c : Nat} (hready : classReady s c 0x20 = true) (hfresh : (cmdOf s c).applied = false)
include hready hfresh

theorem semSignal_adds {n : Nat} (hn : semNum s (homeOf s (cmdOf s c).fn) (semIndex (cmdOf s c)) = some n)
    (hquota : semAmount (cmdOf s c) = 0 ∨ semOverQuota s (homeOf s (cmdOf s c).fn) n = false) :
    ∃ p u, exec (.semSignal c) s = .next (reinherit p (settleSem n u)) ∧ hasSignalled c n s u := by
  have hallowed : ¬(semAmount (cmdOf s c) ≠ 0 ∧ semOverQuota s (homeOf s (cmdOf s c).fn) n = true) := by
    rcases hquota with hzero | hin
    · simp [hzero]
    · simp [hin]
  have hexec : exec (.semSignal c) s = .next (semAdd n (semAmount (cmdOf s c)) ((cmdOf s c).fn, (cmdOf s c).ring)
      (endApplied c (setReply .nothing s))) := by
    rw [exec_semSignal c s rfl]
    simp [semSignalEffect, cmdPart, hready, hfresh, hn, hallowed, endApplied]
  have hend := endApplied_onlyEnd c (setReply .nothing s)
  rw [semAdd_eq] at hexec
  refine ⟨_, _, hexec, endApplied_ended c _, endApplied_applied c _, ?_, fun k hk => ?_, ?_, hend.mem⟩
  · rw [addValue_semVal, semVal_congr hend.sem]; rfl
  · rw [addValue_semVal_other _ _ _ hk, semVal_congr hend.sem]; rfl
  · exact (congrArg Sems.waiters hend.sem :)

theorem semSignal_out_of_range (hn : semNum s (homeOf s (cmdOf s c).fn) (semIndex (cmdOf s c)) = none) :
    exec (.semSignal c) s = .next (fail c .boundsFault 0x743 (setReply .nothing s)) := by
  rw [exec_semSignal c s rfl]
  simp [semSignalEffect, cmdPart, hready, hfresh, hn]

theorem semSignal_over_quota {n : Nat} (hn : semNum s (homeOf s (cmdOf s c).fn) (semIndex (cmdOf s c)) = some n)
    (hne : semAmount (cmdOf s c) ≠ 0) (hover : semOverQuota s (homeOf s (cmdOf s c).fn) n = true) :
    exec (.semSignal c) s = .next (fail c .quotaExceeded 0x741 (setReply .nothing s)) := by
  rw [exec_semSignal c s rfl]
  simp [semSignalEffect, cmdPart, hready, hfresh, hn, hne, hover]
end

/-- Settles O13: what the add leaves when no wait stands on the semaphore, and when the one that does is not met or is satisfied. -/
theorem semaphoreSignals : Obligations.SemaphoreSignals := by
  unfold Obligations.SemaphoreSignals
  intro s c hready hfresh x p
  refine ⟨fun n hn hquota hnone => ?_, fun n w hn hquota hone => ?_, fun hn => ?_, fun n hn hne hover => ?_⟩
  · obtain ⟨q, u, hexec, hu⟩ := semSignal_adds hready hfresh hn hquota
    rw [settleSem_of_no_wait (by rw [hu.waiters]; exact hnone)] at hexec
    have ht := hu.trans (reinherit_sched q u).keepsEnded
    exact ⟨_, hexec, ht.ended, ht.applied, ht.value, ht.others, ht.waiters, ht.mem⟩
  · intro v
    obtain ⟨q, u, hexec, hu⟩ := semSignal_adds hready hfresh hn hquota
    have honly : u.sem.waiters.filter (fun w => w.sem = n) = [w] := by rw [hu.waiters]; exact hone
    have hv : semVal u n = v := hu.value
    refine ⟨_, hexec, ?_⟩
    have hsched := (reinherit_sched q (settleSem n u)).keepsEnded
    rcases Nat.lt_or_ge v w.value with hunmet | hmet
    · rw [settleSem_of_unmet_wait honly (by rw [hv]; exact hunmet)] at hsched ⊢
      have ht := hu.trans hsched
      exact ⟨ht.ended, ht.others, ht.mem, fun _ => ⟨ht.value, ht.waiters⟩, fun h => absurd hunmet (Nat.not_lt.mpr h)⟩
    · rw [settleSem_of_met_wait honly (by rw [hv]; exact hmet)] at hsched ⊢
      obtain ⟨hended, hothers, hmem, hvalue, hrest⟩ := hasSignalled_serves hu (sem_of_filter_eq_singleton honly) hsched
      rw [hv] at hvalue
      exact ⟨hended, hothers, hmem, fun h => absurd hmet (Nat.not_le.mpr h), fun _ => ⟨hvalue, hrest⟩⟩
  · exact ⟨_, semSignal_out_of_range hready hfresh hn, finish_ended .., finish_end ..⟩
  · exact ⟨_, semSignal_over_quota hready hfresh hn hne hover, finish_ended .., finish_end ..⟩

/-! ### SEM_WAIT (R176, R375) -/

/-- The wait that SEM_WAIT command `c` makes on semaphore `n`. -/
def commandWait (c n : Nat) (x : Cmd) : Waiter :=
  { sem := n, value := semAmount x, consume := semConsume x, who := .command c, fn := x.fn, ring := x.ring }

/-- SEM_WAIT command `c` waits, registered last. -/
def registerWait (c n : Nat) (s : State) : State :=
  modCmd c (fun x => { x with waiting := true })
    { s with sem := { s.sem with waiters := s.sem.waiters ++ [commandWait c n (cmdOf s c)] } }

theorem phase_of_classReady {s : State} {c cls : Nat} (h : classReady s c cls = true) : (cmdOf s c).phase = .running := by
  simp only [classReady, Bool.and_eq_true, decide_eq_true_eq] at h
  obtain ⟨⟨⟨⟨-, hphase⟩, -⟩, -⟩, -⟩ := h
  exact hphase

theorem inheritNew_sched (w : Waiter) (s : State) : onlySched s (inheritNew w s) := ite_sched (reinherit_sched _ s) (.refl s)

/-- The semaphores once the arriving wait `w` is satisfied at once (R174). -/
def passWait (w : Waiter) (s : State) : State := grantWait w s.sem.waiters (takeValue w s)

theorem passWait_rest (w : Waiter) (s : State) : passWait w s = { s with sem := (passWait w s).sem } := by
  unfold passWait grantWait; rw [takeValue_rest]

theorem semWaitNow_satisfies {w : Waiter} {s : State} (hv : w.value ≤ semVal s w.sem)
    (hfree : w.consume = true → ∀ v ∈ s.sem.waiters, v.sem = w.sem → v.consume = false) :
    semWaitNow w s = (true, inheritNew w (passWait w s)) := by
  have hblocked : (w.consume && s.sem.waiters.any fun v => v.sem = w.sem && v.consume) = false := by
    cases hc : w.consume with
    | false => rfl
    | true => simpa using hfree hc
  simp only [semWaitNow, hblocked, hv, Bool.false_eq_true, not_false_eq_true, and_self, if_true]
  cases hc : w.consume with
  | false => simp [passWait, grantWait, takeValue, holdersWith, hc]
  | true => simp [passWait, grantWait, takeValue, holdersWith, hc, setSem]

theorem semWaitNow_registers {w : Waiter} {s : State} (hv : semVal s w.sem < w.value) :
    semWaitNow w s = (false, { s with sem := { s.sem with waiters := s.sem.waiters ++ [w] } }) := by
  simp [semWaitNow, Nat.not_le.mpr hv]

section
variable {s : State} {c n : Nat} (hready : classReady s c 0x21 = true) (hfresh : (cmdOf s c).applied = false)
  (hn : semNum s (homeOf s (cmdOf s c).fn) (semIndex (cmdOf s c)) = some n)
include hready hfresh hn

theorem semWait_satisfied (hv : semAmount (cmdOf s c) ≤ semVal s n)
    (hfree : semConsume (cmdOf s c) = true → ∀ w ∈ s.sem.waiters, w.sem = n → w.consume = false) :
    ∃ t, exec (.semWait c) s = .next t ∧ ended t c .ok 0 0 0
      ∧ onlyEnd c (passWait (commandWait c n (cmdOf s c)) (setReply .nothing s)) t := by
  have hnow := semWaitNow_satisfies (w := commandWait c n (cmdOf s c)) (s := setReply .nothing s) hv hfree
  have hexec : exec (.semWait c) s = .next (endApplied c (inheritNew (commandWait c n (cmdOf s c))
      (passWait (commandWait c n (cmdOf s c)) (setReply .nothing s)))) := by
    unfold commandWait at *
    rw [exec_semWait c s rfl]
    simp [semWaitEffect, cmdPart, hready, hfresh, hn, Nat.not_lt.mpr hv, hnow, endApplied]
  exact ⟨_, hexec, endApplied_ended .., ((inheritNew_sched ..).onlyEnd c).trans (endApplied_onlyEnd ..)⟩

theorem semWait_registered (hv : semVal s n < semAmount (cmdOf s c)) (hin : semOverQuota s (homeOf s (cmdOf s c).fn) n = false) :
    ∃ t, exec (.semWait c) s = .next t ∧ onlySched (registerWait c n (setReply .nothing s)) t := by
  have hnow := semWaitNow_registers (w := commandWait c n (cmdOf s c)) (s := setReply .nothing s) hv
  have hexec : exec (.semWait c) s = .next (requestStop (homeOf s (cmdOf s c).fn) 3
      (reinherit (homeOf s (cmdOf s c).fn) (registerWait c n (setReply .nothing s)))) := by
    unfold registerWait commandWait at *
    rw [exec_semWait c s rfl]
    simp [semWaitEffect, cmdPart, hready, hfresh, hn, hin, hnow]
  exact ⟨_, hexec, (reinherit_sched _ _).trans (requestStop_sched _ _ _)⟩

theorem semWait_over_quota (hv : semVal s n < semAmount (cmdOf s c)) (hover : semOverQuota s (homeOf s (cmdOf s c).fn) n = true) :
    exec (.semWait c) s = .next (fail c .quotaExceeded 0x741 (setReply .nothing s)) := by
  rw [exec_semWait c s rfl]
  simp [semWaitEffect, cmdPart, hready, hfresh, hn, hv, hover]
end

/-- Settles O14: a SEM_WAIT by whether its value is reached and, where it is not, whether the quota lets it wait. -/
theorem semaphoreWaits : Obligations.SemaphoreWaits := by
  unfold Obligations.SemaphoreWaits
  intro s c n hready hfresh x hn
  refine ⟨fun hv hfree => ?_, fun hv hin => ?_, fun hv hover => ?_⟩
  · obtain ⟨t, hexec, hended, hend⟩ := semWait_satisfied hready hfresh hn hv hfree
    have hval : ∀ k, semVal t k = semVal (takeValue (commandWait c n x) (setReply .nothing s)) k :=
      fun k => (semVal_congr hend.sem k).trans (grantWait_semVal ..)
    refine ⟨t, hexec, hended, (congrArg Sems.waiters hend.sem :), (hval n).trans (takeValue_semVal ..),
      fun k hk => (hval k).trans (takeValue_semVal_other _ _ hk), fun hc => ?_, ?_⟩
    · rw [hend.sem]; exact exists_holder_holdersWith hc _
    · rw [hend.sem, ← passWait_rest]; exact hend
  · obtain ⟨t, hexec, hsched⟩ := semWait_registered hready hfresh hn hv hin
    have hcmd : cmdOf t c = { cmdOf s c with waiting := true } := by rw [hsched.cmdOf, registerWait, modCmd_cmdOf, if_pos rfl]; rfl
    exact ⟨t, hexec, by rw [hcmd], by rw [hcmd]; exact phase_of_classReady hready, hsched.sem, hsched.mem⟩
  · exact ⟨_, semWait_over_quota hready hfresh hn hv hover, finish_ended .., finish_end ..⟩

end Sys2Proof.Machine
end

section
/-!
KV commands and frames (08_kv_cache_and_attention.md): what taking and releasing a frame changes, what a KV command's reads and its end
leave alone, and its effect by what holds its accesses and what its work finds.
-/
namespace Sys2Proof.Machine

/-! ### A frame is taken (R258 to R260) -/

theorem leNat_bytesAt_eq_zero {t : Tab Byte} {n a : Nat} (h : ∀ k, a ≤ k → k < a + n → tabGet 0 t k = 0) : leNat (bytesAt 0 t a n) = 0 := by
  induction n generalizing a with
  | zero => rfl
  | succ n ih =>
    have htail := ih (a := a + 1) fun k hlo hhi => h k (by omega) (by omega)
    rw [bytesAt, leNat, htail, h a (Nat.le_refl a) (by omega)]; rfl

/-- Every whole word of a wiped range is zero with the check bits of zero. -/
theorem wipeRange_rawWord {g off n i : Nat} (s : State) (hoff : off % 8 = 0) (hi : 8 * i + 8 ≤ n) :
    rawWord (wipeRange g off n s) g (off + 8 * i) = (0, 0) := by
  have hkey : dramKey g (off + 8 * i) = dramKey g off + 8 * i := by unfold dramKey; omega
  have hword : dramKey g off % 8 = 0 := by unfold dramKey; omega
  have hdata : leNat (bytesAt 0 (wipeRange g off n s).mem.dram (dramKey g (off + 8 * i)) 8) = 0 :=
    leNat_bytesAt_eq_zero fun k hlo hhi => by
      rw [wipeRange, tabGet_tabDrop, if_pos (by simp only [decide_eq_true_eq]; omega)]
  have hcheck : tabGet 0 (wipeRange g off n s).mem.dramCheck (dramKey g (off + 8 * i) / 8) = 0 := by
    rw [wipeRange, tabGet_tabDrop, if_pos (by simp only [decide_eq_true_eq]; omega)]
  rw [rawWord, hdata, hcheck]; rfl

/-- The table entry of a frame taken, whose entry was `y`. -/
def takenFrame (r : KvRec) (p fn : Nat) (x y : Frame) : Frame :=
  { x with seq := BitVec.ofNat 32 r.seq, refcnt := 1, vf := fn, owner := p, retired := y.retired, state := .held }

/-- A frame wiped for its next holder, and the wipe counted. -/
def wipeFrame (r : KvRec) (p n : Nat) (s : State) : State :=
  let s := wipeRange (n / 4096) (n % 4096 * 16384) r.u s
  { s with kvt := { s.kvt with wipes := tabMod 0 s.kvt.wipes p fun k => satAdd 32 k 1 } }

section
variable (r : KvRec) (p fn n : Nat) (x : Frame) (s : State)

theorem installFrame_eq : installFrame r p fn n x s
    = modFrame n (takenFrame r p fn x) (if (frameOf s n).vf = fn then s else wipeFrame r p n s) := rfl

theorem wipeFrame_frameOf (m : Nat) : frameOf (wipeFrame r p n s) m = frameOf s m := rfl

theorem wipeFrame_wipes : tabGet 0 (wipeFrame r p n s).kvt.wipes p = satAdd 32 (tabGet 0 s.kvt.wipes p) 1 := by
  simp [wipeFrame, wipeRange]

theorem wipeFrame_rawWord {i : Nat} (hi : 8 * i + 8 ≤ r.u) :
    rawWord (wipeFrame r p n s) (n / 4096) (n % 4096 * 16384 + 8 * i) = (0, 0) :=
  wipeRange_rawWord s (by omega) hi

theorem installFrame_frameOf (m : Nat) :
    frameOf (installFrame r p fn n x s) m = if m = n then takenFrame r p fn x (frameOf s n) else frameOf s m := by
  have hentries : ∀ k, frameOf (if (frameOf s n).vf = fn then s else wipeFrame r p n s) k = frameOf s k := fun k => by
    split
    · rfl
    · exact wipeFrame_frameOf r p n s k
  rw [installFrame_eq, modFrame_frameOf, hentries, hentries]

variable {fn n s}

theorem installFrame_of_holder (h : (frameOf s n).vf = fn) : installFrame r p fn n x s = modFrame n (takenFrame r p fn x) s := by
  rw [installFrame_eq, if_pos h]

theorem installFrame_of_other (h : (frameOf s n).vf ≠ fn) :
    installFrame r p fn n x s = modFrame n (takenFrame r p fn x) (wipeFrame r p n s) := by
  rw [installFrame_eq, if_neg h]
end

/-! ### A reference is given up (R258) -/

theorem frameRelease_shared {n : Nat} {s : State} (h : 2 ≤ (frameOf s n).refcnt) :
    frameOf (frameRelease n s) n = { frameOf s n with refcnt := (frameOf s n).refcnt - 1 } := by
  rw [frameRelease, modFrame_frameOf, if_pos rfl, if_neg (by omega)]

theorem frameRelease_last {n : Nat} {s : State} (h : (frameOf s n).refcnt ≤ 1) :
    frameOf (frameRelease n s) n = frameFree (frameOf s n) := by
  rw [frameRelease, modFrame_frameOf, if_pos rfl, if_pos h]

theorem frameRelease_other {n m : Nat} (s : State) (h : m ≠ n) : frameOf (frameRelease n s) m = frameOf s m := by
  rw [frameRelease, modFrame_frameOf, if_neg h]

/-- Settles O17: the entry of a frame taken and what its wipe leaves, by who held it last; the entry of one given up, by how many hold it. -/
theorem framesTakenAndReleased : Obligations.FramesTakenAndReleased := by
  unfold Obligations.FramesTakenAndReleased
  refine ⟨fun r p fn n x s => ?_, fun n s => ⟨frameRelease_shared, fun h => ?_, fun m hm => frameRelease_other s hm⟩⟩
  · have hentry : frameOf (installFrame r p fn n x s) n = takenFrame r p fn x (frameOf s n) := by
      rw [installFrame_frameOf, if_pos rfl]
    simp only [hentry]
    refine ⟨rfl, rfl, rfl, rfl, rfl, fun m hm => ?_, fun h => ?_, fun h => ?_⟩
    · rw [installFrame_frameOf, if_neg hm]
    · rw [installFrame_of_holder r p x h]; exact ⟨rfl, rfl⟩
    · rw [installFrame_of_other r p x h]
      exact ⟨wipeFrame_wipes r p n s, fun i hi => wipeFrame_rawWord r p n s hi⟩
  · simp only [frameRelease_last h]; exact ⟨rfl, rfl, rfl⟩

/-! ### Reads and writes leave the frame table alone (R258) -/

theorem onlyNoted.kvt {s t : State} (h : onlyNoted s t) : t.kvt = s.kvt := by rw [h.rest]
theorem onlyEnd.kvt {c : Nat} {s t : State} (h : onlyEnd c s t) : t.kvt = s.kvt := by rw [h.rest]

theorem foldState_kvt {α : Type} (l : List α) (f : α → State → State) (hf : ∀ a t, (f a t).kvt = t.kvt) (s : State) :
    (foldState l f s).kvt = s.kvt := by
  unfold foldState
  induction l generalizing s with
  | nil => rfl
  | cons a l ih => exact (ih (f a s)).trans (hf a s)

theorem devNote_noted (p x n : Nat) (s : State) : onlyNoted s (devNote p x n s) := (devReport_noted p x n s).trans (countAt_noted _ _ _)

theorem noteWrote_kvt (p kind a n : Nat) (s : State) : (noteWrote p kind a n s).kvt = s.kvt := by
  unfold noteWrote; split <;> rfl

theorem writeWord_kvt (g off lo : Nat) (bs : List Byte) (s : State) : (writeWord g off lo bs s).kvt = s.kvt := by
  have hread : (noteWord 64 g off s).kvt = s.kvt := (noteWord_noted 64 g off s).kvt
  unfold writeWord
  split
  · rfl
  · dsimp only; split <;> exact hread

theorem devPut_kvt (p x : Nat) (bs : List Byte) (s : State) : (devPut p x bs s).kvt = s.kvt := by
  refine (countAt_noted p _ _).kvt.trans ((noteWrote_kvt _ _ _ _ _).trans (foldState_kvt _ _ (fun e t => ?_) s))
  dsimp only
  split
  · rfl
  · exact writeWord_kvt _ _ _ _ t

theorem farPut_kvt (p x : Nat) (bs : List Byte) (s : State) : (farPut p x bs s).kvt = s.kvt := by
  refine (noteWrote_kvt _ _ _ _ _).trans (foldState_kvt _ _ (fun e t => ?_) s)
  dsimp only
  split <;> rfl

theorem writeBack_kvt (x : CacheLine) (s : State) : (writeBack x s).kvt = s.kvt := by
  unfold writeBack
  dsimp only
  split
  · rfl
  · exact devPut_kvt ..
  · exact farPut_kvt ..

theorem runtimeRead_kvt (p : Nat) (l : List (Nat × Nat)) (s : State) : (runtimeRead p l s).kvt = s.kvt := by
  have hdrop : ∀ (e : Nat × Nat) (t : State), (invalidateRange 2 p e.1 e.2 t).kvt = t.kvt := fun _ _ => rfl
  unfold runtimeRead
  split
  · rfl
  · exact (foldState_kvt _ _ writeBack_kvt _).trans (foldState_kvt l _ hdrop s)

theorem noteMoved_kvt (n : Nat) (s : State) : (noteMoved n s).kvt = s.kvt := by
  unfold noteMoved
  split
  · rfl
  · split <;> rfl

theorem kvCopyNote_kvt (z : Kv) (s : State) : (kvCopyNote z s).kvt = s.kvt :=
  (noteMoved_kvt _ _).trans (((foldState_noted _ _ (fun _ t => devReport_noted _ _ _ t) s).trans
    (foldState_noted _ _ (fun _ t => devNote_noted _ _ _ t) _)).trans (foldState_noted _ _ (fun _ t => farNote_noted _ _ _ t) _)).kvt

theorem kvNote_kvt (z : Kv) (s : State) : (kvNote z s).kvt = s.kvt := by
  have hchecks : (runtimeRead z.p z.reads (foldState z.reads (fun e s => devNote z.p e.1 e.2 s) s)).kvt = s.kvt :=
    (runtimeRead_kvt _ _ _).trans (foldState_noted _ _ (fun _ t => devNote_noted _ _ _ t) s).kvt
  unfold kvNote
  dsimp only
  split
  · exact (kvCopyNote_kvt _ _).trans hchecks
  · exact hchecks

/-! ### How a KV command ends (R268, R278) -/

section
variable {z : Kv} (c result : Nat) (s : State)

theorem kvEnd_applies (h : kvFault z = none) :
    ended (kvEnd c z result s) c .ok 0 result 0 ∧ (cmdOf (kvEnd c z result s) c).applied = true
      ∧ onlyEnd c (kvNote z z.s) (kvEnd c z result s) := by
  have hend : kvEnd c z result s = finishOk c result (modCmd c (fun x => { x with applied := true }) (kvNote z z.s)) := by
    simp [kvEnd, kvResult, h]
  rw [hend]
  exact ⟨finish_ended .., by simp [finishOk, finish_cmdOf], (modCmd_onlyEnd c _ _).trans (finish_end ..)⟩

theorem kvEnd_faults {e : KvFlt} (h : kvFault z = some e) :
    ended (kvEnd c z result s) c e.st e.cause 0 e.list ∧ onlyEnd c (kvRecordFault e (kvNote z s)) (kvEnd c z result s)
      ∧ (kvEnd c z result s).kvt.frames = s.kvt.frames := by
  have hend : kvEnd c z result s = finish c e.st e.cause 0 e.list 0 (kvRecordFault e (kvNote z s)) := by
    simp [kvEnd, kvResult, h]
  have honly := finish_end c e.st e.cause 0 e.list 0 (kvRecordFault e (kvNote z s))
  rw [hend]
  refine ⟨finish_ended .., honly, ?_⟩
  rw [honly.kvt, ← kvNote_kvt z s]; rfl
end

/-! ### The commands (R268, R275) -/

theorem cmdClass_of_classReady {s : State} {c cls : Nat} (h : classReady s c cls = true) : cmdClass (cmdOf s c) = cls := by
  simp only [classReady, Bool.and_eq_true, decide_eq_true_eq] at h
  obtain ⟨⟨-, hclass⟩, -⟩ := h
  exact hclass

/-- A command on its first run, with no earlier one on its record, goes on to its accesses. -/
theorem kvOnce_accesses {s : State} {c cls : Nat} (f : Cmd → Kv → Kv × Nat) (hready : classReady s c cls = true)
    (hfresh : (cmdOf s c).applied = false) (hfront : kvBehind s c = false) :
    let w := (kvWork f (cmdOf s c) s).1
    kvOnce c cls f s = withAccess (2 * c) (homeOf s (cmdOf s c).fn) (kvTouches w) (kvFar w) (kvServed c f (cmdOf s c)) s := by
  simp [kvOnce, hready, hfresh, hfront]

/-- Settles O16: a KV command asks for its accesses or is served, and one that is served ends as its work's first fault, or their absence,
decides. -/
theorem kvCommandsApplyAllOrNothing : Obligations.KvCommandsApplyAllOrNothing := by
  unfold Obligations.KvCommandsApplyAllOrNothing
  intro s c cls i work hi hready hfresh hfront x p v u z l far
  have honce : exec i s = .next (kvOnce c cls work v) := by
    rcases hi with ⟨rfl, rfl, rfl⟩ | ⟨rfl, rfl, rfl⟩ | ⟨rfl, rfl, rfl⟩ | ⟨rfl, rfl, rfl⟩
    · exact exec_kvAlloc c s rfl
    · exact exec_kvFork c s rfl
    · exact exec_kvCommit c s rfl
    · exact exec_kvFree c s rfl
  have hexec : exec i s = .next (withAccess (2 * c) p l far (kvServed c work x) v) := by
    rw [honce, kvOnce_accesses (s := v) work hready hfresh hfront]; rfl
  refine ⟨fun hclear => ?_, fun hdefers => ⟨_, hexec, withAccess_asks (s := v) hdefers _⟩⟩
  have hnames : kvNames x = field x 8 8 :: if cls = 0x11 then [field x 16 8] else [] := by
    rw [kvNames, cmdClass_of_classReady hready]
  have hserved : exec i s = .next (kvEnd c z.1 z.2 u) := by
    rw [hexec, withAccess_of_clear hclear, kvServed, hnames]; rfl
  exact ⟨fun hnone => ⟨_, hserved, kvEnd_applies c z.2 u hnone⟩, fun e he => ⟨_, hserved, kvEnd_faults c z.2 u he⟩⟩

end Sys2Proof.Machine
end

section
/-!
STEP (09_serving_support.md): what its checks, a replay and its admission make of it, and how it ends.
-/
namespace Sys2Proof.Machine

/-! ### STEP as its state and its checks decide it (R296, R301) -/

section
variable {s : State} {c : Nat} (hready : classReady s c 0x04 = true) (hfree : stepWaits s c = false)
  (hheld : hostHeld s (cmdOf s c).fn true = false)
include hready hfree hheld

theorem stepEffect_replays (happlied : (cmdOf s c).applied = true) :
    stepEffect c s = finish c .ok 0 (cmdOf s c).result 0 (cmdOf s c).flags
      (holdRecords c (homeOf s (cmdOf s c).fn) (cmdOf s c).decisions s) := by
  simp [stepEffect, hready, hfree, hheld, happlied]

variable (hfresh : (cmdOf s c).applied = false)
include hfresh

theorem stepEffect_refused {f : StepFlt} (hf : stepWorst (stepCheck s (cmdOf s c)).faults = some f) :
    stepEffect c s = finish c f.2.1 f.2.2 0 f.1 0 (stepCheckNote (cmdOf s c) (stepCheck s (cmdOf s c)) s) := by
  simp [stepEffect, hready, hfree, hheld, hfresh, hf]

theorem stepEffect_accesses {k : StepCtx} (hpasses : stepWorst (stepCheck s (cmdOf s c)).faults = none)
    (hk : (stepCheck s (cmdOf s c)).ctx = some k) :
    let l := (stepCheck s (cmdOf s c)).works
    stepEffect c s = withAccess (2 * c) k.p (stepTouches k l s) (stepFar k l s) (runStep c k l) s := by
  simp [stepEffect, hready, hfree, hheld, hfresh, hpasses, hk]
end

/-! ### Admission (R296, R301) -/

/-- The state once the requests of a STEP are admitted and what was decided is kept for a replay. -/
def stepAdmitted (c : Nat) (k : StepCtx) (l : List StepWork) (s : State) : State :=
  let a := admitAll k l s
  keepAdmission c k.p l a (kvNote { a.z with errs := [], copyErrs := [] } a.z.s)

section
variable {s : State} {k : StepCtx} {l : List StepWork} (c : Nat)

theorem runStep_faults {f : StepFlt} (h : (admitAll k l s).fault = some f) :
    runStep c k l s = failStep c k l (admitAll k l s) f 0 (stepAdmitted c k l s) := by
  simp only [runStep, h]; rfl

theorem runStep_goes_on (h : (admitAll k l s).fault = none) :
    runStep c k l s = batchStep c k l (admitAll k l s) (stepAdmitted c k l s) := by
  simp only [runStep, h]; rfl
end

/-! ### The layers of the model (R299, R314, R446) -/

/-- The requests of a STEP that its admission lets run. -/
def admittedWorks (l : List StepWork) (a : Admit) : List StepWork := l.filter fun w => a.out.any fun d => d.ix = w.req.ix && ran d

/-- The batch of a STEP before its first layer. -/
def firstBatch (y : LayerCtx) (l : List StepWork) (a : Admit) : Batch := stepBatch y (List.zip l (firstRows 0 (l.map (·.req)))) a

/-- The batch once it has passed the layers, and the state with what they read and raise. -/
def layersRun (k : StepCtx) (l : List StepWork) (a : Admit) (s : State) : Batch × State :=
  let y := layerCtx s k l a
  if (firstBatch y l a).rows = [] then (firstBatch y l a, s)
  else runLayers y (admittedWorks l a) (firstBatch y l a) (raise (128 + k.p) s)

/-! ### How a STEP ends (R282, R316, R319, R342, R349) -/

/-- The rows that a STEP returns: where each stands, its bytes and its flags (R294, R318). -/
def returnedRows (y : LayerCtx) (b : Batch) : List (Nat × List Byte × BitVec 4) :=
  (b.rows.filter (·.returned)).map fun r => (rowAt y.k r.ix, rowBytes y r)

/-- The state with the records of the requests that ran written. -/
def recordsWritten (p : Nat) (l : List StepWork) (a : Admit) (s : State) : State := foldState (admittedWorks l a) (writeRequest p) s

/-- The writes of the return area: the request table and the rows. -/
def returnRuns (y : LayerCtx) (l : List StepWork) (a : Admit) (b : Batch) (s : State) : List (Nat × List Byte) :=
  joinRuns (tableRun y.k (List.zip l (firstRows 0 (l.map (·.req)))) a s :: (returnedRows y b).map fun e => (e.1, e.2.1))

theorem failStep_ended (c : Nat) (k : StepCtx) (l : List StepWork) (a : Admit) (f : StepFlt) (flags : BitVec 4) (s : State) :
    ended (failStep c k l a f flags s) c f.2.1 f.2.2 0 f.1 := finish_ended ..

section
variable {y : LayerCtx} {l : List StepWork} {a : Admit} {b : Batch} {s : State} (c : Nat)

theorem completeStep_refused_ends
    (h : returnRefused (recordsWritten y.k.p l a s) y.k (returnRuns y l a b (recordsWritten y.k.p l a s)) = true) :
    ended (completeStep c y l a b s) c .poisonConsumed 0x650 0 0 := by
  have hfail : completeStep c y l a b s = failStep c y.k l a (0, .poisonConsumed, 0x650)
      ((returnedRows y b).foldl (fun g e => g ||| e.2.2) b.flags) s := if_pos h
  rw [hfail]; exact failStep_ended ..

theorem completeStep_returns_ends
    (h : returnRefused (recordsWritten y.k.p l a s) y.k (returnRuns y l a b (recordsWritten y.k.p l a s)) = false) :
    let w := recordsWritten y.k.p l a s
    let t := completeStep c y l a b s
    ended t c .ok 0 (stepResult w y.k l a) 0 ∧ (cmdOf t c).applied = true
      ∧ (cmdOf t c).flags = (returnedRows y b).foldl (fun g e => g ||| e.2.2) b.flags
      ∧ onlyEnd c (putReturn y.k (returnRuns y l a b w) w) t := by
  intro w t
  have hend : t = finish c .ok 0 (stepResult w y.k l a) 0 ((returnedRows y b).foldl (fun g e => g ||| e.2.2) b.flags)
      (modCmd c (fun x => { x with applied := true }) (putReturn y.k (returnRuns y l a b w) w)) :=
    if_neg (Bool.eq_false_iff.mp h)
  rw [hend]
  exact ⟨finish_ended .., by simp [finish_cmdOf], by rw [finish_cmdOf], (modCmd_onlyEnd c _ _).trans (finish_end ..)⟩
end

section
variable {s : State} {k : StepCtx} {l : List StepWork} {a : Admit} (c : Nat)

/-- A fault that the reads of its layers meet ends a STEP. -/
theorem batchStep_faults_ends {f : StepFlt} (h : (layersRun k l a s).1.fault = some f) :
    ended (batchStep c k l a s) c f.2.1 f.2.2 0 f.1 := by
  have hfail : batchStep c k l a s = failStep c k l a f (layersRun k l a s).1.flags (layersRun k l a s).2 := by
    unfold layersRun firstBatch admittedWorks at h ⊢
    simp only [batchStep, h]
  rw [hfail]; exact failStep_ended ..

theorem batchStep_completes (h : (layersRun k l a s).1.fault = none) :
    batchStep c k l a s = completeStep c (layerCtx s k l a) l a (layersRun k l a s).1 (layersRun k l a s).2 := by
  unfold layersRun firstBatch admittedWorks at h ⊢
  simp only [batchStep, h]
end

/-- Settles O52: a STEP that was applied before, one that a check refuses, and one whose checks pass, by what holds its accesses, what its
admission and its layers find and whether its return area authenticates. -/
theorem stepsComplete : Obligations.StepsComplete := by
  unfold Obligations.StepsComplete
  intro s c hready hfree hheld x u l
  have hexec : exec (.step c) s = .next (stepEffect c u) := exec_step c s rfl
  refine ⟨fun happlied => ?_, fun i st cause hfresh hf => ?_, fun k hfresh hpasses hk => ?_⟩
  · rw [stepEffect_replays (s := u) hready hfree hheld happlied] at hexec
    exact ⟨_, hexec, finish_ended .., congrArg (·.flags) (finish_cmdOf ..), finish_end ..⟩
  · rw [stepEffect_refused (s := u) hready hfree hheld hfresh hf] at hexec
    exact ⟨_, hexec, finish_ended .., finish_end ..⟩
  · intro touched far
    have haccess : stepEffect c u = withAccess (2 * c) k.p touched far (runStep c k l) u :=
      stepEffect_accesses (s := u) hready hfree hheld hfresh hpasses hk
    rw [haccess] at hexec
    refine ⟨fun hdefers => ⟨_, hexec, withAccess_asks (s := u) hdefers _⟩, fun hclear => ?_⟩
    intro a v
    rw [withAccess_of_clear (s := u) hclear] at hexec
    refine ⟨fun f hf => ⟨_, hexec, ?_⟩, fun hadmitted => ?_⟩
    · rw [runStep_faults c hf]; exact failStep_ended ..
    · have hbatch : runStep c k l u = batchStep c k l a v := runStep_goes_on c hadmitted
      rw [hbatch] at hexec
      intro y firsts b done r w rows runs
      have hcompletes : r.1.fault = none → batchStep c k l a v = completeStep c y l a r.1 r.2 := batchStep_completes c
      refine ⟨fun f hf => ⟨_, hexec, batchStep_faults_ends c hf⟩, fun hlayers hrefused => ?_, fun hlayers hreturned => ?_⟩
      · rw [hcompletes hlayers] at hexec
        exact ⟨_, hexec, completeStep_refused_ends c hrefused⟩
      · rw [hcompletes hlayers] at hexec
        exact ⟨_, hexec, completeStep_returns_ends c hreturned⟩

end Sys2Proof.Machine
end

section
/-!
Adapters, models and EVICT (09_serving_support.md, 11_partitions_and_preemption.md): a slot after it is set, used or emptied, what each
command does by what is resident, by what holds its accesses and by what its checks find, and its end.
-/
namespace Sys2Proof.Machine

/-! ### Slots of adapters and models (R289, R304) -/

section
variable (p i : Nat) (s : State)

theorem setAdapter_adapterOf (a : AdapterSlot) (k : Nat) :
    adapterOf (setAdapter p i a s) p k = if k = i then a else adapterOf s p k := by
  simp [adapterOf, setAdapter, tabGet_tabSet]

theorem touchSlot_adapterOf (k : Nat) : adapterOf (touchSlot p i s) p k
    = if k = i then { adapterOf s p i with lastUse := (partOf s p).useOrder + 1 } else adapterOf s p k := by
  simp [adapterOf, touchSlot, tabGet_tabMod]

theorem evictSlot_adapterOf_same : adapterOf (evictSlot p i s) p i = {} :=
  (setAdapter_adapterOf ..).trans (if_pos rfl)

theorem evictSlot_adapterOf_other {k : Nat} (h : k ≠ i) : adapterOf (evictSlot p i s) p k = adapterOf s p k :=
  (setAdapter_adapterOf ..).trans (if_neg h)

theorem setModel_models (m : ModelSlot) : tabGet {} (partOf (setModel p i m s) p).models i = m := by
  simp [setModel, tabGet_tabSet]
end

section
variable {c : Nat} {s t : State} (h : onlyEnd c s t)
include h

theorem onlyEnd.adapterOf (p i : Nat) : adapterOf t p i = adapterOf s p i := by
  unfold Machine.adapterOf; rw [h.part p]

theorem onlyEnd.models (p : Nat) : (partOf t p).models = (partOf s p).models := by rw [h.part p]
end

/-- A command that ends with a model slot set leaves it so. -/
theorem onlyEnd.setModel {c p i : Nat} {m : ModelSlot} {s t : State} (h : onlyEnd c (Machine.setModel p i m s) t) :
    tabGet {} (partOf t p).models i = m := by
  rw [h.models]; exact setModel_models ..

/-! ### ADAPTER_LOAD (R305, R320) -/

/-- The slot that a load takes holds the adapter that it names. -/
theorem loadInto_adapterOf {x : Cmd} {p dir i j : Nat} {pin : Bool} {busy : List Nat} {e : DirEntry} {ts : List Target} {s u : State}
    (h : loadInto x p dir pin busy e ts i s = .inr (j, u)) : (adapterOf u p j).state = .ready ∧ (adapterOf u p j).dir = dir := by
  unfold loadInto at h
  split at h
  · cases h
  · dsimp only at h
    split at h
    · cases h
    · cases h
      rw [touchSlot_adapterOf, if_pos rfl, setAdapter_adapterOf, if_pos rfl]
      exact ⟨rfl, rfl⟩

theorem loadAdapter_adapterOf {x : Cmd} {p dir slot j : Nat} {pin : Bool} {busy : List Nat} {s u : State}
    (h : loadAdapter x p dir slot pin busy s = .inr (j, u)) : (adapterOf u p j).state = .ready ∧ (adapterOf u p j).dir = dir := by
  unfold loadAdapter at h
  split at h
  · cases h
  · split at h
    · cases h
    · exact loadInto_adapterOf h

/-- The load that ADAPTER_LOAD command `c` makes where its adapter is not resident. -/
def commandLoad (c : Nat) (s : State) : Flt ⊕ Nat × State :=
  let x := cmdOf s c
  loadAdapter x (homeOf s x.fn) (field x 8 4) (field x 12 2) (bit (field x 14 1) 0) (busySlots s (homeOf s x.fn) x) s

/-- A resident adapter's slot pinned, where a load asks for it. -/
def pinWhere (pin : Bool) (p i : Nat) (s : State) : State :=
  if pin then setAdapter p i { adapterOf s p i with pin := true } s else s

theorem pinWhere_mem (pin : Bool) (p i : Nat) (s : State) : (pinWhere pin p i s).mem = s.mem := by
  unfold pinWhere; split <;> rfl

theorem pinWhere_adapterOf (pin : Bool) (p i : Nat) (s : State) :
    adapterOf (pinWhere pin p i s) p i = { adapterOf s p i with pin := (adapterOf s p i).pin || pin } := by
  unfold pinWhere
  cases pin with
  | false => rw [Bool.or_false]; rfl
  | true => rw [Bool.or_true]; exact (setAdapter_adapterOf ..).trans (if_pos rfl)

section
variable {s : State} {c : Nat} (hready : classReady s c 0x18 = true)
include hready

theorem adapterLoadEffect_resident {i : Nat} (hi : residentIn s (homeOf s (cmdOf s c).fn) (field (cmdOf s c) 8 4) = some i) :
    adapterLoadEffect c s = finishOk c i (pinWhere (bit (field (cmdOf s c) 14 1) 0) (homeOf s (cmdOf s c).fn) i s) := by
  simp [adapterLoadEffect, hready, hi, pinWhere]

variable (hnone : residentIn s (homeOf s (cmdOf s c).fn) (field (cmdOf s c) 8 4) = none)
include hnone

theorem adapterLoadEffect_loads {i : Nat} {u : State} (hload : commandLoad c s = .inr (i, u))
    (hclear : accessClear s (2 * c) (homeOf s (cmdOf s c).fn) (slotRange u (homeOf s (cmdOf s c).fn) i)
      (adapterFar s (homeOf s (cmdOf s c).fn) (field (cmdOf s c) 8 4))) :
    adapterLoadEffect c s = finishOk c i u := by
  unfold commandLoad at hload
  simp [adapterLoadEffect, hready, hnone, hload, withAccess_of_clear hclear]

theorem adapterLoadEffect_fails {f : Flt} (hload : commandLoad c s = .inl f)
    (hclear : accessClear s (2 * c) (homeOf s (cmdOf s c).fn) [] (adapterFar s (homeOf s (cmdOf s c).fn) (field (cmdOf s c) 8 4))) :
    adapterLoadEffect c s = fail c f.1 f.2 (loadNote (homeOf s (cmdOf s c).fn) (field (cmdOf s c) 8 4) f.1 s) := by
  unfold commandLoad at hload
  simp [adapterLoadEffect, hready, hnone, hload, withAccess_of_clear hclear]
end

/-! ### ADAPTER_EVICT (R307) -/

section
variable {s : State} {c : Nat} (hready : classReady s c 0x19 = true)
  (hunused : ∀ d ∈ startedBefore s c 0x04, (stepUses s d).2.contains (evictDir (cmdOf s c)) = false)
include hunused

theorem startedBefore_any_uses_eq_false :
    (startedBefore s c 0x04).any (fun d => (stepUses s d).2.contains (evictDir (cmdOf s c))) = false := by
  simpa only [List.any_eq_false, Bool.not_eq_true] using hunused

include hready

theorem adapterEvictEffect_resident {i : Nat} (hi : residentIn s (homeOf s (cmdOf s c).fn) (evictDir (cmdOf s c)) = some i) :
    adapterEvictEffect c s = finishOk c 0 (evictSlot (homeOf s (cmdOf s c).fn) i s) := by
  simp only [adapterEvictEffect, hready, startedBefore_any_uses_eq_false hunused, hi, not_true, Bool.false_eq_true, or_self, if_false]

theorem adapterEvictEffect_absent (hnone : residentIn s (homeOf s (cmdOf s c).fn) (evictDir (cmdOf s c)) = none) :
    adapterEvictEffect c s = finishOk c 0 s := by
  simp only [adapterEvictEffect, hready, startedBefore_any_uses_eq_false hunused, hnone, not_true, Bool.false_eq_true, or_self, if_false]
end

/-- A command that ends with a slot emptied leaves the other slots, memory and the frame table as they were. -/
theorem onlyEnd.evictSlot {c p i : Nat} {s t : State} (h : onlyEnd c (Machine.evictSlot p i s) t) :
    Machine.adapterOf t p i = {} ∧ (∀ k, k ≠ i → Machine.adapterOf t p k = Machine.adapterOf s p k) ∧ t.mem = s.mem ∧ t.kvt = s.kvt :=
  ⟨(h.adapterOf p i).trans (evictSlot_adapterOf_same ..),
    fun k hk => (h.adapterOf p k).trans (evictSlot_adapterOf_other _ _ _ hk), h.mem, h.kvt⟩

/-! ### MODEL_SWAP (R289, R290) -/

/-- What a MODEL_SWAP command finds of its image and its chunks passes the checks. -/
structure swapPasses (s : State) (x : Cmd) (m : ModelSlot) (ss : List Section) (a b : List Nat) : Prop where
  range : farOk s (homeOf s x.fn) (field x 8 8) (field x 16 8) = true
  size : 256 ≤ field x 16 8
  aligned : field x 8 8 % 64 = 0
  read : modelRead s (homeOf s x.fn) (field x 8 8) (field x 16 8) = (true, m, ss, false)
  place : placeModel s (homeOf s x.fn) (field x 24 1) (sectionBytes ss false) false = some a
  localPlace : placeModel s (homeOf s x.fn) (field x 24 1) (sectionBytes ss true) true = some b
  mover : (chosenMover s).isSome = true

/-- A reading that is well formed and free of poison; of any quadruple, so that no check of it computes the image's bytes. -/
theorem eq_of_wellFormed_of_clean {α β : Type} {r : Bool × α × β × Bool} (hok : r.1 = true) (hclean : r.2.2.2 = false) :
    r = (true, r.2.1, r.2.2.1, false) := by
  obtain ⟨ok, m, ss, bad⟩ := r
  cases hok; cases hclean; rfl

theorem swapServed_stores {s : State} {x : Cmd} {m : ModelSlot} {ss : List Section} {a b : List Nat} (c : Nat)
    (h : swapPasses s x m ss a b) :
    swapServed c x s = storeModel c (homeOf s x.fn) (field x 24 1) (field x 8 8) m ss a b
      (farNote (homeOf s x.fn) (field x 8 8) (256 + 32 * ss.length) s) := by
  have hmover : (chosenMover s).isNone = false := by rw [← Option.not_isSome, h.mover]; rfl
  simp [swapServed, swapSlot, h.range, h.size, h.aligned, h.read, h.place, h.localPlace, hmover, firstFault, endSwap]

theorem modelSwapEffect_served {s : State} {c : Nat} (hready : classReady s c 0x1A = true) (hslot : swapSlot (cmdOf s c) < 16)
    (hsteps : ∀ d ∈ startedBefore s c 0x04, (stepUses s d).1 ≠ swapSlot (cmdOf s c))
    (hswaps : ∀ d ∈ startedBefore s c 0x1A, swapSlot (cmdOf s d) ≠ swapSlot (cmdOf s c))
    (hrange : farOk s (homeOf s (cmdOf s c).fn) (field (cmdOf s c) 8 8) (field (cmdOf s c) 16 8) = true)
    (hclear : accessClear s (2 * c) (homeOf s (cmdOf s c).fn) (swapTouches s (cmdOf s c))
      [(field (cmdOf s c) 8 8, field (cmdOf s c) 16 8)]) :
    modelSwapEffect c s = swapServed c (cmdOf s c) s := by
  have hstep : (startedBefore s c 0x04).any (fun d => (stepUses s d).1 = swapSlot (cmdOf s c)) = false := by
    simpa only [List.any_eq_false, decide_eq_true_eq] using hsteps
  have hswap : (startedBefore s c 0x1A).any (fun d => swapSlot (cmdOf s d) = swapSlot (cmdOf s c)) = false := by
    simpa only [List.any_eq_false, decide_eq_true_eq] using hswaps
  simp [modelSwapEffect, hready, hstep, hswap, Nat.not_le.mpr hslot, hrange, withAccess_of_clear hclear]

/-- A section of the image reads poisoned. -/
def sectionsPoisoned (p image : Nat) (ss : List Section) (s : State) : Bool := ss.any fun e => (farGet s p (image + e.off) e.size).2

section
variable {p image : Nat} {ss : List Section} {s : State} (c slot : Nat) (m : ModelSlot) (a b : List Nat)

theorem storeModel_fills (h : sectionsPoisoned p image ss s = false) :
    let t := storeModel c p slot image m ss a b s
    ended t c .ok 0 (sectionBytes ss true + sectionBytes ss false) 0
      ∧ tabGet {} (partOf t p).models slot = { m with sections := ss, place := a, localPlace := b } := by
  obtain ⟨u, hu⟩ : ∃ u, storeModel c p slot image m ss a b s = finishOk c (sectionBytes ss true + sectionBytes ss false)
      (setModel p slot { m with sections := ss, place := a, localPlace := b } u) := ⟨_, if_neg (Bool.eq_false_iff.mp h)⟩
  rw [hu]
  exact ⟨finish_ended .., (finish_end ..).setModel⟩

theorem storeModel_empties (h : sectionsPoisoned p image ss s = true) :
    let t := storeModel c p slot image m ss a b s
    ended t c .poisonConsumed 0x550 0 0 ∧ tabGet {} (partOf t p).models slot = {} := by
  obtain ⟨u, hu⟩ : ∃ u, storeModel c p slot image m ss a b s = fail c .poisonConsumed 0x550 (setModel p slot {} u) := ⟨_, if_pos h⟩
  rw [hu]
  exact ⟨finish_ended .., (finish_end ..).setModel⟩
end

/-! ### EVICT of adapter slots (R381) -/

theorem evictSlots_reached (p : Nat) (x : Cmd) (n : Nat) (s : State) : evictSlots p 1 x n 1 s = s := by
  cases n with
  | zero => rfl
  | succ n => simp [evictSlots]

theorem evictSlots_one {p i : Nat} {x : Cmd} {s : State} (n : Nat)
    (hi : lruSlot s p (busySlots s p x) (fun k => decide ((partOf s p).slotQuota ≤ k)) = some i) :
    evictSlots p 1 x (n + 1) 0 s = evictSlot p i s := by
  simp [evictSlots, hi, evictSlots_reached]

theorem evictEffect_one_slot {s : State} {c i : Nat} (hready : classReady s c 0x41 = true) (hfresh : (cmdOf s c).applied = false)
    (hpart : evictPart (cmdOf s c) s < 64) (hactive : (partOf s (evictPart (cmdOf s c) s)).state = .active)
    (hkind : evictKind (cmdOf s c) = 1) (htarget : evictTarget (cmdOf s c) = 1)
    (hi : lruSlot s (evictPart (cmdOf s c) s) (busySlots s (evictPart (cmdOf s c) s) (cmdOf s c))
      (fun k => decide ((partOf s (evictPart (cmdOf s c) s)).slotQuota ≤ k)) = some i) :
    evictEffect c s = endApplied c (evictSlot (evictPart (cmdOf s c) s) i s) := by
  simp [evictEffect, hready, hfresh, hpart, hactive, hkind, htarget, evictSlots_one _ hi, evictDone, endApplied]

/-- Settles O18: each command by what is resident, by what its checks and its reads find, and EVICT by the slot that it takes. -/
theorem adaptersAndModels : Obligations.AdaptersAndModels := by
  unfold Obligations.AdaptersAndModels
  intro s c x p v
  refine ⟨fun hready => ⟨fun i hi => ?_, fun hnone => ?_⟩, fun hready hunused => ⟨fun i hi => ?_, fun hnone => ?_⟩,
    fun hready hslot hsteps hswaps => ?_, fun hready hfresh hpart hactive hkind htarget i hi => ?_⟩
  · have hend : onlyEnd c (pinWhere (bit (field x 14 1) 0) p i v) (finishOk c i (pinWhere (bit (field x 14 1) 0) p i v)) := finish_end ..
    refine ⟨_, exec_adapterLoad c s rfl, ?_⟩
    rw [adapterLoadEffect_resident (s := v) hready hi]
    exact ⟨finish_ended .., (hend.adapterOf p i).trans (pinWhere_adapterOf ..), hend.mem.trans (pinWhere_mem ..)⟩
  · split
    next i u hload =>
      intro hclear
      have hend : onlyEnd c u (finishOk c i u) := finish_end ..
      have hslot := loadAdapter_adapterOf hload
      rw [← hend.adapterOf] at hslot
      refine ⟨_, exec_adapterLoad c s rfl, ?_⟩
      rw [adapterLoadEffect_loads (s := v) hready hnone hload hclear]
      exact ⟨finish_ended .., hend, hslot⟩
    next f hload =>
      intro hclear
      refine ⟨_, exec_adapterLoad c s rfl, ?_⟩
      rw [adapterLoadEffect_fails (s := v) hready hnone hload hclear]
      exact ⟨finish_ended .., finish_end ..⟩
  · obtain ⟨hempty, hothers, hmem, -⟩ := (finish_end c .ok 0 0 0 0 (evictSlot p i v)).evictSlot
    refine ⟨_, exec_adapterEvict c s rfl, ?_⟩
    rw [adapterEvictEffect_resident (s := v) hready hunused hi]
    exact ⟨finish_ended .., hempty, hothers, hmem⟩
  · refine ⟨_, exec_adapterEvict c s rfl, ?_⟩
    rw [adapterEvictEffect_absent (s := v) hready hunused hnone]
    exact ⟨finish_ended .., finish_end ..⟩
  · intro image r hclear a b hrange hsize haligned hok hclean ha hb hmover u bad
    have hread : r = (true, r.2.1, r.2.2.1, false) := eq_of_wellFormed_of_clean hok hclean
    have hpasses : swapPasses v x r.2.1 r.2.2.1 a b := ⟨hrange, hsize, haligned, hread, ha, hb, hmover⟩
    have hswap : modelSwapEffect c v = storeModel c p (field x 24 1) image r.2.1 r.2.2.1 a b u :=
      (modelSwapEffect_served (s := v) hready hslot hsteps hswaps hrange hclear).trans (swapServed_stores c hpasses)
    refine ⟨_, exec_modelSwap c s rfl, hswap, ?_⟩
    rw [hswap]
    exact ⟨storeModel_fills c _ _ a b, storeModel_empties c _ _ a b⟩
  · obtain ⟨hempty, hothers, hmem, hkvt⟩ := (endApplied_onlyEnd c (evictSlot (evictPart x s) i v)).evictSlot
    refine ⟨_, exec_evict c s rfl, ?_⟩
    rw [evictEffect_one_slot (s := v) hready hfresh hpart hactive hkind htarget hi]
    exact ⟨endApplied_ended .., hempty, hothers, hmem, hkvt⟩

end Sys2Proof.Machine
end
